-- ==== Sys2Proof/Word.lean ====
section
/-! DEFINITION. Word.lean: the word types, the three lanes, and the sparse canonical map that holds memory,
registers and other data kept by key. Nothing here knows about the module. -/

namespace Sys2Proof

abbrev Byte := BitVec 8
abbrev Half := BitVec 16
abbrev Word := BitVec 32
abbrev DWord := BitVec 64
abbrev Bytes := List Byte

/-- The three lane processors (R21). -/
inductive Lane where
  | A | B | C
  deriving DecidableEq, Repr

/-- One value for each lane. -/
structure LaneVec (α : Type) where
  a : α
  b : α
  c : α
  deriving DecidableEq, Repr

/-- A set of lanes. -/
abbrev LaneSet := LaneVec Bool

namespace LaneVec
variable {α β : Type}

def get (v : LaneVec α) : Lane → α
  | .A => v.a
  | .B => v.b
  | .C => v.c

def set (v : LaneVec α) (l : Lane) (x : α) : LaneVec α :=
  match l with
  | .A => { v with a := x }
  | .B => { v with b := x }
  | .C => { v with c := x }

def map (f : Lane → α → β) (v : LaneVec α) : LaneVec β :=
  { a := f .A v.a, b := f .B v.b, c := f .C v.c }

def all (x : α) : LaneVec α := { a := x, b := x, c := x }

def ofFn (f : Lane → α) : LaneVec α := { a := f .A, b := f .B, c := f .C }

def count (v : LaneSet) : Nat := v.a.toNat + v.b.toNat + v.c.toNat

def toList (v : LaneVec α) : List α := [v.a, v.b, v.c]

end LaneVec

/-- The lanes, lowest letter first. -/
def Lane.list : List Lane := [.A, .B, .C]

/-- The lane's number in register fields: 0 A, 1 B, 2 C. -/
def Lane.code : Lane → Nat
  | .A => 0
  | .B => 1
  | .C => 2

/-- The other two lanes, lowest letter first. -/
def Lane.others : Lane → Lane × Lane
  | .A => (.B, .C)
  | .B => (.A, .C)
  | .C => (.A, .B)

/-! The sparse map: a list of (key, value) pairs with rising keys in which no value equals the default of its key,
`d k`, the value that a key not listed has. Equal maps are equal lists. -/

namespace SMap
variable {V : Type}

def get (d : Nat → V) : List (Nat × V) → Nat → V
  | [], i => d i
  | (k, v) :: m, i => if i = k then v else get d m i

def put [DecidableEq V] (d : Nat → V) : List (Nat × V) → Nat → V → List (Nat × V)
  | [], i, x => if x = d i then [] else [(i, x)]
  | (k, v) :: m, i, x =>
    if i < k then (if x = d i then (k, v) :: m else (i, x) :: (k, v) :: m)
    else if i = k then (if x = d i then m else (i, x) :: m)
    else (k, v) :: put d m i x

/-- Every key of the list is above `lo`. -/
def above (lo : Nat) : List (Nat × V) → Bool
  | [] => true
  | (k, _) :: m => decide (lo < k) && above lo m

/-- The canonical form. -/
def wf [DecidableEq V] (d : Nat → V) : List (Nat × V) → Bool
  | [] => true
  | (k, v) :: m => decide (v ≠ d k) && above k m && wf d m

/-- Several writes, first to last. -/
def puts [DecidableEq V] (d : Nat → V) (m : List (Nat × V)) (ws : List (Nat × V)) : List (Nat × V) :=
  ws.foldl (fun m w => put d m w.1 w.2) m

end SMap

/-- A natural number that saturates at `2 ^ w - 1`. -/
def satAdd (w : Nat) (x n : Nat) : Nat := min (x + n) (2 ^ w - 1)

end Sys2Proof
end

