-- ==== Sys2Proof/Syntax.lean ====
section
/-! DEFINITION. Syntax.lean: the commands of the module, one constructor for each row of the table of operations and
events (opcode_table.json), with the operands each carries. A row's operand is what the module's surroundings decide:
an address and a value, the bytes of a frame as they arrived, a measured time, a sensed level, or what a lane's own
detector found. What the spec makes the module compute is no operand. -/

namespace Sys2Proof

/-- The port of a register access (R79, `BLK_STAT.PORT`). -/
inductive Port where
  | host
  | maint (n : BitVec 2)
  | internal
  deriving DecidableEq, Repr

/-- A reading of a strap (R589). -/
inductive Strap where
  | linked | opened | between
  deriving DecidableEq, Repr

/-- The Lane Exchange links (R28). -/
inductive LxLink where
  | ab | bc | ca
  deriving DecidableEq, Repr

/-- The station network ports. -/
inductive Net where
  | net1 | net2
  deriving DecidableEq, Repr

/-- The Platform Link channels. -/
inductive PlCh where
  | chA | chB
  deriving DecidableEq, Repr

/-- The paired transmitters (R38). -/
inductive TxChan where
  | plA | plB | net1 | net2
  | cb (n : BitVec 2)
  | xh
  deriving DecidableEq, Repr

/-- The aperture of a write that has an effect in the lanes (R67). -/
inductive WAper where
  | lane (l : Lane)
  | broadcast
  deriving DecidableEq, Repr

/-- The aperture of a read that has an effect in the lanes (R112). -/
inductive RAper where
  | lane (l : Lane)
  | voted
  deriving DecidableEq, Repr

/-- A block of a lane: its region and its number (R113). -/
structure Blk where
  region : BitVec 4
  block  : BitVec 12
  deriving DecidableEq, Repr

/-- The scopes of a reset, with the codes of R456. -/
inductive RScope where
  | cell | block | region | lane | module
  deriving DecidableEq, Repr

/-- Where a logic cell executes: its lane, its number (block [7:4], cell [3:0]), the clocks it was blocked (R166) and
whether its two halves differed in the clock (R24). -/
structure CellAt where
  lane  : Lane
  cell  : BitVec 8
  stall : BitVec 8
  mism  : Bool
  deriving DecidableEq, Repr

/-- What a lane finds in BOOT (R469, R589). -/
structure BootObs where
  romOk    : Bool
  keyOk    : Bool
  role     : Strap
  pref     : Strap
  deriving DecidableEq, Repr

/-- A report of a detector (R420): its block and bit, the data of its entry, whether its cause is present. -/
structure FaultObs where
  blk  : Blk
  bit  : BitVec 5
  data : Word
  held : Bool
  deriving DecidableEq, Repr

/-- What a lane's self-tests find in TEST (R473): the detector of the vital block that fails, where one fails; its cell resets. -/
structure SelfTest where
  failed : Option (Blk × BitVec 5)
  resets : List (BitVec 8 × Half)
  deriving DecidableEq, Repr

/-- What a lane finds when it checks its ACTIVE file in LOAD (R470, R471): whether steps 1, 2, 4 and 5 hold, and
whether they hold after a repair. -/
structure LoadObs where
  checkOk  : Bool
  repairOk : Bool
  deriving DecidableEq, Repr

/-- The currents of the paths AB, BC and CA of a ladder, in 10 µA (R258). -/
structure PathCurrents where
  ab : BitVec 16
  bc : BitVec 16
  ca : BitVec 16
  deriving DecidableEq, Repr

/-- What a lane senses on the ladder of an output channel (R258): the path currents, the midpoints in 0.1 % of the bank supply,
the channel current in mA. -/
structure ChSense where
  ch     : BitVec 8
  i      : PathCurrents
  midAB  : BitVec 10
  midBC  : BitVec 10
  midCA  : BitVec 10
  loadMa : BitVec 12
  deriving DecidableEq, Repr

/-- What a lane measures of a bank (R283): the supply in 10 mV, the output current in mA. -/
structure BankSense where
  bank  : BitVec 4
  volts : BitVec 12
  ma    : BitVec 12
  deriving DecidableEq, Repr

/-- What a lane's field sequencer finds at a freeze: comparator readings (R248), ladders, banks, and the test schedule that the
lane has computed for the cycle, as one word that two lanes share when their schedules are the same (R281). -/
structure FieldObs where
  raw     : List (BitVec 8 × Bool)
  ladders : List ChSense
  banks   : List BankSense
  sched   : Word
  deriving DecidableEq, Repr

/-- What a lane measures at a freeze: the time its crystal has run since the last freeze beyond the ticks counted (ns), its
SYNC interval (signed, 10 ns), the field. -/
structure FreezeObs where
  elapsed  : BitVec 40
  interval : BitVec 16
  field    : FieldObs
  deriving DecidableEq, Repr

/-- A lane's sense readings of a switch test (R264): the midpoint of the tested path before it, and the midpoint, the path
currents and the readback at 20 µs and at 45 µs. -/
structure SwReadings where
  before : BitVec 10
  mid20  : BitVec 10
  i20    : PathCurrents
  rb20   : Bool
  mid45  : BitVec 10
  i45    : PathCurrents
  deriving DecidableEq, Repr

/-- A lane's reading of a sense path (R248): the comparator's, or in wire-break mode the sink current in µA. -/
inductive Reading where
  | level (on : Bool)
  | current (ua : BitVec 16)
  deriving DecidableEq, Repr

/-- A lane's readings of an input test (R255): with the sink disconnected and no reference, with the reference of 1.1 mA that only
wire-break mode has, with the reference of 3 mA. -/
structure InReadings where
  free : Reading
  low  : Reading
  high : Reading
  deriving DecidableEq, Repr

/-- An input test and a switch test of the pass of TEST (R243). -/
structure InTestObs where
  ch : BitVec 8
  r  : LaneVec InReadings
  deriving DecidableEq, Repr

structure SwTestObs where
  ch : BitVec 8
  sw : BitVec 3
  r  : LaneVec SwReadings
  deriving DecidableEq, Repr

/-- The comparator of another channel during a dark pulse, as the lanes read it at 0 µs, 60 µs and 80 µs (R269). -/
structure FollowObs where
  ch  : BitVec 8
  at0  : LaneSet
  at60 : LaneSet
  at80 : LaneSet
  deriving DecidableEq, Repr

/-- A frame received on a Platform Link channel: its bytes, the lanes that received it without a code-group error
(R305 step 1), and the instants of its /S/ and of its last code-group (Station Clock, ns). -/
structure LinkRx where
  ch     : PlCh
  bytes  : Bytes
  lanes  : LaneSet
  sAt    : DWord
  endAt  : DWord
  deriving DecidableEq, Repr

/-- A datagram that a NET port receives (R373, R375): its addresses, whether its protocol is UDP and its UDP ports, its payload, and the
lanes that received it. -/
structure Dgram where
  net     : Net
  srcAddr : BitVec 128
  dstAddr : BitVec 128
  udp     : Bool
  srcPort : BitVec 16
  dstPort : BitVec 16
  bytes   : Bytes
  lanes   : LaneSet
  deriving DecidableEq, Repr

/-- What a NET port answers besides its sessions (R373): an ARP request, a neighbour solicitation, an ICMP echo request with its data;
who asks, and the address asked for. -/
inductive NetAsk where
  | arp (peer target : BitVec 128)
  | solicit (peer target : BitVec 128)
  | echo (v6 : Bool) (peer target : BitVec 128) (data : Bytes)
  deriving DecidableEq, Repr

/-- The head of a PTP message (R378): over IPv6 or IPv4, its domain, the clockIdentity of its sender, the binary logarithm of its
interval in seconds, signed. -/
structure PtpHead where
  v6       : Bool
  domain   : Byte
  master   : DWord
  interval : Byte
  deriving DecidableEq, Repr

/-- The data set of an Announce message (IEEE 1588-2019, R378): the grandmaster's priority 1, class, accuracy, variance, priority 2 and
identity, and the steps removed from it. -/
structure Announce where
  prio1 : Byte := 0
  cls   : Byte := 0
  acc   : Byte := 0
  var   : Half := 0
  prio2 : Byte := 0
  gm    : DWord := 0
  steps : Half := 0
  deriving DecidableEq, Repr

/-- A maintenance client at its handshake (R106): the TCP port it connects to, whether it offers TLS 1.3, the cipher suites,
groups and signature schemes it offers (codes of RFC 8446), the certificate it presents, and whether its proof of possession of that
certificate's key holds. -/
structure Client where
  port       : Half
  tls13      : Bool
  suites     : List Half
  groups     : List Half
  schemes    : List Half
  cert       : Option Bytes
  proofOk    : Bool
  deriving DecidableEq, Repr

/-- A frame on the Cabinet Bus. -/
structure CanFrame where
  ide  : Bool
  id   : BitVec 29
  rtr  : Bool
  fd   : Bool
  brs  : Bool
  data : Bytes
  deriving DecidableEq, Repr

/-- Who sent a frame on the Cabinet Bus: another node; the port, from one of its transmit buffers; the port, as its reference message
(R554), whose start of frame was `ago` µs earlier. -/
inductive CanFrom where
  | other
  | buffer (b : BitVec 6)
  | reference (ago : Half)
  deriving DecidableEq, Repr

/-- What goes wrong with a frame on the Cabinet Bus (R550, R556): nothing; a bit error in the data field of a frame that the port sends,
where it sent a recessive bit; another bit error; a stuff or form error; a CRC error; no acknowledgement. -/
inductive CanErr where
  | none | dataBit | bit | stuffForm | crc | ack
  deriving DecidableEq, Repr

/-- A memory code event met by a scrubber or an access (R531): the line, the word within it; of a correction, whether the scrubber made
it (R533). -/
inductive MemEvent where
  | corrected (memory : BitVec 4) (addr : BitVec 28) (word : BitVec 3) (scrub : Bool)
  | double (memory : BitVec 4) (addr : BitVec 28)
  | line (memory : BitVec 4) (addr : BitVec 28) (bytes : List Byte) (check : Half)
  deriving DecidableEq, Repr

/-- A heartbeat (R391): the peer's module state as `SV_STATE` codes it, its role and synchronisation as `XO_STATE` codes
them, its latest published generation; and what the peer must also tell for R409 (three ACTIVE lanes), R506 (the digest
of its file), R499 (its result of an on-line change, as `SV_CHG_STAT.PEER` codes it) and R413 (its `SINCE_DUTY`). -/
structure Beat where
  mstate : BitVec 4
  role   : BitVec 3
  sync   : BitVec 2
  lanes3 : Bool
  gen    : DWord
  digest : Word
  chg    : BitVec 2
  hours  : Half
  deriving DecidableEq, Repr

/-- The cage of a channel as its SFP module shows it (R341): a module present, a transmitter fault. -/
structure SfpObs where
  present : Bool
  txFault : Bool
  deriving DecidableEq, Repr

/-- The Crossover port as its hardware finds it (R396, R419): a module present, a loss of signal on any lane, the lanes XA to XC and XH
that are aligned, the coding errors and the block CRC failures since it was last found. -/
structure XoPort where
  present : Bool
  los     : Bool
  up      : LaneSet
  xh      : Bool
  code    : Half
  crc     : Half
  deriving DecidableEq, Repr

/-- The keys of a session for its two directions (R367). -/
structure SessKeys where
  keyTx  : BitVec 128 := 0
  keyRx  : BitVec 128 := 0
  saltTx : Word := 0
  saltRx : Word := 0
  deriving DecidableEq, Repr

/-- A handshake in progress as a state copy carries it (R365, R369): its step (0 none, 1 HS_HELLO sent, 3 HS_FINISH due), when it began,
its epoch and nonce, the payloads sent, whether it renews the keys (R370), the keys that wait for HS_FINISH to leave, the failures in
a row. -/
structure HsCopy where
  step  : BitVec 2
  at_   : DWord
  epoch : Byte
  nonce : BitVec 256
  hello : Bytes
  key   : Bytes
  renew : Bool
  taken : Option SessKeys
  fails : Byte
  deriving DecidableEq, Repr

/-- A Tablet session as a state copy carries it (R372): its number among the sessions of a lane, its state, counters,
echoes (µs), the last accepted telegram with its instant and age, epochs and keys with their use, the handshake, the payload last sent,
the rejections as `TB_S_REJ` and `TB_S_REJ2` show them. -/
structure SessCopy where
  num    : BitVec 12
  st     : BitVec 3
  seqTx  : Word
  last   : Word
  heard  : Bool
  echo   : BitVec 48
  toEcho : BitVec 48
  dataEcho : BitVec 48
  accAt  : DWord
  age    : BitVec 48
  bytes  : Bytes
  epoch  : Byte
  keys   : SessKeys
  old    : Option (Byte × SessKeys)
  keyAt  : DWord
  sent   : Word
  rxBase : Word
  hs     : HsCopy
  lastOut : Bytes
  rej    : Word
  rej2   : Word
  deriving DecidableEq, Repr

/-- An admitted lineside unit as a state copy carries it: PD on the two channels, the basic cycle of its last accepted
response (R326, R331). -/
structure UnitCopy where
  unit : BitVec 11
  pdA  : Half
  pdB  : Half
  bc   : Option Word
  deriving DecidableEq, Repr

/-- An edge not yet acknowledged (R302, R338), with the basic cycle of the response that first carried it. -/
structure EdgeCopy where
  ch    : Byte
  rise  : Bool
  defer : Bool
  stamp : DWord
  unc   : Word
  bc    : Option Word
  deriving DecidableEq, Repr

/-- An on-line change on its way to the standby (R499): the package, and the shadow programs by block, cell and address with the phase
and slot counts of each block. -/
structure ChangeCopy where
  pkg    : List (Nat × Byte)
  words  : List (Nat × Word)
  phases : List (Nat × Nat)
  slots  : List (Nat × Nat)
  deriving DecidableEq, Repr

/-- One lane's copy of a generation as it arrives over the Crossover (R394): the image bytes, block-memory bytes, local
and previous-state bits of the lines written, the agreed input image, the Region 3 session state, the announcement of a
Timetable (mode and target), the agreed t0, the declared areas, the armed target of an on-line change with whether it
reverts, and the carried digests: 64 segments and the one over block memories and cell bits. In LINESIDE role also the
edges not acknowledged and the latest commands (R338). `modes` are the lane states as `VOTE_STATE` codes them; `pages` the pages of
the lane state that are complete with this copy, as a catch-up sends them (R397; numbered as in log 17); `change` the package and
shadow programs of a change, sent once (R499; DESIGN CHOICE, log 125: beside a copy). -/
structure CopyData where
  gen     : DWord
  runId   : Word
  cycle   : DWord
  t0      : DWord
  image   : List (Nat × Byte)
  blocks  : List (Nat × Byte)
  loc     : List (Nat × Bool)
  prv     : List (Nat × Bool)
  inputs  : List (Nat × BitVec 512)
  sess    : List SessCopy
  units   : List UnitCopy
  ann     : Option (Byte × Word)
  areas   : BitVec 32
  armed   : Option (DWord × Bool)
  edges   : List EdgeCopy
  cmds    : BitVec 256
  digests : List DWord
  modes   : LaneVec (BitVec 3)
  pages   : List (BitVec 10)
  change  : Option ChangeCopy
  deriving DecidableEq, Repr

/-- The Platform Link or local commands that a mirror carries (R393): source number and command bits. -/
structure Mirror where
  lane   : Lane
  link   : Bool
  cmds   : List (Nat × BitVec 256)
  deriving DecidableEq, Repr

/-- A request record of the Booking Office (R205), its bytes taken as fields. -/
structure ReqRec where
  op      : Byte
  rsv     : Byte
  routeId : Half
  tag     : Word
  rsv2    : DWord
  deriving DecidableEq, Repr

/-- The commands: one constructor for each row of opcode_table.json, in the table's order. -/
inductive Instr where
  -- supply, temperature, keep-alive, reset input, start-up
  | powerUp (volts : Half) (reserve : Bool)
  | supplyDip (tenths : Half)
  | pfail (bad : List (Lane × BitVec 13))
  | holdupMeasure (percent : Byte)
  | tempHigh (base : Half)
  | overtemp (base : Half)
  | cellLow (mv : BitVec 12)
  | tamper (lostBoth : Bool)
  | tamperClear (p : Port) (d : Word)
  | resetPress
  | resetStuck
  | boot (o : LaneVec BootObs) (holdup : Byte)
  | load (o : LaneVec LoadObs) (seed : Half) (runId : Word)
  | test (o : LaneVec SelfTest) (inputs : List InTestObs) (switches : List SwTestObs)
  | sync (source : Option DWord)
  -- the interlocking cycle
  | syncRequest (l : Lane)
  | freeze (o : LaneVec FreezeObs)
  | inputAgreement
  | timerExpiry (n : BitVec 13)
  | evaluationStart (l : Lane)
  | barrier (l : Lane)
  | digestVote
  | outputInstant
  | outEdgeMissing (l : Lane) (late : Lane)
  | publication (l : Lane)
  | release
  | rollForward (l : Lane) (copied : Bool) (lateBy60 : Bool)
  | pinExpiry (l : Lane) (p : Port)
  | lxTransfer (link : LxLink) (rcv : Lane) (crcOk : Bool)
  | stepWindowMissed (link : LxLink) (silent : Lane)
  | txFrameStart (ch : TxChan) (copies : LaneVec Bytes)
  | txLate (ch : TxChan)
  | liveWindow (l : Lane) (half : LaneVec (Option Half)) (drive : Option Half)
  | switchDriverDecay (l : Lane)
  | safeCheck (l : Lane)
  | faultReport (l : Lane) (k : Blk) (bit : BitVec 5) (data : Word) (held : Bool) (also : List FaultObs)
  | hsTimeout (l : Lane) (requester target : Blk)
  | railTest (l : Lane) (region : BitVec 4) (broken : Option (BitVec 12 × BitVec 5))
  | resetComplete (l : Lane) (scope : RScope) (k : Blk)
  | resetOverrun (l : Lane) (scope : RScope) (k : Blk)
  | safeGateLatch (l : Lane) (cause : Byte)
  | resyncPage (l : Lane) (page : BitVec 20) (same : Bool)
  | degWarn
  | degExpired
  | degCountReset
  -- the logic cells
  | cNop (x : CellAt) (op : BitVec 6) (f : BitVec 26)
  | cLd (x : CellAt) (f : BitVec 26)
  | cLdn (x : CellAt) (f : BitVec 26)
  | cAnd (x : CellAt) (f : BitVec 26)
  | cAndn (x : CellAt) (f : BitVec 26)
  | cOr (x : CellAt) (f : BitVec 26)
  | cOrn (x : CellAt) (f : BitVec 26)
  | cXor (x : CellAt) (f : BitVec 26)
  | cSt (x : CellAt) (f : BitVec 26)
  | cStn (x : CellAt) (f : BitVec 26)
  | cSet (x : CellAt) (f : BitVec 26)
  | cRst (x : CellAt) (f : BitVec 26)
  | cEdgr (x : CellAt) (f : BitVec 26)
  | cEdgf (x : CellAt) (f : BitVec 26)
  | cLdt0r (x : CellAt) (f : BitVec 26)
  | cLdt0f (x : CellAt) (f : BitVec 26)
  | cLdt1r (x : CellAt) (f : BitVec 26)
  | cLdt1f (x : CellAt) (f : BitVec 26)
  | cTcge (x : CellAt) (f : BitVec 26)
  | cTclt (x : CellAt) (f : BitVec 26)
  | cFeq (x : CellAt) (f : BitVec 26)
  | cFne (x : CellAt) (f : BitVec 26)
  | cFge (x : CellAt) (f : BitVec 26)
  | cFlt (x : CellAt) (f : BitVec 26)
  | cFtst (x : CellAt) (f : BitVec 26)
  | cFeqa (x : CellAt) (f : BitVec 26)
  | cFgea (x : CellAt) (f : BitVec 26)
  | cFtsta (x : CellAt) (f : BitVec 26)
  | cTimStart (x : CellAt) (f : BitVec 22)
  | cTimRestart (x : CellAt) (f : BitVec 22)
  | cTimStop (x : CellAt) (f : BitVec 22)
  | cTimRunwhile (x : CellAt) (f : BitVec 22)
  | cCntInc (x : CellAt) (f : BitVec 22)
  | cCntDec (x : CellAt) (f : BitVec 22)
  | cCntClr (x : CellAt) (f : BitVec 22)
  | cCntLoad (x : CellAt) (f : BitVec 22)
  | cIf (x : CellAt) (f : BitVec 26)
  | cElse (x : CellAt) (f : BitVec 26)
  | cEndif (x : CellAt) (f : BitVec 26)
  | cBar (x : CellAt) (f : BitVec 26)
  | cEnd (x : CellAt) (f : BitVec 26)
  | cAssert (x : CellAt) (f : BitVec 26)
  -- common registers, clearing, injection, restart
  | blockEnable (ap : WAper) (k : Blk) (p : Port) (d : Word)
  | blockReset (ap : WAper) (k : Blk) (p : Port) (d : Word)
  | indiv (ap : WAper) (k : Blk) (p : Port) (d : Word)
  | blkErrClear (ap : WAper) (k : Blk) (p : Port) (d : Word)
  | blkErrEnWrite (k : Blk) (p : Port) (d : Word)
  | blkClassWrite (k : Blk) (p : Port) (d : Word)
  | injection (k : Blk) (p : Port) (d : Word)
  | injectionCancel (k : Blk) (p : Port) (d : Word)
  | injectionExpiry (k : Blk)
  | injEnd (k : Blk)
  | rejoin (l : Lane) (p : Port)
  | restart (p : Port)
  | registerWrite (addr : Word) (p : Port) (d : Word) (token : Half) (tag : Byte)
  -- the ports
  | read (p : Port) (copies : LaneVec (Option Bytes))
  | write (p : Port) (copies : LaneVec (Option Bytes))
  | hpPoll
  | responseReady (p : Port)
  | noAnswer (l : Lane) (p : Port) (addr : Word)
  | tlsHandshake (c : Client)
  | sessionIdle (n : BitVec 2)
  | tokenIssue (k : Blk) (p : Port)
  | missing (addr : Word) (p : Port) (tag : Byte)
  | multiwordLatch (ap : RAper) (addr : BitVec 28) (p : Port)
  | holdingCopyExpiry (l : Lane) (addr : BitVec 28) (p : Port)
  | pin (ap : RAper) (p : Port)
  | tallyCursorAdvance (ap : RAper) (p : Port)
  | cbLock (ap : RAper) (cb : BitVec 2) (p : Port)
  | cbUnlock (ap : RAper) (cb : BitVec 2) (p : Port)
  | cbLockExpiry (l : Lane) (cb : BitVec 2) (buf : BitVec 6)
  -- check-value units, re-verification and scrubbing
  | cvStart (ap : WAper) (u : BitVec 5) (p : Port)
  | cvFinal (ap : WAper) (u : BitVec 5) (p : Port)
  | cvAbort (ap : WAper) (u : BitVec 5) (p : Port)
  | cvData8 (ap : WAper) (u : BitVec 5) (p : Port) (d : Word)
  | cvData16 (ap : WAper) (u : BitVec 5) (p : Port) (d : Word)
  | cvData32 (ap : WAper) (u : BitVec 5) (p : Port) (d : Word)
  | cvRunLoad (ap : WAper) (u : BitVec 5) (p : Port) (d : Word)
  | backgroundRestore (l : Lane) (u : BitVec 5)
  | bankReverify (l : Lane) (u : BitVec 4) (read : List (BitVec 4 × Word))
  | fileReverify (l : Lane) (crc : Word)
  | reverifyLate (l : Lane) (u : BitVec 5)
  | scrubPass (l : Lane) (region : BitVec 3) (events : List MemEvent) (ms : Option Half)
  | scrubLate (l : Lane) (region : BitVec 3)
  -- the Booking Office
  | routeRequest (g : Dgram)
  | routeSet (session : BitVec 6) (r : ReqRec)
  | routeCancel (session : BitVec 6) (r : ReqRec)
  | routeQuery (session : BitVec 6) (r : ReqRec)
  | slotEmptied (slot : BitVec 9)
  -- the Station Clock
  | holdover
  | sourceReturn (offset : DWord)
  | ptpSync (net : Net) (h : PtpHead) (seq : Half) (twoStep : Bool) (t1 : DWord) (t2 : LaneVec DWord)
  | ptpFollowUp (net : Net) (h : PtpHead) (seq : Half) (t1 : DWord)
  | ptpDelayResp (net : Net) (h : PtpHead) (seq : Half) (t3 : LaneVec DWord) (t4 : DWord)
  | ptpAnnounce (net : Net) (h : PtpHead) (a : Announce)
  | ptpLost (net : Net)
  -- local field channels
  | filterConfirm (l : Lane) (ch : BitVec 8) (r : Reading) (first runStart : DWord) (deferred : Bool)
  | supply (bank : BitVec 4) (volts : LaneVec (BitVec 12))
  | supplyRestored (bank : BitVec 4) (volts : LaneVec (BitVec 12))
  | bankOc (bank : BitVec 4) (ma : LaneVec (BitVec 12))
  | inputTest (ch : BitVec 8) (r : LaneVec InReadings)
  | overcurrent (ch : BitVec 8)
  | overcurrentClear (ch : BitVec 8)
  | switchTest (ch : BitVec 8) (sw : BitVec 3) (r : LaneVec SwReadings)
  | testAbort (ch : BitVec 8)
  | testLate (ch : BitVec 8)
  | darkPulse (ch : BitVec 8) (rb60 rb80 : LaneSet) (follow : List FollowObs)
  | listenMismatch (ch : BitVec 8)
  | bankClear (bank : BitVec 4) (p : Port) (d : Word)
  | bankClearIsolator (bank : BitVec 4) (p : Port) (d : Word)
  -- the Platform Link
  | basicCycleStart (a b : SfpObs)
  | slotStart (slot : BitVec 10)
  | reference (x : LinkRx)
  | poll (x : LinkRx)
  | response (x : LinkRx)
  | modeAck (x : LinkRx)
  | coldStart (x : LinkRx)
  | joinRequest (x : LinkRx)
  | listenExpiry
  | contentionWindowEnd (corrupted : Bool)
  | backoffExpiry
  | refLost
  | plModeReq (p : Port) (d : Word)
  | modeSwitch
  | unitLost (u : BitVec 11)
  | admissionEnd (u : BitVec 11)
  | cmdTimeout
  -- Tablet sessions
  | data (g : Dgram)
  | sessionLost (s : BitVec 6)
  | hsHello (g : Dgram) (nonce : BitVec 256)
  | hsKey (g : Dgram)
  | hsFinish (g : Dgram)
  | close (g : Dgram)
  | hsKeyTimeout (s : BitVec 6) (nonce : BitVec 256)
  | hsFinishTimeout (s : BitVec 6)
  | keyRenewal (s : BitVec 6) (nonce : BitVec 256)
  | epochOverlapEnd (s : BitVec 6)
  | keyLimit (s : BitVec 6)
  | canData (cb : BitVec 2) (buf : BitVec 6) (bytes : Bytes) (lanes : LaneSet)
  | tbReopen (p : Port) (d : Word)
  | tbRenew (p : Port) (d : Word) (nonce : BitVec 256)
  | ksLoad (p : Port) (d : Word)
  | ksErase (p : Port) (d : Word)
  | prepare (g : Dgram) (draw : Half)
  | confirm (g : Dgram)
  -- duty and standby
  | heartbeat (h : Beat) (live tok : Bool)
  | mirror (m : Mirror)
  | stateCopy (c : LaneVec CopyData)
  | confirmation (gen : DWord)
  | xoLink (by_ : LaneSet)
  | peerLive (by_ : LaneSet)
  | claimWindowEnd (edgeSeen lastStill stillAtEnd : Bool)
  | handover (p : Port) (d : Word)
  | handoverOffer (cycle : DWord)
  | dutyTokStop
  | oldLaddersOpen
  | revertiveReturn
  | roleSwap
  -- forces, possessions, commissioning, on-line change
  | svForceSet (p : Port) (d : Word)
  | svForceRemove (p : Port) (d : Word)
  | svForceRemoveAll (p : Port) (d : Word)
  | declare (p : Port) (d : Word)
  | withdraw (p : Port) (d : Word)
  | commissioningEnter (p : Port) (d : Word)
  | commissioningLeave (p : Port) (d : Word)
  | changeOpen (p : Port) (d : Word)
  | changeClose (p : Port) (d : Word)
  | deltaVerify (o : LaneSet)
  | arm (p : Port) (d : Word)
  | revert (p : Port) (d : Word)
  | commit (p : Port) (d : Word)
  | abandon (p : Port) (d : Word)
  | activate (p : Port) (d : Word)
  | revertWindowEnd
  | svDltData (ap : WAper) (p : Port) (d : Word)
  | lfShdOpen (b : BitVec 4) (p : Port) (d : Word)
  | lfShdClose (b : BitVec 4) (p : Port) (d : Word)
  | lfShdData (ap : WAper) (b : BitVec 4) (p : Port) (d : Word)
  -- Cabinet Bus, Tally Recorder, LEDs and the added rows
  | canFrame (cb : BitVec 2) (f : CanFrame) (own : CanFrom) (err : CanErr) (lanes : LaneSet)
  | cbBusOff (cb : BitVec 2)
  | cbRecovered (cb : BitVec 2)
  | timeReference (cb : BitVec 2)
  | tallyWrite (l : Lane) (rec : BitVec 13) (readbackOk : Bool)
  | tallyClear (p : Port) (d : Word) (bad : List (Lane × BitVec 13))
  | tallyCheck (l : Lane) (slot : BitVec 14)
  | ledTest (p : Port) (d : Word)
  | ledTestEnd
  | x1Interrupted (volts : Half)
  | tempHighClear (base : Half)
  | overtempClear (base : Half)
  | crossoverLaneFailure (port : XoPort)
  | dutyTokStill
  | linkDown (net : Net)
  | arpNdIcmpEcho (net : Net) (ask : NetAsk)
  deriving DecidableEq, Repr

end Sys2Proof
end

