-- ==== Sys2Proof/Decode.lean ====
section
/-! DEFINITION. Decode.lean: the command that a word of the table of operations and events spells. No row of the table
gives bits, so no word spells a command. -/

namespace Sys2Proof

/-- The command of a word: none, for no row of opcode_table.json gives bits. -/
def decodeTableWord (_nbits _w : Nat) : Option Instr := none

end Sys2Proof
end

