-- ==== Sys2Proof/Machine/Types.lean ====
section
/-! DEFINITION. Machine/Types.lean: the data types that State is built from: the module's states and classes, the
station image file as the module reads it, and the records that the lanes keep. Plain data only. -/

namespace Sys2Proof.Machine

/-- The module states of R467; `off` while X1 is absent. -/
inductive MState where
  | off | boot | load | test | sync | restartLocked | run | duty | standby | safe
  deriving DecidableEq, Repr

/-- `SV_STATE.STATE` (R509); OFF answers no read. -/
def MState.code : MState → Nat
  | .off => 0 | .boot => 1 | .load => 2 | .test => 3 | .sync => 4 | .restartLocked => 5 | .run => 6 | .duty => 7
  | .standby => 8 | .safe => 9

/-- `HDR_STATE.MSTATE` (R138). -/
def MState.hdr : MState → Nat
  | .restartLocked => 1 | .run => 2 | .duty => 3 | .standby => 4 | .sync => 5 | .safe => 15
  | .off => 0 | .boot => 0 | .load => 0 | .test => 0

/-- The role of R1. -/
inductive Role where
  | central | lineside
  deriving DecidableEq, Repr

/-- The five lane states (R44 to R51). -/
inductive LaneMode where
  | active | excluded | resync | probation | halted
  deriving DecidableEq, Repr

/-- `VOTE_STATE.LANE_A` (R63). -/
def LaneMode.code : LaneMode → Nat
  | .active => 0 | .excluded => 1 | .resync => 2 | .probation => 3 | .halted => 4

/-- The classes of a detector, in rising order (R426). -/
inductive FClass where
  | note | corrected | laneRecover | laneHalt | moduleSafe
  deriving DecidableEq, Repr

/-- The code of R426. -/
def FClass.code : FClass → Nat
  | .note => 0 | .corrected => 1 | .laneRecover => 2 | .laneHalt => 3 | .moduleSafe => 4

def FClass.ofCode : Nat → Option FClass
  | 0 => some .note | 1 => some .corrected | 2 => some .laneRecover | 3 => some .laneHalt | 4 => some .moduleSafe
  | _ => none

/-- The access roles of R95. -/
inductive Access where
  | view | maintain | configure
  deriving DecidableEq, Repr

def Access.ofCode : Nat → Access
  | 1 => .maintain | 2 => .configure | _ => .view

/-- The steps of a cycle (R120), named by what the last one left: `idle` before the freeze of a cycle. -/
inductive CycStep where
  | idle | frozen | agreed | voted | output | released
  deriving DecidableEq, Repr

/-- The pair role (`XO_STATE.ROLE`, R417). -/
inductive PairRole where
  | none | holder | standby | claiming | handing
  deriving DecidableEq, Repr

def PairRole.code : PairRole → Nat
  | .none => 0 | .holder => 1 | .standby => 2 | .claiming => 3 | .handing => 4

/-- The synchronisation of a standby (`XO_STATE.SYNC`, R417). -/
inductive PairSync where
  | none | catchup | synced
  deriving DecidableEq, Repr

def PairSync.code : PairSync → Nat
  | .none => 0 | .catchup => 1 | .synced => 2

/-- The states of an on-line change (`SV_CHG_STAT.STATE`, R509). -/
inductive ChgState where
  | none | loading | verifying | verified | armed | swapped | failed | staged
  deriving DecidableEq, Repr

def ChgState.code : ChgState → Nat
  | .none => 0 | .loading => 1 | .verifying => 2 | .verified => 3 | .armed => 4 | .swapped => 5 | .failed => 6
  | .staged => 7

/-- The Platform Link node states (`PL_STATE.NODE`, R342). -/
inductive NodeState where
  | off | listen | coldstart | backoff | follow | master | integrated | answering
  deriving DecidableEq, Repr

def NodeState.code : NodeState → Nat
  | .off => 0 | .listen => 1 | .coldstart => 2 | .backoff => 3 | .follow => 4 | .master => 5 | .integrated => 6
  | .answering => 7

/-- A node that has integrated, or is master. -/
def NodeState.inside : NodeState → Bool
  | .follow => true | .master => true | .integrated => true | .answering => true
  | _ => false

/-- The states of a Tablet session (`TB_S_STATE.STATE`, R383). -/
inductive SessState where
  | unused | closed | handshake | opening | opened | renewing
  deriving DecidableEq, Repr

def SessState.code : SessState → Nat
  | .unused => 0 | .closed => 1 | .handshake => 2 | .opening => 3 | .opened => 4 | .renewing => 5

/-- The steps of a category 3 handshake at either end (R365). -/
inductive HsStep where
  | none | helloSent | finishDue
  deriving DecidableEq, Repr

/-! ### The station image file, as what the module reads from it. The file's byte layout is not in the spec. -/

/-- The configuration of a local channel (R241, `CH_CFG`). -/
structure ChanCfg where
  mode   : BitVec 2 := 0
  itype  : BitVec 2 := 0
  filter : BitVec 8 := 0
  dark   : Bool := false
  react  : BitVec 2 := 0
  deriving DecidableEq, Repr

/-- A timer's configuration (R230). -/
structure TimerCfg where
  mode : BitVec 2 := 0
  d0   : Nat := 1
  d1   : Nat := 1
  d2   : Nat := 1
  d3   : Nat := 1
  deriving DecidableEq, Repr

/-- A counter's configuration (R234). -/
structure CounterCfg where
  limit  : Nat := 0
  preset : Nat := 0
  deriving DecidableEq, Repr

/-- An edge slot's assignment: block, slot, INP address of its bit (R179). -/
structure SlotCfg where
  block : Nat
  slot  : Nat
  addr  : Nat
  deriving DecidableEq, Repr

/-- An element of the station data (R199); `kinds` is the configured kind of each of its channels, 1 INPUT, 2 OUTPUT
(R491 step 5). -/
structure ElemCfg where
  num    : Nat
  type   : Nat
  source : Nat
  ident  : Nat
  first  : Nat
  nchan  : Nat
  kinds  : List Nat
  deriving DecidableEq, Repr

/-- A route of the station data (R204): its record, identity, signals, the sessions that may request and cancel it,
and the possession areas it passes through. -/
structure RouteCfg where
  num    : Nat
  id     : Nat
  entry  : Nat
  exit   : Nat
  setBy  : List Nat
  cancBy : List Nat
  areas  : List Nat
  deriving DecidableEq, Repr

/-- A variable of the station data that has an identity (R490): its image bit address (R160) and whether it is
declared non-vital and forceable (R491). -/
structure VarCfg where
  ident     : Nat
  bit       : Nat
  forceable : Bool
  deriving DecidableEq, Repr

/-- A possession area and the element numbers inside it (R487). -/
structure AreaCfg where
  area  : Nat
  elems : List Nat
  deriving DecidableEq, Repr

/-- A station network session (R346 to R376, R383). `saltTx`, `saltRx`: the salts of R351 for the two directions. -/
structure SessCfg where
  num       : Nat
  cat       : Nat
  net1      : Bool
  net2      : Bool
  initiator : Bool
  report    : Bool
  testOk    : Bool
  tExp      : Nat
  window    : Nat
  peer      : Nat
  addr1     : BitVec 128
  addr2     : BitVec 128
  saltTx    : Word
  saltRx    : Word
  period    : Nat
  len       : Nat
  restart   : Bool
  deriving DecidableEq, Repr

/-- A Timetable entry (R309); `kind` 1 REFERENCE, 2 UNIT, 3 JOIN; `start` and `length` in 10 ns. -/
structure TtEntry where
  w0 : Word
  w1 : Word
  deriving DecidableEq, Repr

/-- The fields of an entry (R309): `START` and `LENGTH` in units of 10 ns; `KIND` 1 REFERENCE, 2 UNIT, 3 JOIN. -/
def TtEntry.start (e : TtEntry) : Nat := e.w0.toNat % 2 ^ 20
def TtEntry.period (e : TtEntry) : Nat := e.w0.toNat / 2 ^ 20 % 8
def TtEntry.phase (e : TtEntry) : Nat := e.w0.toNat / 2 ^ 23 % 64
def TtEntry.kind (e : TtEntry) : Nat := e.w0.toNat / 2 ^ 29 % 4
def TtEntry.length (e : TtEntry) : Nat := e.w1.toNat % 2 ^ 16
def TtEntry.unit (e : TtEntry) : Nat := e.w1.toNat / 2 ^ 16 % 2048

/-- A Timetable (R308, R309). -/
structure Timetable where
  mode    : Nat
  n       : Nat
  entries : List TtEntry
  deriving DecidableEq, Repr

/-- A unit table entry (R310, R381); `pdMax` in 10 ns. -/
structure UnitCfg where
  unit   : Nat
  tau    : Nat
  pdMax  : Nat
  maxAge : Nat
  digest : Word
  tExp   : Nat
  window : Nat
  deriving DecidableEq, Repr

/-- A Cabinet Bus port's configuration (R541, R543, R553, R554). -/
structure CanPortCfg where
  en     : Bool := false
  nom    : BitVec 2 := 0
  data   : BitVec 2 := 0
  term   : Bool := false
  owner  : BitVec 2 := 0
  master : Bool := false
  auto   : Bool := false
  trefMs : BitVec 7 := 0
  trefId : BitVec 29 := 0
  trefX  : Bool := false
  deriving DecidableEq, Repr

/-- A message buffer's configuration (R545, R382); `dir` 1 RECEIVE, 2 TRANSMIT. -/
structure CanBufCfg where
  port    : Nat
  buf     : Nat
  dir     : BitVec 2
  format  : BitVec 2
  ide     : Bool
  nd      : Bool
  tablet  : Bool
  len     : Nat
  period  : Nat
  id      : BitVec 29
  mask    : BitVec 29
  timeout : Nat
  pair    : Nat
  cat     : Nat
  tExp    : Nat
  window  : Nat
  peer    : Nat
  saltTx  : Word
  saltRx  : Word
  deriving DecidableEq, Repr

/-- A NET port's configuration (R373, R374, R378): UDP over IPv6 or IPv4, PTP over IPv6 or IPv4. An IPv4 address stands in the low 32
bits. -/
structure NetCfg where
  service : BitVec 128 := 0
  standby : BitVec 128 := 0
  v6      : Bool := false
  dscp    : BitVec 6 := 0
  ptpV6   : Bool := false
  domain  : BitVec 7 := 0
  masters : List DWord := []
  deriving DecidableEq, Repr

/-- A class setting of the file (R427). -/
structure ClassSet where
  blk : Blk
  det : Nat
  cls : FClass
  deriving DecidableEq, Repr

/-- A cell's program and the check value that the file records for it (R524). -/
structure CellProg where
  cell  : Nat
  words : List Word
  crc   : Word
  deriving DecidableEq, Repr

/-- The station image file. -/
structure StationFile where
  blank     : Bool := true
  digest    : BitVec 256 := 0
  crc       : Word := 0
  role      : Option Role := none
  /-- T in units of 250 µs (R117). -/
  tUnits    : Nat := 4
  pct       : Nat := 20
  /-- The compiler's worst case, 10 ns (R119). -/
  wcet      : Nat := 0
  phases    : Nat := 1
  progs     : List CellProg := []
  slotCount : List (Nat × Nat) := []
  slots     : List SlotCfg := []
  chans     : List (Nat × ChanCfg) := []
  timers    : List (Nat × TimerCfg) := []
  counters  : List (Nat × CounterCfg) := []
  elems     : List ElemCfg := []
  routes    : List RouteCfg := []
  vars      : List VarCfg := []
  areas     : List AreaCfg := []
  voteCfg   : Word := 0x148
  hpRole    : BitVec 2 := 0
  maintEn   : Bool := false
  commOk    : Bool := false
  injOk     : Bool := false
  paired    : Bool := false
  swapEn    : Bool := false
  revert    : Nat := 300
  swapHours : Nat := 24
  /-- The recorded worst-case copy, bytes (R394). -/
  copyMax   : Nat := 0
  sessions  : List SessCfg := []
  stationId : Nat := 0
  reportId  : Nat := 0
  baseM     : Nat := 0x800
  linkSalt  : Word := 0
  linkCat   : Nat := 1
  /-- The unit identity of a LINESIDE file (R337). -/
  unitId    : Nat := 1
  tables    : List Timetable := []
  coldMode  : Nat := 0
  bcUnits   : Nat := 4
  offUs     : Nat := 0
  ttDigest  : Word := 0
  units     : List UnitCfg := []
  cmdTmo    : Nat := 20
  edgeChans : List Nat := []
  canPorts  : LaneVec CanPortCfg × CanPortCfg := (.all {}, {})
  canBufs   : List CanBufCfg := []
  net1      : NetCfg := {}
  net2      : NetCfg := {}
  clockSrc  : BitVec 3 := 0
  classes   : List ClassSet := []
  deriving DecidableEq, Repr, Inhabited

/-- The blank file of R474: no element, no pairing, no session, every channel UNUSED, valid for both roles. It enables the
maintenance port, by which alone a module that holds it can take a full file (R96; DEDUCED, log 164). -/
def blankFile : StationFile := { maintEn := true }

/-! ### Registers and ports -/

/-- A read response or a write response of a port, by its fields (R102). -/
structure Resp where
  status : Byte
  tag    : Byte
  reason : Byte
  data   : List Word
  deriving DecidableEq, Repr

/-- What the maintenance port answers to a handshake (R106, R107): a session opened, under a cipher suite, with the module
certificate it presents; or a TLS alert. -/
inductive TlsReply where
  | opened (session : Nat) (suite : Half) (cert : Bytes)
  | alert
  deriving DecidableEq, Repr

/-- A block's write token (R85 to R87). -/
structure Token where
  page  : Nat
  value : Half
  port  : Port
  at_   : Nat
  deriving DecidableEq, Repr

/-- A pending WB write as one lane holds it (R88 to R92): `verdict` 0 is accept, otherwise the reason. `age` counts the
agreements it has waited; `frozen` is set by the first freeze after its receipt, which assigns it to a cycle (R90). -/
structure PendWrite where
  addr    : Nat
  value   : Word
  token   : Half
  tag     : Byte
  port    : Port
  access  : Access
  cert    : Bool
  certId  : Word
  verdict : Nat
  age     : Nat
  frozen  : Bool := false
  deriving DecidableEq, Repr

/-- A holding copy of a multi-word group (R110). -/
structure Holding where
  port  : Port
  base  : Nat
  at_   : Nat
  words : List Word
  deriving DecidableEq, Repr

/-- The stored response of the latest executed WRITE of a port (R104). -/
structure LastWrite where
  frame : Bytes
  resp  : Resp
  at_   : Nat
  deriving DecidableEq, Repr

/-- The host port's request in hand (R102, R103); `ready` is HP_RDY_N low. -/
structure HpSt where
  tag     : Byte := 0
  resp    : Option Resp := none
  ready   : Bool := false
  fetched : Bool := false
  last    : Option LastWrite := none
  /-- The bytes that the latest POLL read; none when the port was silent (R102, R603). -/
  polled  : Option Bytes := none
  deriving DecidableEq, Repr

/-- A maintenance session (R107, R108, R486). -/
structure MaintSt where
  isOpen  : Bool := false
  access  : Access := .view
  cert    : Bool := false
  certId  : Word := 0
  queue   : List Resp := []
  last    : Option LastWrite := none
  /-- The latest response sent, as bytes (R108). -/
  sent    : Option Bytes := none
  deriving DecidableEq, Repr

/-- A pin of a port (R140, R141). -/
structure Pin where
  port    : Port
  gen     : Nat
  expired : Bool
  deriving DecidableEq, Repr

/-- The lines that one roll-forward overwrote: the generation whose contents they hold (R142). -/
structure Overwritten where
  gen   : Nat
  lines : List (Nat × List Byte)
  deriving DecidableEq, Repr

/-! ### The Lever Frame -/

/-- A time register (R155): time, uncertainty, valid. -/
structure TReg where
  time  : Nat := 0
  unc   : Nat := 0
  valid : Bool := false
  deriving DecidableEq, Repr

/-- A cell's own state (R155), with the clocks it has spent in this cycle and in this phase. -/
structure CellSt where
  a      : Bool := false
  e      : Bool := true
  stack  : List Bool := []
  t0     : TReg := {}
  t1     : TReg := {}
  pc     : Nat := 0
  phase  : Nat := 0
  wait   : Bool := false
  done   : Bool := false
  clk    : Nat := 0
  phClk  : Nat := 0
  deriving DecidableEq, Repr

/-- The spaces a held write can go to (R173). -/
inductive HSpace where
  | blk | img | out
  deriving DecidableEq, Repr

/-- A held write of one cell: a word of a space, the bits written and their values (R173). For `blk` the word is
counted within the block, for `img` within the image, for `out` as source × 8 + word. -/
structure HeldW where
  cell  : Nat
  space : HSpace
  word  : Nat
  mask  : Word
  val   : Word
  deriving DecidableEq, Repr

/-- A timer or counter command of the cycle (R178). -/
structure TcCmd where
  cell    : Nat
  pc      : Nat
  counter : Bool
  fn      : Nat
  idx     : Nat
  preset  : Nat
  stop    : Bool
  deriving DecidableEq, Repr

/-- An assertion that failed in the cycle (R184). -/
structure AssertRec where
  block : Nat
  cls   : Nat
  bit   : Nat
  fresh : Bool
  deriving DecidableEq, Repr

/-! ### Field -/

/-- An edge FIFO entry (R250), and an agreed edge. -/
structure Edge where
  ch    : Nat
  rise  : Bool
  stamp : Nat
  unc   : Nat
  defer : Bool
  deriving DecidableEq, Repr

/-- A class of a midpoint, or of nothing clear (R258, `CH_LIVE.MID_AB`). -/
inductive Mid where
  | low | mid | high | between
  deriving DecidableEq, Repr

/-- The class of a reading (R252): OFF and ON, and in wire-break mode BROKEN and a gap. -/
inductive RClass where
  | off | on | broken | gap
  deriving DecidableEq, Repr

/-- A lane's view of a ladder (R258): whether it has sensed it, the conducting paths, the midpoints, the channel current in mA. -/
structure LadderSt where
  seen   : Bool := false
  iAB    : Bool := false
  iBC    : Bool := false
  iCA    : Bool := false
  midAB  : Mid := .low
  midBC  : Mid := .low
  midCA  : Mid := .low
  loadMa : Nat := 0
  deriving DecidableEq, Repr

/-- The voted readings of a switch test (R263, R264): a set of lanes stands for the paths AB, BC and CA. -/
structure SwSeen where
  before : Mid
  mid20  : Mid
  i20    : LaneSet
  rb20   : Bool
  mid45  : Mid
  i45    : LaneSet
  deriving DecidableEq, Repr

/-- A local channel's agreed state (R277): the codes that apply, latest first; the switches found stuck open and stuck closed and
the partners, latest first; the instants of trips; the streaks of R259 and R275; the instant the switches take the commands again
(R260); when each switch, the sense path and the readback of a dark pulse were last tested, and the instants from which the
deadlines of R265 run, of the input test and of the switch tests; whether the channel has failed a test in TEST (R243). -/
structure ChanSt where
  codes    : List Nat := []
  opens    : List Nat := []
  shorts   : List Nat := []
  partners : List Nat := []
  trips   : List Nat := []
  heldOff : Bool := false
  offTill : Nat := 0
  lowRun  : Nat := 0
  extRun  : Nat := 0
  peerRun : Nat := 0
  swAt    : List Nat := []
  inAt    : Nat := 0
  darkAt  : Nat := 0
  inFrom  : Nat := 0
  dueFrom : Nat := 0
  onFrom  : Nat := 0
  failed  : Bool := false
  deriving DecidableEq, Repr

/-- A code or a reading that waits for the next input agreement step (R255, R263). `acts` tells that the reaction of `EXT_REACT`
belongs to this channel (R269). -/
structure PendCode where
  ch      : Nat
  code    : Nat
  switch  : Nat
  partner : Nat
  lanes   : LaneSet
  acts    : Bool := true
  deriving DecidableEq, Repr

/-- A test of an output in progress (R263 to R269): a switch test, or a dark pulse where no switch is named; whether the output
was energised at its start, when it ends, and the codes that its readings give. -/
structure RunTest where
  ch    : Nat
  sw    : Option Nat
  on    : Bool
  at_   : Nat
  till  : Nat
  codes : List PendCode
  deriving DecidableEq, Repr

/-- A test ended under R266, at the head of its bank's queue; `ready` once an output instant has come. -/
structure Retry where
  ch    : Nat
  sw    : Option Nat
  ready : Bool
  deriving DecidableEq, Repr

/-- A bank's agreed state (R242 to R245), its test in progress and the tests to be repeated (R263, R266). -/
structure BankSt where
  closed  : Bool := false
  latched : Bool := false
  low     : Bool := false
  high    : Bool := false
  running : Option RunTest := none
  retry   : List Retry := []
  deriving DecidableEq, Repr

/-! ### Link, Tablet, Cabinet Bus -/

/-- A lane's key store objects that can be installed (R364), each as its bytes; the key pair and the manufacturing certificate have
been found (R469). -/
structure KeySt where
  op      : Bytes := []
  chain0  : Bytes := []
  chain1  : Bytes := []
  chain2  : Bytes := []
  revoked : Bytes := []
  link    : Bytes := []
  hasKey  : Bool := false
  deriving DecidableEq, Repr

/-- What a NET port sends besides Tablet telegrams: the claim of an address by an unsolicited ARP reply or neighbour advertisement
(R374); the answer from an address to an ARP request, a neighbour solicitation and an ICMP echo request, the last with its
data (R373); a PTP Delay_Req by its domain and sequence number (R378). `v6` tells IPv6 from IPv4. -/
inductive NetMsg where
  | claim (v6 : Bool) (addr : BitVec 128)
  | arpReply (own peer : BitVec 128)
  | advert (own peer : BitVec 128)
  | echoReply (v6 : Bool) (own peer : BitVec 128) (data : Bytes)
  | delayReq (v6 : Bool) (domain : BitVec 7) (seq : Half)
  deriving DecidableEq, Repr

/-- A Tablet session as one lane keeps it (R354 to R371). Times in µs are 48-bit. -/
structure SessSt where
  st      : SessState := .unused
  seqTx   : Nat := 0
  last    : Nat := 0
  heard   : Bool := false
  bytes   : Bytes := []
  echo    : Nat := 0
  toEcho  : Nat := 0
  dataEcho : Nat := 0
  accAt   : Nat := 0
  age     : Nat := 0
  valid   : Bool := false
  hs      : HsStep := .none
  hsAt    : Nat := 0
  fails   : Nat := 0
  epoch   : Nat := 0
  keyTx   : BitVec 128 := 0
  keyRx   : BitVec 128 := 0
  saltTx  : Word := 0
  saltRx  : Word := 0
  oldEpoch : Option Nat := none
  oldKeyRx : BitVec 128 := 0
  oldSaltRx : Word := 0
  newEpoch : Nat := 0
  keyAt   : Nat := 0
  /-- The keys that the initiator takes when HS_FINISH leaves (R370). -/
  newKeys : Option SessKeys := none
  /-- Telegrams sent under the keys; L where the keys began, from which the peer's are counted (R370). -/
  sent    : Nat := 0
  rxBase  : Nat := 0
  hello   : Bytes := []
  key     : Bytes := []
  nonce   : BitVec 256 := 0
  /-- A renewal is in progress (R370), also where the session has lapsed to OPENING; the key store as the handshake found it
  (R385). -/
  renew   : Bool := false
  store   : KeySt := {}
  nextReq : Option Bytes := none
  reqs    : List Bytes := []
  waiting : List Bytes := []
  lastOut : Bytes := []
  rejIdent : Nat := 0
  rejSeq  : Nat := 0
  rejAge  : Nat := 0
  rejCode : Nat := 0
  rejMac  : Nat := 0
  rejForm : Nat := 0
  dups    : Nat := 0
  hsFail  : Nat := 0
  deriving DecidableEq, Repr

/-- What a lane holds of a lineside unit: the last accepted response (R331), whole. -/
structure UnitRx where
  bc     : Nat := 0
  heard  : Bool := false
  inputs : BitVec 256 := 0
  serv   : BitVec 256 := 0
  ustate : Byte := 0
  flags  : Byte := 0
  digest : Word := 0
  edges  : List Edge := []
  age    : Nat := 255
  deriving DecidableEq, Repr

/-- What the master agrees about a lineside unit (R326 to R332, `PL_UNIT_STAT`). -/
structure UnitAdm where
  admitted : Bool := false
  pdA      : Nat := 0xFFFF
  pdB      : Nat := 0xFFFF
  reason   : Nat := 0
  acked    : Bool := false
  missed   : Nat := 0
  joins    : Nat := 0
  answered : Bool := true
  cmds     : BitVec 256 := 0
  prevCmds : BitVec 256 := 0
  latch    : BitVec 256 := 0
  age      : Nat := 255
  valid    : Bool := false
  deriving DecidableEq, Repr

/-- A reference frame as a node keeps it for integration (R323). -/
structure RefSeen where
  bc64   : Nat
  stime  : Nat
  mode   : Nat
  runId  : Word
  digest : Word
  src    : Nat
  sAt    : Nat
  deriving DecidableEq, Repr

/-- A link frame as one lane used it, for the comparison of R306: its bytes without `PD_THIS` and the codes, the channels it arrived
valid on, the Tablet session as it stood before it, and whether that session handed its payload on. -/
structure LaneCopy where
  bytes : Bytes
  a     : Bool
  b     : Bool
  sess  : SessSt
  took  : Bool
  deriving DecidableEq, Repr

/-- The copies of a link frame, by its identity, in each lane that found one valid (R306). -/
structure LinkCopy where
  type  : Nat
  bc    : Nat
  slot  : Nat
  src   : Nat
  lane  : LaneVec (Option LaneCopy)
  deriving DecidableEq, Repr

/-- The Platform Link node (R317 to R330). -/
structure LinkSt where
  node     : NodeState := .off
  mode     : Nat := 0
  ttPos    : Nat := 0
  bc64     : Nat := 0
  /-- STIME of the latest reference frame, which gives the day of the link keys (R381). -/
  stime    : Nat := 0
  pending  : Bool := false
  pendMode : Nat := 0
  target   : Nat := 0
  announceDue : Bool := false
  next     : Nat := 0
  changeLeft : Nat := 0
  takeover : Bool := false
  collisions : Nat := 0
  coldDue  : Bool := false
  clash    : Bool := false
  heardCold : Bool := false
  refA     : Nat := 0
  refB     : Nat := 0
  slotLen  : Nat := 0
  seen     : Option RefSeen := none
  slot     : Nat := 0
  slotAt   : Nat := 0
  pollEnd  : Nat := 0
  polled   : Nat := 0
  invited  : Bool := false
  lastInv  : Nat := 0
  copies   : List LinkCopy := []
  /-- The last 1,024 frames of each lane: valid on A, valid on B (R307). -/
  windows  : LaneVec (List (Bool × Bool)) := .all []
  lockRun  : Nat := 0
  -- LINESIDE
  admitted : Bool := false
  timedOut : Bool := false
  cmds     : BitVec 256 := 0
  cmdsFrozen : BitVec 256 := 0
  cmdAck   : Nat := 0xFFFFFFFF
  /-- That of the commands of the latest freeze, which are the ones applied (R122, R299). -/
  ackFrozen : Nat := 0xFFFFFFFF
  /-- The instant of the latest valid poll, and its basic cycle. -/
  pollAt   : Option (Nat × Nat) := none
  pdA      : Nat := 0xFFFF
  pdB      : Nat := 0xFFFF
  edges    : List (Edge × Nat) := []
  /-- Edges of the cycle, which belong to the generation that it publishes; the inputs and the service bits of the latest published
  one (R301). -/
  newEdges : List Edge := []
  pubIn    : BitVec 256 := 0
  pubServ  : BitVec 256 := 0
  /-- COLD_START is due at the next basic cycle of the module (R319). -/
  coldReady : Bool := false
  /-- The edge records of the latest response (R302). -/
  carried  : List (Edge × Nat) := []
  onlyA    : Nat := 0
  onlyB    : Nat := 0
  /-- A burst came in on a channel, with code-group synchronisation, since the last basic cycle start (`PLC_STAT`). -/
  litA     : Bool := false
  litB     : Bool := false
  syncA    : Bool := false
  syncB    : Bool := false
  deriving DecidableEq, Repr

/-- A Cabinet Bus message buffer as one lane keeps it (R545 to R549): the frame, received or to send; of a transmit buffer whether it
waits, in which cycle it was queued, and its content at the last t_pub. -/
structure CanBuf where
  data   : Bytes := []
  fd     : Bool := false
  brs    : Bool := false
  got    : Bool := false
  storedAt : Nat := 0
  seq    : Nat := 0
  valid  : Bool := false
  lock   : Option (Port × Nat) := none
  locked : Bytes := []
  lockFd : Bool := false
  lockBrs : Bool := false
  lockSeq : Nat := 0
  shadow : Bool := false
  queued : Bool := false
  queuedIn : Nat := 0
  content : Bytes := []
  deriving DecidableEq, Repr

/-- A Cabinet Bus port (R542, R543, R553, R554). Of its reference messages: when the next is due, the Station Clock in µs at the last
one's start of frame, their count, whether the period has expired, and the cycle in which one was queued that waits. -/
structure CanPort where
  owner   : Option Lane := none
  busOff  : Bool := false
  trefDue : Nat := 0
  trefAt  : Option Nat := none
  trefCnt : Nat := 0
  trefOver : Bool := false
  trefQ   : Option Nat := none
  entered : Bool := false
  deriving DecidableEq, Repr

/-- What a telegram of the station network travels under (R373, R374): IPv6 or IPv4, its addresses, its UDP ports, its DSCP value. -/
structure IpHead where
  v6    : Bool
  src   : BitVec 128
  dst   : BitVec 128
  sport : Half
  dport : Half
  dscp  : BitVec 6
  deriving DecidableEq, Repr

/-- A frame that waits at a paired transmitter, or that left it, with the pair that coded it (R36). -/
structure TxFrame where
  ch    : TxChan
  bytes : Bytes
  pair  : Nat
  ip    : Option IpHead := none
  deriving DecidableEq, Repr

/-- What a CLOSE is coded with once its session has been forgotten (R351, R369): the epoch, the salt and the key of its direction, and
the time to echo. -/
structure TgCode where
  epoch : Nat
  salt  : Nat
  key   : BitVec 128
  echo  : Nat
  deriving DecidableEq, Repr

/-- A telegram that waits to be formed in a later cycle (R407). -/
structure WaitTel where
  session : Nat
  type    : Nat
  payload : Bytes
  code    : Option TgCode
  deriving DecidableEq, Repr

/-- What acknowledge-after-copy holds (R144): a telegram with the session it belongs to and its formed fields, or the
DONE result of a write in the ring. -/
inductive HeldItem where
  | telegram (gen : Nat) (at_ : Nat) (session : Nat) (type : Nat) (seq : Nat) (flags : Nat) (payload : Bytes) (code : Option TgCode)
  | done (gen : Nat) (at_ : Nat) (ring : Nat)
  deriving DecidableEq, Repr

/-! ### Check-value units, recorders, service -/

/-- One context of a check-value unit (R515, R522). -/
structure CvCtx where
  run   : DWord := 0
  st    : BitVec 2 := 0
  bytes : Nat := 0
  deriving DecidableEq, Repr

/-- A check-value unit of a lane: foreground and background contexts, which of them holds the datapath, whether the
background one is suspended with a pass in progress, the last result, the compare flags, the staged half of R519; on a
memory unit the words corrected in the last complete pass and in the pass in progress (R533): memory, line, word. `passAt` is when
the background pass in progress began (R528, R534). -/
structure CvUnit where
  fg      : CvCtx := {}
  bgHeld  : Bool := false
  saved   : Bool := false
  result  : DWord := 0
  isMatch   : Bool := false
  mism    : Bool := false
  stageLo : Word := 0
  fixed   : List (Nat × Nat × Nat) := []
  fixing  : List (Nat × Nat × Nat) := []
  passAt  : Nat := 0
  deriving DecidableEq, Repr

/-- An Occurrence Book entry (R455). -/
structure ObEntry where
  time   : Nat
  seq    : Nat
  path   : Word
  code   : Half
  cls    : Nat
  flags  : Nat
  cycle  : Nat
  data   : BitVec 48
  rep    : Nat
  deriving DecidableEq, Repr

/-- A Tally record as accumulated in SRAM (R557, R561): its 232-byte payload as a sparse byte map, whether it has
changed since its last write, and the instant of that write. -/
structure TallyRec where
  payload : List (Nat × Byte) := []
  dirty   : Bool := false
  writtenAt : Option Nat := none
  deriving DecidableEq, Repr

/-- One tally copy in MRAM (R558). -/
structure TallySlot where
  bytes : List (Nat × Byte) := []
  deriving DecidableEq, Repr

/-- What a lane gathers of the present second for the Tally Recorder (R561): the second, the longest evaluation in 10 ns,
the largest age of each link record. -/
structure SecAcc where
  sec  : Nat := 0
  eval : Option Nat := none
  ages : List (Nat × Nat) := []
  deriving DecidableEq, Repr

/-- Values that the spec names and does not determine, as drawn (log 10): bytes sent at input agreement with their
highest (R66), size and time of the state copy with their highest (R417). -/
structure OpenVals where
  lxLast   : Nat := 0
  lxMax    : Nat := 0
  copySize : Nat := 0
  copyTime : Nat := 0
  sizeMax  : Nat := 0
  timeMax  : Nat := 0
  deriving DecidableEq, Repr

/-- What drives a lane's Station Clock (R222, R223, R225): the rate correction and the slew of this cycle, in 0.01 ppm; the time
not yet counted, less than a step of 10 ns, in 10^-8 ns; the crystal's time through the correction since the last freeze,
without slew, in 10^-8 ns; and that of up to 1,024 cycles, the latest first. `xtal` is the deviation of the lane's crystal from
nominal (R224). -/
structure OscSt where
  xtal : Int := 0
  rate : Int := 0
  slew : Int := 0
  frac : Nat := 0
  run  : Nat := 0
  runs : List Nat := []
  deriving DecidableEq, Repr

/-- A reset (R435): its scope, when it began, whether it has completed; it masks its scope until its bound (R436). `tag` is that of
the injection that caused it (R445). -/
structure ResetRec where
  scope : RScope
  blk   : Blk
  at_   : Nat
  done  : Bool := false
  tag   : Option Byte := none
  deriving DecidableEq, Repr

/-- A report on its way to the lane collector (R423): the detector, the data of its entry, and where its reporting path is broken
the class of the detector behind it (R421). -/
structure Report where
  blk  : Blk
  bit  : Nat
  data : Nat
  rail : Option FClass := none
  deriving DecidableEq, Repr

/-- A detector: its block and its `BLK_ERR` bit. -/
structure Det where
  blk : Blk
  bit : Nat
  deriving DecidableEq, Repr

/-- What the module agrees about a lane (R44 to R51, R602): its state; the class, cause and detector it left the vote
for; the detectors that must be watched when its resets complete (R432); the instants of its entries to ACTIVE within
24 h (R51); the instant LIVE restarted and the agreeing digests since (R50); the pages received in agreement, those
of them written since and marked, and the page asked again (R47, R48); since when both other lanes find its LIVE outside the window
(R450). -/
structure LaneCtl where
  mode    : LaneMode := .active
  cls     : FClass := .note
  watch   : List Det := []
  permit  : Bool := false
  liveAt  : Nat := 0
  agreed  : Nat := 0
  entries : List Nat := []
  pages   : List Nat := []
  marked  : List Nat := []
  retry   : List Nat := []
  rejoinReq : Bool := false
  lostAt  : Option Nat := none
  deriving DecidableEq, Repr

/-- The open injection (R443 to R447). -/
structure InjSt where
  blk     : Blk
  det     : Nat
  tag     : Byte
  left    : Nat
  lanes   : LaneSet
  forced  : Bool
  excl    : LaneSet
  deriving DecidableEq, Repr

/-- A RESTART_AUTH that the lanes accepted, waiting for the input agreement of the next cycle (R122, R479): its session,
its payload and the challenge drawn for it. -/
structure AuthWait where
  session : Nat
  payload : List Byte
  draw    : Half
  deriving DecidableEq, Repr

/-- An accepted PREPARE of a restart authorisation (R479). -/
structure Prepare where
  session   : Nat
  tag       : Nat
  gen       : Nat
  challenge : Nat
  at_       : Nat
  deriving DecidableEq, Repr

/-- The copied lane state as at the last publication: what is written since is found against it (R47). -/
structure CopyBase where
  img : List Host.Cell := []
  blk : List Host.Cell := []
  loc : List (Nat × Bool) := []
  prv : List (Nat × Bool) := []
  deriving DecidableEq, Repr

/-- The Lane Exchange (R28, R47, R61): the copied state at the last publication and at the one before; the links trained; the transfers asked again in this step window, by link and
receiving lane; the windows missed by a lane, by link. -/
structure LxSt where
  base   : CopyBase := {}
  prev   : CopyBase := {}
  ab     : Bool := false
  bc     : Bool := false
  ca     : Bool := false
  retry  : List (LxLink × Lane) := []
  missed : List (LxLink × Lane) := []
  deriving DecidableEq, Repr

/-- The cycle (R120): the step reached, the cycle number, the agreed t0, the SYNC requests, the module SYNC line, the
model's time of the last publication and of the last freeze. -/
structure CycSt where
  step     : CycStep := .idle
  num      : Nat := 0
  t0       : Nat := 0
  syncReq  : LaneSet := .all false
  syncLine : Bool := false
  pubAt    : Nat := 0
  frzAt    : Nat := 0
  t0s      : List Nat := []
  deriving DecidableEq, Repr

/-- The count of R53: ns below three ACTIVE lanes, ns with three without interruption, the warnings. -/
structure DegSt where
  ns      : Nat := 0
  clean   : Nat := 0
  warn    : Bool := false
  expired : Bool := false
  deriving DecidableEq, Repr

/-- What the lanes agree about the field (R242 to R280): channels, banks, the sense
paths left out of the vote and the runs of minority readings (R32; a key below 256 is a channel, 256 + n is INP source
n), the codes and readings that wait for input agreement. -/
structure FieldAg where
  chan     : List (Nat × ChanSt) := []
  bank     : List (Nat × BankSt) := []
  pathOut  : List (Lane × Nat) := []
  minority : List (Lane × Nat × Nat) := []
  due      : List PendCode := []
  deriving DecidableEq, Repr

/-- The supply, the temperature and the keep-alive domain as module hardware holds them (R571 to R581). -/
structure PowerSt where
  /-- The straps have been sampled since the module was last without power (R1). -/
  strapped : Bool := false
  x1       : Bool := true
  held     : Bool := false
  tempHigh : Bool := false
  overtemp : Bool := false
  holdLow  : Bool := false
  cellLow  : Bool := false
  cellOk   : Bool := false
  dip      : Bool := false
  atFreeze : List (Nat × Nat) := []
  tamper   : Bool := false
  clkValid : Bool := false
  /-- The backup clock: what it was set to, and the ns since (R580). -/
  clkSet   : Nat := 0
  clkFor   : Nat := 0
  /-- Since when X1 has been present without interruption, or interrupted (R573), and the instant of the latest hold-up measurement
  (R574). -/
  x1At     : Nat := 0
  measured : Nat := 0
  ledTest  : Bool := false
  ledAt    : Nat := 0
  forceInd : Bool := false
  deriving DecidableEq, Repr

/-- A PTP master's exchange on a NET port (R378, R379): the state of `PTP_STAT`, the master by its place in the table with its data set,
the Sync that waits for its Follow_Up with its stamps, the latest pair, the number of the latest Delay_Req, delays and offsets by lane, the intervals
towards lock, those without a pair and those without a Delay_Resp. -/
structure PtpSt where
  st      : BitVec 2 := 0
  locked  : Bool := false
  master  : Option Nat := none
  best    : Announce := {}
  seq     : Half := 0
  t1      : Nat := 0
  t2      : LaneVec Nat := .all 0
  waitFu  : Bool := false
  wait2   : LaneVec Nat := .all 0
  gotPair : Bool := false
  reqSeq  : Half := 0
  delay   : LaneVec Int := .all 0
  off     : LaneVec Int := .all 0
  run     : Nat := 0
  missed  : Nat := 0
  noResp  : Nat := 0
  deriving DecidableEq, Repr

/-- What the module has sent last over the Crossover: the mirrors of each lane (R393), the copy of each lane and the one that waits for
t_pub (R394), the confirmation (R395) and the offer (R410). -/
structure XoOut where
  mirror     : LaneVec (Option Mirror) := .all none
  mirrorLink : LaneVec (Option Mirror) := .all none
  next       : LaneVec (Option CopyData) := .all none
  copy       : LaneVec (Option CopyData) := .all none
  conf       : Option DWord := none
  offer      : Option DWord := none
  deriving DecidableEq, Repr

/-- The Crossover as the module holds it (R389 to R419): the pair role and synchronisation; what is seen of the peer; the
generation confirmed or applied; generations in catch-up whose copies agreed (R397); a claim (R401) and what it follows;
a planned handover (R410); the retry and the overdue role-swap test (R409, R413); since when the module is a synchronised
standby, holds the role, and last completed a spell in the role; the instant SYNC was entered; the mirrors by lane
(R393); the takeover latch of the local channels (R405); a first generation after a takeover to come (R135). -/
structure XoSt where
  role     : PairRole := .none
  sync     : PairSync := .none
  hb       : Bool := false
  peerLive : Bool := false
  peerTok  : Bool := false
  linkUp   : LaneSet := .all false
  peer     : Option Beat := none
  gen      : Nat := 0
  pagesGen : Nat := 0
  claimAt  : Option Nat := none
  extended : Bool := false
  lossClaim : Bool := false
  synced0  : Bool := false
  hoCycle  : Option Nat := none
  hoPaused : Bool := false
  hoConf   : Bool := false
  hoTaken  : Bool := false
  retryAt  : Nat := 0
  overdue  : Bool := false
  overdueAt : Nat := 0
  holdSince : Option Nat := none
  dutySince : Nat := 0
  sinceDuty : Nat := 0
  mirror   : LaneVec (BitVec 256) := .all 0
  mirrorLink : LaneVec (List (Nat × BitVec 256)) := .all []
  latch    : BitVec 256 := 0
  takeover : Bool := false
  /-- The pages held in catch-up (R397), the lane states of the holder (R394), since when the peer is a synchronised standby with three
  ACTIVE lanes (R412), when the last confirmation of a handover came (R410), when SYNC was entered (R392). -/
  pages    : List Nat := []
  peerModes : LaneVec (BitVec 3) := .all 0
  peerSince : Option Nat := none
  confAt   : Nat := 0
  syncAt   : Nat := 0
  /-- The lanes that miss the heartbeat, and those that find PEER_LIVE_IN stopped (R399); the pages sent to a standby in catch-up and
  not written since (R397); the copy before told of an armed change (R396); from when a new holder evaluates (R410). -/
  hbLost   : LaneSet := .all false
  liveLost : LaneSet := .all false
  sentPages : List Nat := []
  armSeen  : Bool := false
  evalFrom : Nat := 0
  out      : XoOut := {}
  deriving DecidableEq, Repr

/-- The on-line change (R497 to R507). -/
structure ChgSt where
  st       : ChgState := .none
  reason   : Nat := 0
  target   : Nat := 0
  revert   : Bool := false
  window   : Nat := 0
  endAt    : Nat := 0
  peer     : BitVec 2 := 0
  sendDue  : Bool := false
  deriving DecidableEq, Repr

/-- A lane's configuration flash (R470, R495, R504): the ACTIVE file, and the other slot as KEPT or STAGED, with the
Station Clock instant at which a kept file's window ends. -/
structure FlashSt where
  active : StationFile := blankFile
  kept   : Option StationFile := none
  staged : Option StationFile := none
  keptTill : Nat := 0
  deriving DecidableEq, Repr

/-- What the last publication showed (R73, first kind) of the data that RV registers report: the channels and banks,
the file, the link, the units, the Crossover, the counts, `FS_TEST`, the class overrides, and when. -/
structure Seen where
  central : Bool := false
  fld   : FieldAg := {}
  file  : StationFile := {}
  link  : LinkSt := {}
  adm   : List (Nat × UnitAdm) := []
  xo    : XoSt := {}
  at_   : Nat := 0
  degNs : Nat := 0
  two   : Bool := false
  tests : Nat := 0
  classes : List (Nat × Nat) := []
  chg   : ChgSt := {}
  sv    : Nat := 0
  left  : Nat := 0
  deriving DecidableEq, Repr

end Sys2Proof.Machine
end

