-- ==== Sys2Proof/Config.lean ====
section
/-! DEFINITION. Config.lean: what one implementation fixes and the spec leaves open, as constants without a body: no
proof can see their values (free values, log 10). -/

namespace Sys2Proof.Config

open Sys2Proof.Machine

/-- `BLK_ID` of a page, by its offset (R79 gives it per block; log 6). -/
opaque blkId : Nat → Word

/-- The value that a block's token generator draws from the agreed seed, by page offset and count (R85). -/
opaque tokenDraw : Half → Nat → Nat → Half

/-- A token: the drawn value, never 0x0000 (R85). -/
def token (seed : Half) (page n : Nat) : Half :=
  if tokenDraw seed page n = 0 then 1 else tokenDraw seed page n

/-- The 64-bit check of a line's address and contents that a segment digest is the exclusive-OR of (R41). -/
opaque lineCheck : Nat → List Byte → DWord

/-- The 64-bit digest over all block memories, local bits and previous-state bits that a state copy carries (R394). -/
opaque cellDigest : List (Nat × Byte) → List (Nat × Bool) → List (Nat × Bool) → DWord

/-- The station image file that has a digest [31:0]: what a standby receives whole from the holder (R506). -/
opaque peerFile : Word → StationFile

/-- The secret key of the module (R363) and its manufacturing certificate, DER (R363): no aperture reads the one, and no rule gives
either (log 145). -/
opaque secretKey : Nat
opaque mfgCert : List Byte

/-- The ephemeral secret that the lane draws with a nonce (R368), and the random number of a signature over a byte string
(log 145). -/
opaque ephemeral : BitVec 256 → Nat
opaque signNonce : List Byte → Nat

/-- Seconds from the beginning of 1970 to the instant at which a Station Clock reads 0: the spec does not say which date a reading
names (R366; DESIGN CHOICE, log 146). -/
opaque clockEpoch : Nat

/-- The file that a lane rebuilds from the staged package and its ACTIVE file (R498); the delta's layout beyond the
header of R496 is not in the spec. -/
opaque rebuild : List Byte → StationFile → StationFile

/-- What a delta changes of a file: element and variable identities (R500, R491), and possession areas. -/
opaque deltaIdents : List Byte → List Nat
opaque deltaAreas : List Byte → List Nat

/-- The module serial number (R304 names it; no rule gives it: log 71). -/
opaque serial : DWord

/-- A path current between 0.2 mA and 0.5 mA is found conducting (R258 states neither): by the instant, the place of the sense and
the current (DESIGN CHOICE, log 114). -/
opaque senseBetween : Nat → Nat → Nat → Bool

/-- The deviation of the backup clock, units of 0.1 ppm; it counts within ±100 ppm (R580; DESIGN CHOICE, log 130). -/
opaque backupRate : Int

/-- A free value by its number: a value that the spec leaves open. -/
opaque freeWord : Nat → Word

end Sys2Proof.Config
end

