-- ==== Sys2Proof/Machine/State.lean ====
section
/-! DEFINITION. Machine/State.lean: the state of the module, everything the spec gives it, as plain data; the faults
and refusals of a step; the state right after reset. Registers that no other field holds stand in the sparse maps
`regs` (one per lane, keyed by the offset in the lane aperture) and `mregs` (keyed by the offset in the module
aperture); a key that is not listed has its register's reset value (`Machine/Regs.lean`). -/

namespace Sys2Proof.Machine

/-- No command faults: the spec gives every command an effect or lets it change nothing (R83). The one constructor is
raised by nothing and is safe. -/
inductive Fault where
  | never
  deriving DecidableEq, Repr

/-- A refusal by the model, never by the module: `notModelled` stands for a command that has no meaning yet, and is
raised only by Dispatch.lean; safe. -/
inductive Refusal where
  | notModelled (mnemonic : String)
  deriving DecidableEq, Repr

/-- The logic of one lane: the Lever Frame, the timer and counter commands of the cycle, the images (R155 to R187). -/
structure LogicSt where
  /-- The lane evaluates: from t0 + 60 µs until the commit of the last phase (R125, R127). -/
  evaluating : Bool
  /-- The commit of the last phase has completed in this cycle (R127). -/
  ended      : Bool
  /-- The phase being executed (R127). -/
  phase      : Nat
  /-- Clocks of the lane's logic clock spent in evaluation in this cycle (R130). -/
  evalClk    : Nat
  /-- Clocks to the END of the cells without a program in the last cycle (R172, `CELL_CLK`), and the bank of that cycle. -/
  idleClk    : Nat
  idleBank   : Nat
  /-- The active instruction bank, 0 or 1 (R187), and the one that the last publication showed (R73). -/
  bank       : Nat
  shownBank  : Nat
  /-- Both instruction banks: bank × 2^22 + cell × 2^14 + word (R155). -/
  banks      : List (Nat × Word)
  /-- Phase count, cells holding logic and slot count of each bank, by bank × 16 + block (R192). -/
  phasesOf   : List (Nat × Nat)
  slotsOf    : List (Nat × Nat)
  /-- The edge slot assignments of the active program (R179). -/
  slotMap    : List SlotCfg
  /-- Cell states by cell number (R155). -/
  cells      : List (Nat × CellSt)
  /-- Local bits, cell × 4096 + bit (R155). -/
  loc        : List (Nat × Bool)
  /-- Previous-state bits, cell × 4096 + bit (R157). -/
  prv        : List (Nat × Bool)
  /-- Block memories, block × 32768 + byte (R159, R179). -/
  blkMem     : List Host.Cell
  /-- The held writes of the phase (R173). -/
  held       : List HeldW
  /-- Most held entries in any phase of this cycle, by block (R193). -/
  holdPeak   : List (Nat × Nat)
  /-- The timer and counter commands of the cycle (R178). -/
  tcCmds     : List TcCmd
  /-- The assertions that failed in the cycle (R184). -/
  asserts    : List AssertRec
  /-- The output image, by OUT source (R161, R164). -/
  out        : List (Nat × BitVec 256)
  /-- The request records decided in full in this cycle (R208). -/
  decided    : Nat
  /-- The answers formed in this cycle: session and 16-byte record (R206). -/
  answers    : List (Nat × Bytes)
  /-- The CLOSED slots and the generation in which each closed (R216). -/
  closedAt   : List (Nat × Nat)
  /-- The instant of the last EVAL_MARGIN entry (R130). -/
  marginAt   : Option Nat
  /-- The point elements whose `THROW_MS` a barrier of this cycle has written (R562). -/
  throws     : List Nat
  deriving DecidableEq, Repr

/-- The Station Image of one lane (R131 to R142). -/
structure ImageSt where
  /-- The working buffer, bytes by window offset (R131, R137). -/
  working   : List Host.Cell
  /-- The published buffer (R131). -/
  published : List Host.Cell
  /-- The lines of 32 bytes written since the last publication (R133). -/
  dirty     : List Nat
  /-- The lines written in the generation just published, to be rolled forward (R133). -/
  rolling   : List Nat
  /-- The pin store (R142). -/
  store     : List Overwritten
  /-- The pins (R140). -/
  pins      : List Pin
  /-- The lane has published in this cycle (R131). -/
  done      : Bool
  /-- The working buffer has been rolled forward (R133). -/
  rolled    : Bool
  deriving DecidableEq, Repr

/-- The field sequencer of one lane (R248 to R250). -/
structure FieldSt where
  /-- Comparator readings by channel (R248). -/
  raw      : BitVec 256
  /-- Filtered states by channel (R249). -/
  filt     : BitVec 256
  /-- Filtered states as latched at the last freeze (R121). -/
  frozen   : BitVec 256
  /-- In wire-break mode: the filtered class BROKEN, and a gap (R252), with both as latched at the last freeze. -/
  broken   : BitVec 256
  gap      : BitVec 256
  brokenFrz : BitVec 256
  gapFrz   : BitVec 256
  /-- The ladders as sensed at the last freeze, by channel (R258). -/
  sense    : List (Nat × LadderSt)
  /-- The test schedule that the lane computed for the cycle, as one word (R281). -/
  sched    : Word
  /-- The lane's commands to the bank isolators (R242), and the sinks that it commands to disconnect, by channel, until an
  instant (R255). -/
  iso      : BitVec 16
  sinkOff  : List (Nat × Nat)
  /-- The commands the lane's switch drivers hold (R34), and the lane's own evaluated commands of the last output instant (R283). -/
  cmd      : BitVec 256
  want     : BitVec 256
  /-- The edge FIFO (R250). -/
  fifo     : List Edge
  /-- The edges drained in the assembly step (R250). -/
  drained  : List Edge
  /-- Channels whose filter run began when the lane entered PROBATION (R50). -/
  seeded   : BitVec 256
  /-- The lane's switches stay closed until they decay, after its LIVE stopped (R60). -/
  decaying : Bool
  /-- Its charge pump has run down: no switch of the lane can close until its LIVE is back in the window (R60). -/
  unpowered : Bool
  deriving DecidableEq, Repr

/-- Everything one lane holds. -/
structure LaneSt where
  /-- Register words other than their reset values, by offset in the lane aperture (R67, R78). -/
  regs    : List (Nat × Word)
  /-- The same, as at the last publication, for RV fields of the first kind (R73). -/
  shown   : List (Nat × Word)
  /-- Registers held per port and session: port code × 2^28 + offset (R235). -/
  sels    : List (Nat × Word)
  /-- The Station Clock, ns (R222). -/
  clock   : Nat
  osc     : OscSt
  /-- Consecutive freezes beyond 3 µs of the agreed t0 (R225). -/
  offRun  : Nat
  /-- The current write tokens (R85 to R87). -/
  tokens  : List Token
  /-- The token generators by page, as the number of values drawn (R85). -/
  gens    : List (Nat × Nat)
  /-- The seed of the token generators (R85). -/
  seed    : Half
  /-- The pending WB writes (R90, R91). -/
  pend    : List PendWrite
  /-- The holding copies (R110). -/
  holds   : List Holding
  /-- The maintenance sessions whose keys the lane holds (R109). -/
  tlsKeys : List Nat
  logic   : LogicSt
  image   : ImageSt
  field   : FieldSt
  /-- Received data by INP source, before the freeze (R122, R331, R359), and as latched at the freeze. -/
  rx      : List (Nat × BitVec 512)
  rxFrozen : List (Nat × BitVec 512)
  /-- Tablet sessions: 0 to 63 the station network, 64 + n lineside unit n, 64 this unit's own, 2048 + 64 p + b the
  Cabinet Bus (R354, R380, R382). -/
  sess    : List (Nat × SessSt)
  /-- Lineside unit data by unit (R331), before the freeze and as latched at it. -/
  units   : List (Nat × UnitRx)
  unitsFrozen : List (Nat × UnitRx)
  /-- Cabinet Bus buffers, port × 64 + buffer (R545). -/
  can     : List (Nat × CanBuf)
  /-- Check-value units by number (R512). -/
  cv      : List (Nat × CvUnit)
  /-- The Occurrence Book: preserved entries of the latest start-up, and the ring, oldest first (R454). -/
  obKept  : List ObEntry
  obRing  : List ObEntry
  obNext  : Nat
  /-- Entries preserved since the latest start-up (R454). -/
  obCount : Nat
  /-- Causes that are present (R432, R440). -/
  standing : List Det
  /-- Causes software has cleared are `BLK_ERR` bits in `regs`; resets in progress (R435). -/
  resets  : List ResetRec
  /-- Consequential reports recorded in the reaction in progress (R439). -/
  explained : List Det
  /-- SAFE_REQ asserted (R433). -/
  safeReq : Bool
  /-- LIVE signals as this lane finds them (R450). -/
  liveOk  : LaneSet
  /-- Timer marks of this freeze (R232). -/
  marks   : List Nat
  /-- Tally records by number and MRAM slots by number (R557, R558). -/
  tally   : List (Nat × TallyRec)
  mram    : List (Nat × TallySlot)
  acc     : SecAcc
  /-- Values that the spec leaves open (log 10). -/
  opn     : OpenVals
  /-- Configuration flash and key store (R470, R364). -/
  flash   : FlashSt
  /-- The staging area of the flash, bytes (R497). -/
  staging : List Host.Cell
  keys    : KeySt
  /-- The key store and the tamper record as the last publication showed them (R73, R385). -/
  keysShown : KeySt × Bool
  deriving DecidableEq, Repr

/-- What decides whether the module can drive anything: its state of R467, its safe gate (R433), VITAL_DRV with the LIVE signals
that its own components find in the window, and since when it has been off (R451). -/
structure DriveSt where
  mstate : MState
  gate   : Bool
  vdrv   : Bool
  offAt  : Nat
  live   : LaneSet
  deriving DecidableEq, Repr

/-- The state of the module. -/
structure State where
  /-- The commands that wait, first in, first out (the model's own queue). -/
  pending  : List Instr
  /-- Time since the model began, ns (the model's own, for intervals measured outside the lanes' clocks). -/
  now      : Nat
  /-- Counts the free values drawn (the model's own). -/
  freeCtr  : Nat
  /-- The module state (R467), the module safe gate (R433), VITAL_DRV (R451). -/
  drv      : DriveSt
  /-- The module's role and its PREF strap (R1, R387). -/
  role     : Role
  pref     : Bool
  /-- COMMISSIONING (R489), the declared possession areas (R487), the RESTART_AUTH telegrams that await input agreement
  (R122), the accepted PREPARE (R479), a CONFIRM accepted in the present cycle (R480). -/
  comm     : Bool
  areas    : BitVec 32
  auths    : List AuthWait
  prepare  : Option Prepare
  confirmed : Bool
  /-- Generations published in RESTART_LOCKED and when (R478). -/
  lockedGens : List (Nat × Nat)
  /-- The agreed lane states (R44), and everything each lane holds. -/
  ctl      : LaneVec LaneCtl
  lane     : LaneVec LaneSt
  /-- The lanes that were ACTIVE when the safe gate latched (R434). -/
  gateActive : LaneSet
  /-- Registers of the module aperture other than their reset values (R77, R114), their holding copies (R110), the
  next place of the result ring (R115). -/
  mregs    : List (Nat × Word)
  mholds   : List Holding
  ringNext : Nat
  /-- The start of the start-up (R468), a file repaired in it (R509), RESET_N stuck (R483), the module reset that a
  press caused last (R483). -/
  startAt  : Nat
  repaired : Bool
  stuck    : Bool
  power    : PowerSt
  cyc      : CycSt
  /-- The generation last published, its run identity, and a takeover's first generation to come (R134 to R136). -/
  gen      : Nat
  runId    : Word
  lx       : LxSt
  deg      : DegSt
  fld      : FieldAg
  seen     : Seen
  /-- The agreed input image by INP source, and that of the cycle before (R30, R161). -/
  inp      : List (Nat × BitVec 512)
  /-- The agreed in-service bits of each lineside unit (R200, R299). -/
  serv     : List (Nat × BitVec 256)
  inpPrev  : List (Nat × BitVec 512)
  /-- Frames at the paired transmitters, first in first out, and the last that left each (R38); held items (R144). -/
  txq      : List TxFrame
  txLast   : List TxFrame
  held     : List HeldItem
  /-- The NET sessions of the telegrams formed in this cycle, and the telegrams that wait for a later one (R407). -/
  formed   : List Nat
  formWait : List WaitTel
  hp       : HpSt
  maint    : List (Nat × MaintSt)
  /-- What the maintenance port answered to the latest handshake (R106, R107). -/
  tlsReply : Option TlsReply
  link     : LinkSt
  adm      : List (Nat × UnitAdm)
  canPort  : List (Nat × CanPort)
  ptp1     : PtpSt
  ptp2     : PtpSt
  /-- Since when the discipline source is lost (R226). -/
  srcLost  : Option Nat
  xo       : XoSt
  inj      : Option InjSt
  /-- Detector classes other than the default: page offset × 32 + bit to the code of R426 (R427). -/
  classes  : List (Nat × Nat)
  chg      : ChgSt
  /-- The file as the lanes agreed it in LOAD, or swapped it since. -/
  file     : StationFile
  /-- ICMP echoes answered in the present second, by NET port (R373). -/
  echo1    : Nat × Nat
  echo2    : Nat × Nat
  /-- The latest message of each NET port that is no Tablet telegram (R373, R374). -/
  said1    : Option NetMsg
  said2    : Option NetMsg
  deriving DecidableEq, Repr

/-- The module state (R467). -/
abbrev State.mstate (s : State) : MState := s.drv.mstate

/-- The module safe gate is latched (R433). -/
abbrev State.gate (s : State) : Bool := s.drv.gate

/-- VITAL_DRV delivers energy (R451). -/
abbrev State.vdrv (s : State) : Bool := s.drv.vdrv

/-- The instant since which VITAL_DRV has been off, when it goes off now. -/
def State.driveOffAt (s : State) : Nat := if s.drv.vdrv then s.now else s.drv.offAt

/-- The logic of a lane after a reset: nothing evaluates, every memory reads 0 (DESIGN CHOICE, log 4). -/
def LogicSt.reset : LogicSt :=
  { evaluating := false, ended := false, phase := 0, evalClk := 0, idleClk := 0, idleBank := 0, bank := 0, shownBank := 0, banks := [], phasesOf := [],
    slotsOf := [], slotMap := [], cells := [], loc := [], prv := [], blkMem := [], held := [], holdPeak := [],
    tcCmds := [], asserts := [], out := [], decided := 0, answers := [], closedAt := [], marginAt := none, throws := [] }

/-- The images after a reset: nothing published (R134), every byte 0 (DESIGN CHOICE, log 4). -/
def ImageSt.reset : ImageSt :=
  { working := [], published := [], dirty := [], rolling := [], store := [], pins := [], done := false, rolled := true }

/-- The field sequencer after a reset. -/
def FieldSt.reset : FieldSt :=
  { raw := 0, filt := 0, frozen := 0, broken := 0, gap := 0, brokenFrz := 0, gapFrz := 0, sense := [], sched := 0, iso := 0, sinkOff := [], cmd := 0, want := 0, fifo := [], drained := [], seeded := 0, decaying := false, unpowered := false }

/-- A lane after a reset: every register at its reset value. -/
def LaneSt.reset : LaneSt :=
  { regs := [], shown := [], sels := [], clock := 0, osc := {}, offRun := 0, tokens := [], gens := [], seed := 0,
    pend := [], holds := [], tlsKeys := [], logic := .reset, image := .reset, field := .reset, rx := [], rxFrozen := [], sess := [],
    units := [], unitsFrozen := [], can := [], cv := [], obKept := [], obRing := [], obNext := 0, obCount := 0, standing := [],
    resets := [], explained := [], safeReq := false, liveOk := .all false, marks := [], tally := [], mram := [], acc := {}, opn := {},
    flash := {}, staging := [], keys := {}, keysShown := ({}, false) }

/-- The module right after a module reset: BOOT (`SV_STATE` resets to 0x1, R508), every lane ACTIVE and not voting
(`VOTE_STATE` resets to 0x0000_2000, R62), the blank file in the flash (R474), no command waiting. -/
def State.reset : State :=
  { pending := [], now := 0, freeCtr := 0, drv := { mstate := .boot, gate := false, vdrv := false, offAt := 0, live := .all false }, role := .central, pref := false, comm := false,
    areas := 0, auths := [], prepare := none, confirmed := false, lockedGens := [], ctl := .all {}, lane := .all .reset,
    gateActive := .all false, mregs := [], mholds := [], ringNext := 0, startAt := 0,
    repaired := false, stuck := false, power := {}, cyc := {}, gen := 0, runId := 0, lx := {},
    deg := {}, fld := {}, seen := {}, inp := [], serv := [], inpPrev := [], txq := [], txLast := [], held := [], formed := [], formWait := [], hp := {}, maint := [], tlsReply := none,
    link := {}, adm := [], canPort := [], ptp1 := {}, ptp2 := {}, srcLost := none, xo := {},
    inj := none, classes := [], chg := {}, file := blankFile, echo1 := (0, 0), echo2 := (0, 0), said1 := none, said2 := none }

end Sys2Proof.Machine
end

