-- ==== Sys2Proof/Machine/Regs.lean ====
section
/-! DEFINITION. Machine/Regs.lean: the register pages (R78, R113, R114), every register of every page with its reset
value and the access of its bits (R7), where each register lies, and the detectors of each page with their default
classes (R426, R427). Generated from the register and field tables of the spec's chapters. -/

namespace Sys2Proof.Machine

/-- The kinds of register page: those of a lane aperture (R113) and, last, those of the module aperture (R114). -/
inductive Page where
  | lf | image | bo | tmr | cnt | fs | bank | plc | plt | tb | net | cb | rc | fc | ob | tally | stc | ks | hp | sv
  | cv | vote | cyc | lx | xo | acc | pm | xp | led | ka
  deriving DecidableEq, Repr

/-- One register (`n` of them, one word each, from `off`): its reset value, the bits that are RW, W1C, WB and WO, and
the RV bits that change at publication only (R73, first kind). -/
structure RegRow where
  off   : Nat
  n     : Nat
  reset : Nat
  rw    : Nat
  w1c   : Nat
  wb    : Nat
  wo    : Nat
  rv    : Nat
  deriving DecidableEq, Repr

/-- The block-specific registers of the page: R192. -/
def rows_lf : List RegRow := [
  { off := 0x40, n := 1, reset := 0x0, rw := 0x0, w1c := 0x0, wb := 0x0, wo := 0x0, rv := 0x1ff1f1f },
  { off := 0x44, n := 1, reset := 0x0, rw := 0x0, w1c := 0x0, wb := 0x0, wo := 0x0, rv := 0x0 },
  { off := 0x48, n := 1, reset := 0x0, rw := 0x0, w1c := 0x0, wb := 0x0, wo := 0x0, rv := 0xffffffff },
  { off := 0x4c, n := 1, reset := 0x0, rw := 0x0, w1c := 0x0, wb := 0x1fff3, wo := 0x0, rv := 0x0 },
  { off := 0x50, n := 1, reset := 0x0, rw := 0x3ffff, w1c := 0x0, wb := 0x0, wo := 0x0, rv := 0x0 },
  { off := 0x54, n := 1, reset := 0x0, rw := 0x0, w1c := 0x0, wb := 0x0, wo := 0xffffffff, rv := 0x0 },
  { off := 0x58, n := 1, reset := 0x0, rw := 0x0, w1c := 0x0, wb := 0x0, wo := 0x0, rv := 0xffffffff },
  { off := 0x5c, n := 1, reset := 0x0, rw := 0x0, w1c := 0x0, wb := 0x0, wo := 0x0, rv := 0x7ffff3 } ]

/-- The block-specific registers of the page: R151. -/
def rows_image : List RegRow := [
  { off := 0x40, n := 1, reset := 0x0, rw := 0x0, w1c := 0x0, wb := 0x0, wo := 0x0, rv := 0xffffffff },
  { off := 0x44, n := 1, reset := 0x0, rw := 0x0, w1c := 0x0, wb := 0x0, wo := 0x0, rv := 0xffffffff },
  { off := 0x48, n := 1, reset := 0x0, rw := 0x0, w1c := 0x0, wb := 0x0, wo := 0x0, rv := 0xffffffff },
  { off := 0x4c, n := 1, reset := 0x0, rw := 0x0, w1c := 0x0, wb := 0x0, wo := 0x0, rv := 0x0 },
  { off := 0x50, n := 1, reset := 0x0, rw := 0x0, w1c := 0x0, wb := 0x0, wo := 0x0, rv := 0x0 },
  { off := 0x54, n := 1, reset := 0x0, rw := 0x0, w1c := 0x0, wb := 0x0, wo := 0x0, rv := 0x0 },
  { off := 0x58, n := 1, reset := 0x0, rw := 0x0, w1c := 0x0, wb := 0x0, wo := 0x0, rv := 0x0 } ]

/-- The block-specific registers of the page: R236. -/
def rows_bo : List RegRow := [
  { off := 0x40, n := 1, reset := 0x0, rw := 0x0, w1c := 0x0, wb := 0x0, wo := 0x0, rv := 0x3ff03ff },
  { off := 0x44, n := 1, reset := 0x0, rw := 0x0, w1c := 0x0, wb := 0x0, wo := 0x0, rv := 0xffffffff },
  { off := 0x48, n := 1, reset := 0x0, rw := 0x0, w1c := 0x0, wb := 0x0, wo := 0x0, rv := 0xffffffff },
  { off := 0x4c, n := 1, reset := 0x0, rw := 0x0, w1c := 0x0, wb := 0x0, wo := 0x0, rv := 0x7f007f },
  { off := 0x50, n := 1, reset := 0x0, rw := 0x0, w1c := 0x0, wb := 0x0, wo := 0x0, rv := 0xffffffff } ]

/-- The block-specific registers of the page: R237. -/
def rows_tmr : List RegRow := [
  { off := 0x40, n := 1, reset := 0x0, rw := 0x0, w1c := 0x0, wb := 0x0, wo := 0x0, rv := 0x3fff3fff },
  { off := 0x44, n := 1, reset := 0x0, rw := 0x1fff, w1c := 0x0, wb := 0x0, wo := 0x0, rv := 0x0 },
  { off := 0x48, n := 1, reset := 0x0, rw := 0x0, w1c := 0x0, wb := 0x0, wo := 0x0, rv := 0x7 },
  { off := 0x4c, n := 4, reset := 0x0, rw := 0x0, w1c := 0x0, wb := 0x0, wo := 0x0, rv := 0xffffffff },
  { off := 0x5c, n := 4, reset := 0x0, rw := 0x0, w1c := 0x0, wb := 0x0, wo := 0x0, rv := 0xffffffff },
  { off := 0x6c, n := 1, reset := 0x0, rw := 0x0, w1c := 0x0, wb := 0x0, wo := 0x0, rv := 0x0 } ]

/-- The block-specific registers of the page: R238. -/
def rows_cnt : List RegRow := [
  { off := 0x40, n := 1, reset := 0x0, rw := 0x0, w1c := 0x0, wb := 0x0, wo := 0x0, rv := 0x7ff },
  { off := 0x44, n := 1, reset := 0x0, rw := 0x3ff, w1c := 0x0, wb := 0x0, wo := 0x0, rv := 0x0 },
  { off := 0x48, n := 1, reset := 0x0, rw := 0x0, w1c := 0x0, wb := 0x0, wo := 0x0, rv := 0xffffffff },
  { off := 0x4c, n := 1, reset := 0x0, rw := 0x0, w1c := 0x0, wb := 0x0, wo := 0x0, rv := 0xffffffff },
  { off := 0x50, n := 1, reset := 0x0, rw := 0x0, w1c := 0x0, wb := 0x0, wo := 0x0, rv := 0x0 } ]

/-- The block-specific registers of the page: R281. -/
def rows_fs : List RegRow := [
  { off := 0x40, n := 1, reset := 0x0, rw := 0x0, w1c := 0x0, wb := 0x0, wo := 0x0, rv := 0x3ffff },
  { off := 0x44, n := 1, reset := 0x0, rw := 0x0, w1c := 0x0, wb := 0x0, wo := 0x0, rv := 0x3fff1fff },
  { off := 0x48, n := 1, reset := 0x0, rw := 0x0, w1c := 0x0, wb := 0x0, wo := 0x0, rv := 0x0 },
  { off := 0x4c, n := 1, reset := 0x0, rw := 0x0, w1c := 0x0, wb := 0x0, wo := 0x0, rv := 0x0 } ]

/-- The block-specific registers of the page: R282. -/
def rows_bank : List RegRow := [
  { off := 0x40, n := 1, reset := 0xffff0000, rw := 0x0, w1c := 0x0, wb := 0x0, wo := 0x0, rv := 0xffff001f },
  { off := 0x44, n := 1, reset := 0x0, rw := 0x0, w1c := 0x0, wb := 0x0, wo := 0x0, rv := 0x0 },
  { off := 0x48, n := 1, reset := 0x0, rw := 0x0, w1c := 0x0, wb := 0x1ffff, wo := 0x0, rv := 0x0 },
  { off := 0x80, n := 16, reset := 0x0, rw := 0x0, w1c := 0x0, wb := 0x0, wo := 0x0, rv := 0x7fff },
  { off := 0xc0, n := 16, reset := 0x120, rw := 0x0, w1c := 0x0, wb := 0x0, wo := 0x0, rv := 0x3ff1fff },
  { off := 0x100, n := 16, reset := 0x0, rw := 0x0, w1c := 0x0, wb := 0x0, wo := 0x0, rv := 0x0 } ]

/-- The block-specific registers of the page: R341. -/
def rows_plc : List RegRow := [
  { off := 0x40, n := 1, reset := 0x0, rw := 0x0, w1c := 0x0, wb := 0x0, wo := 0x0, rv := 0x0 },
  { off := 0x44, n := 1, reset := 0x0, rw := 0x0, w1c := 0x0, wb := 0x0, wo := 0x0, rv := 0x0 },
  { off := 0x48, n := 1, reset := 0x0, rw := 0x0, w1c := 0x0, wb := 0x0, wo := 0x0, rv := 0x0 },
  { off := 0x4c, n := 1, reset := 0x0, rw := 0x0, w1c := 0x0, wb := 0x0, wo := 0x0, rv := 0x0 },
  { off := 0x50, n := 1, reset := 0x0, rw := 0x0, w1c := 0x0, wb := 0x0, wo := 0x0, rv := 0x0 },
  { off := 0x54, n := 1, reset := 0x0, rw := 0x0, w1c := 0x0, wb := 0x0, wo := 0x0, rv := 0x0 } ]

/-- The block-specific registers of the page: R342. -/
def rows_plt : List RegRow := [
  { off := 0x40, n := 1, reset := 0x0, rw := 0x0, w1c := 0x0, wb := 0x0, wo := 0x0, rv := 0x3fff7f },
  { off := 0x44, n := 1, reset := 0x0, rw := 0x0, w1c := 0x0, wb := 0x0, wo := 0x0, rv := 0x1fff7f7 },
  { off := 0x48, n := 1, reset := 0x0, rw := 0x0, w1c := 0x0, wb := 0x0, wo := 0x0, rv := 0xffffffff },
  { off := 0x4c, n := 1, reset := 0x0, rw := 0x0, w1c := 0x0, wb := 0x0, wo := 0x0, rv := 0xffffffff },
  { off := 0x50, n := 1, reset := 0x0, rw := 0x0, w1c := 0x0, wb := 0x7, wo := 0x0, rv := 0x0 },
  { off := 0x54, n := 1, reset := 0x0, rw := 0x0, w1c := 0x0, wb := 0x0, wo := 0x0, rv := 0xffffffff },
  { off := 0x58, n := 1, reset := 0x1, rw := 0x7ff, w1c := 0x0, wb := 0x0, wo := 0x0, rv := 0x0 },
  { off := 0x5c, n := 1, reset := 0x0, rw := 0x0, w1c := 0x0, wb := 0x0, wo := 0x0, rv := 0x3fffffff },
  { off := 0x60, n := 1, reset := 0xff, rw := 0x0, w1c := 0x0, wb := 0x0, wo := 0x0, rv := 0xf3fff },
  { off := 0x64, n := 1, reset := 0xffffffff, rw := 0x0, w1c := 0x0, wb := 0x0, wo := 0x0, rv := 0xffffffff },
  { off := 0x68, n := 1, reset := 0x0, rw := 0x0, w1c := 0x0, wb := 0x0, wo := 0x0, rv := 0xffffffff },
  { off := 0x6c, n := 1, reset := 0x0, rw := 0x0, w1c := 0x0, wb := 0x0, wo := 0x0, rv := 0x7ff07ff },
  { off := 0x70, n := 1, reset := 0x0, rw := 0x0, w1c := 0x0, wb := 0x0, wo := 0x0, rv := 0x0 },
  { off := 0x74, n := 1, reset := 0x0, rw := 0x0, w1c := 0x0, wb := 0x0, wo := 0x0, rv := 0x3ffff } ]

/-- The block-specific registers of the page: R383. -/
def rows_tb : List RegRow := [
  { off := 0x40, n := 1, reset := 0x0, rw := 0x0, w1c := 0x0, wb := 0x0, wo := 0x0, rv := 0x0 },
  { off := 0x44, n := 1, reset := 0x0, rw := 0x0, w1c := 0x0, wb := 0x0, wo := 0x0, rv := 0x0 },
  { off := 0x48, n := 1, reset := 0x0, rw := 0x3f, w1c := 0x0, wb := 0x0, wo := 0x0, rv := 0x0 },
  { off := 0x4c, n := 1, reset := 0x0, rw := 0x0, w1c := 0x0, wb := 0x0, wo := 0x0, rv := 0x7f },
  { off := 0x50, n := 1, reset := 0x0, rw := 0x0, w1c := 0x0, wb := 0x0, wo := 0x0, rv := 0xfffffff },
  { off := 0x54, n := 1, reset := 0x0, rw := 0x0, w1c := 0x0, wb := 0x0, wo := 0x0, rv := 0xffffffff },
  { off := 0x58, n := 1, reset := 0x0, rw := 0x0, w1c := 0x0, wb := 0x0, wo := 0x0, rv := 0x0 },
  { off := 0x5c, n := 1, reset := 0x0, rw := 0x0, w1c := 0x0, wb := 0x0, wo := 0x0, rv := 0x0 },
  { off := 0x60, n := 1, reset := 0x0, rw := 0x0, w1c := 0x0, wb := 0x0, wo := 0x0, rv := 0x0 },
  { off := 0x64, n := 1, reset := 0x0, rw := 0x0, w1c := 0x0, wb := 0x0, wo := 0x0, rv := 0x0 },
  { off := 0x68, n := 1, reset := 0x0, rw := 0x0, w1c := 0x0, wb := 0x0, wo := 0x0, rv := 0x0 },
  { off := 0x6c, n := 1, reset := 0x0, rw := 0x0, w1c := 0x0, wb := 0x33f, wo := 0x0, rv := 0x0 } ]

/-- The block-specific registers of the page: R384. -/
def rows_net : List RegRow := [
  { off := 0x40, n := 1, reset := 0x0, rw := 0x0, w1c := 0x0, wb := 0x0, wo := 0x0, rv := 0x0 },
  { off := 0x44, n := 1, reset := 0x0, rw := 0x0, w1c := 0x0, wb := 0x0, wo := 0x0, rv := 0x0 },
  { off := 0x48, n := 1, reset := 0x0, rw := 0x0, w1c := 0x0, wb := 0x0, wo := 0x0, rv := 0x0 },
  { off := 0x4c, n := 1, reset := 0x0, rw := 0x0, w1c := 0x0, wb := 0x0, wo := 0x0, rv := 0x0 },
  { off := 0x50, n := 1, reset := 0xff00, rw := 0x0, w1c := 0x0, wb := 0x0, wo := 0x0, rv := 0x0 },
  { off := 0x54, n := 1, reset := 0x0, rw := 0x0, w1c := 0x0, wb := 0x0, wo := 0x0, rv := 0x0 },
  { off := 0x58, n := 1, reset := 0x0, rw := 0x0, w1c := 0x0, wb := 0x0, wo := 0x0, rv := 0x0 } ]

/-- The block-specific registers of the page: R555. -/
def rows_cb : List RegRow := [
  { off := 0x40, n := 1, reset := 0x0, rw := 0x0, w1c := 0x0, wb := 0x0, wo := 0x0, rv := 0x1ffff },
  { off := 0x44, n := 1, reset := 0x0, rw := 0x0, w1c := 0x0, wb := 0x0, wo := 0x0, rv := 0x0 },
  { off := 0x48, n := 1, reset := 0x0, rw := 0x0, w1c := 0x0, wb := 0x0, wo := 0x0, rv := 0x0 },
  { off := 0x4c, n := 1, reset := 0x0, rw := 0x0, w1c := 0x0, wb := 0x0, wo := 0x0, rv := 0x0 },
  { off := 0x50, n := 1, reset := 0x0, rw := 0x0, w1c := 0x0, wb := 0x0, wo := 0x0, rv := 0x0 },
  { off := 0x54, n := 1, reset := 0x0, rw := 0x0, w1c := 0x0, wb := 0x0, wo := 0x0, rv := 0x3fffffff },
  { off := 0x58, n := 1, reset := 0x0, rw := 0x3f, w1c := 0x0, wb := 0x0, wo := 0x0, rv := 0x0 },
  { off := 0x5c, n := 1, reset := 0x0, rw := 0x0, w1c := 0x0, wb := 0x0, wo := 0x0, rv := 0xffffff },
  { off := 0x60, n := 1, reset := 0x0, rw := 0x0, w1c := 0x0, wb := 0x0, wo := 0x0, rv := 0x1fffffff },
  { off := 0x64, n := 1, reset := 0x0, rw := 0x0, w1c := 0x0, wb := 0x0, wo := 0x0, rv := 0x1fffffff },
  { off := 0x68, n := 1, reset := 0x0, rw := 0x0, w1c := 0x0, wb := 0x0, wo := 0x0, rv := 0x3fffff },
  { off := 0x80, n := 1, reset := 0x0, rw := 0x0, w1c := 0x0, wb := 0x0, wo := 0x0, rv := 0x0 },
  { off := 0x84, n := 16, reset := 0x0, rw := 0x0, w1c := 0x0, wb := 0x0, wo := 0x0, rv := 0x0 } ]

/-- The block-specific registers of the page: R462. -/
def rows_rc : List RegRow := [
  { off := 0x40, n := 1, reset := 0x0, rw := 0x0, w1c := 0x0, wb := 0x0, wo := 0x0, rv := 0x0 },
  { off := 0x44, n := 1, reset := 0x0, rw := 0x0, w1c := 0x0, wb := 0x0, wo := 0x0, rv := 0x0 },
  { off := 0x48, n := 1, reset := 0x0, rw := 0x0, w1c := 0x0, wb := 0x0, wo := 0x0, rv := 0x0 } ]

/-- The block-specific registers of the page: R463. -/
def rows_fc : List RegRow := [
  { off := 0x40, n := 1, reset := 0x0, rw := 0x0, w1c := 0x0, wb := 0x0, wo := 0x0, rv := 0x0 },
  { off := 0x44, n := 1, reset := 0x0, rw := 0x0, w1c := 0x0, wb := 0x0, wo := 0x0, rv := 0x0 },
  { off := 0x48, n := 1, reset := 0x0, rw := 0x0, w1c := 0x0, wb := 0x0, wo := 0x0, rv := 0x0 },
  { off := 0x4c, n := 1, reset := 0x0, rw := 0x0, w1c := 0x0, wb := 0x0, wo := 0x0, rv := 0x0 },
  { off := 0x50, n := 1, reset := 0x0, rw := 0x0, w1c := 0x0, wb := 0x0, wo := 0x0, rv := 0x0 },
  { off := 0x54, n := 1, reset := 0x0, rw := 0x0, w1c := 0x0, wb := 0x0, wo := 0x0, rv := 0x0 },
  { off := 0x58, n := 1, reset := 0x0, rw := 0x0, w1c := 0x0, wb := 0x1, wo := 0x0, rv := 0x0 },
  { off := 0x5c, n := 1, reset := 0x0, rw := 0x1, w1c := 0x0, wb := 0x0, wo := 0x0, rv := 0x0 },
  { off := 0x60, n := 1, reset := 0x0, rw := 0x1fffff, w1c := 0x0, wb := 0x0, wo := 0x0, rv := 0x0 },
  { off := 0x64, n := 1, reset := 0x0, rw := 0x0, w1c := 0x0, wb := 0x0, wo := 0x0, rv := 0x3777 } ]

/-- The block-specific registers of the page: R465. -/
def rows_ob : List RegRow := [
  { off := 0x40, n := 1, reset := 0x0, rw := 0x0, w1c := 0x0, wb := 0x0, wo := 0x0, rv := 0x0 },
  { off := 0x44, n := 1, reset := 0x0, rw := 0x0, w1c := 0x0, wb := 0x0, wo := 0x0, rv := 0x0 },
  { off := 0x48, n := 1, reset := 0x0, rw := 0x0, w1c := 0x0, wb := 0x0, wo := 0x0, rv := 0x0 },
  { off := 0x4c, n := 1, reset := 0x0, rw := 0x0, w1c := 0x0, wb := 0x0, wo := 0x0, rv := 0x0 },
  { off := 0x50, n := 1, reset := 0x0, rw := 0xffffffff, w1c := 0x0, wb := 0x0, wo := 0x0, rv := 0x0 },
  { off := 0x54, n := 1, reset := 0x0, rw := 0x0, w1c := 0x0, wb := 0x0, wo := 0x0, rv := 0x0 },
  { off := 0x80, n := 8, reset := 0x0, rw := 0x0, w1c := 0x0, wb := 0x0, wo := 0x0, rv := 0x0 } ]

/-- The block-specific registers of the page: R566. -/
def rows_tally : List RegRow := [
  { off := 0x40, n := 1, reset := 0x0, rw := 0x0, w1c := 0x0, wb := 0x0, wo := 0x0, rv := 0x0 },
  { off := 0x44, n := 1, reset := 0x0, rw := 0x3fff, w1c := 0x0, wb := 0x0, wo := 0x0, rv := 0x0 },
  { off := 0x48, n := 1, reset := 0x0, rw := 0x0, w1c := 0x0, wb := 0xf, wo := 0x0, rv := 0x0 },
  { off := 0x4c, n := 1, reset := 0x0, rw := 0x0, w1c := 0x0, wb := 0x0, wo := 0x0, rv := 0x0 },
  { off := 0x100, n := 64, reset := 0x0, rw := 0x0, w1c := 0x0, wb := 0x0, wo := 0x0, rv := 0x0 } ]

/-- The block-specific registers of the page: R239. -/
def rows_stc : List RegRow := [
  { off := 0x40, n := 1, reset := 0x0, rw := 0x0, w1c := 0x0, wb := 0x0, wo := 0x0, rv := 0x0 },
  { off := 0x44, n := 1, reset := 0x0, rw := 0x0, w1c := 0x0, wb := 0x0, wo := 0x0, rv := 0x0 },
  { off := 0x48, n := 1, reset := 0x0, rw := 0x0, w1c := 0x0, wb := 0x0, wo := 0x0, rv := 0xf },
  { off := 0x4c, n := 1, reset := 0x0, rw := 0x0, w1c := 0x0, wb := 0x0, wo := 0x0, rv := 0x0 },
  { off := 0x50, n := 1, reset := 0x0, rw := 0x0, w1c := 0x0, wb := 0x0, wo := 0x0, rv := 0x0 },
  { off := 0x54, n := 1, reset := 0x0, rw := 0x0, w1c := 0x0, wb := 0x0, wo := 0x0, rv := 0x0 },
  { off := 0x58, n := 1, reset := 0x0, rw := 0x0, w1c := 0x0, wb := 0x0, wo := 0x0, rv := 0x0 } ]

/-- The block-specific registers of the page: R385. -/
def rows_ks : List RegRow := [
  { off := 0x40, n := 1, reset := 0x0, rw := 0x0, w1c := 0x0, wb := 0x0, wo := 0x0, rv := 0x7f007f },
  { off := 0x44, n := 1, reset := 0x0, rw := 0xf, w1c := 0x0, wb := 0x0, wo := 0x0, rv := 0x0 },
  { off := 0x48, n := 1, reset := 0x0, rw := 0x0, w1c := 0x0, wb := 0x0, wo := 0x0, rv := 0xfff },
  { off := 0x4c, n := 1, reset := 0x0, rw := 0x0, w1c := 0x0, wb := 0x1ffff, wo := 0x0, rv := 0x0 },
  { off := 0x50, n := 1, reset := 0x0, rw := 0x0, w1c := 0x0, wb := 0x0, wo := 0x0, rv := 0xffffffff },
  { off := 0x100, n := 256, reset := 0x0, rw := 0x0, w1c := 0x0, wb := 0x0, wo := 0x0, rv := 0xffffffff },
  { off := 0x500, n := 256, reset := 0x0, rw := 0xffffffff, w1c := 0x0, wb := 0x0, wo := 0x0, rv := 0x0 } ]

/-- The block-specific registers of the page: R105. -/
def rows_hp : List RegRow := [
  { off := 0x40, n := 1, reset := 0x0, rw := 0x0, w1c := 0x0, wb := 0x0, wo := 0x0, rv := 0x0 },
  { off := 0x44, n := 1, reset := 0x0, rw := 0x0, w1c := 0x0, wb := 0x0, wo := 0x0, rv := 0x0 },
  { off := 0x48, n := 1, reset := 0x0, rw := 0x0, w1c := 0x0, wb := 0x0, wo := 0x0, rv := 0x0 },
  { off := 0x4c, n := 1, reset := 0x0, rw := 0x0, w1c := 0x0, wb := 0x0, wo := 0x0, rv := 0x0 } ]

/-- The block-specific registers of the page: R508. -/
def rows_sv : List RegRow := [
  { off := 0x40, n := 1, reset := 0x1, rw := 0x0, w1c := 0x0, wb := 0x0, wo := 0x0, rv := 0x1ff },
  { off := 0x44, n := 1, reset := 0x0, rw := 0x0, w1c := 0x0, wb := 0x3ffffff, wo := 0x0, rv := 0x0 },
  { off := 0x48, n := 1, reset := 0x0, rw := 0x0, w1c := 0x0, wb := 0x0, wo := 0x0, rv := 0x1ff01ff },
  { off := 0x4c, n := 1, reset := 0x0, rw := 0x0, w1c := 0x0, wb := 0x11f, wo := 0x0, rv := 0x0 },
  { off := 0x50, n := 1, reset := 0x0, rw := 0x0, w1c := 0x0, wb := 0x0, wo := 0x0, rv := 0xffffffff },
  { off := 0x54, n := 1, reset := 0x0, rw := 0x0, w1c := 0x0, wb := 0x3, wo := 0x0, rv := 0x0 },
  { off := 0x58, n := 1, reset := 0x0, rw := 0x0, w1c := 0x0, wb := 0xffffff0f, wo := 0x0, rv := 0x0 },
  { off := 0x5c, n := 1, reset := 0x0, rw := 0x0, w1c := 0x0, wb := 0x0, wo := 0x0, rv := 0xff3f },
  { off := 0x60, n := 1, reset := 0x0, rw := 0x3ffffff, w1c := 0x0, wb := 0x0, wo := 0x0, rv := 0x0 },
  { off := 0x64, n := 1, reset := 0x0, rw := 0x0, w1c := 0x0, wb := 0x0, wo := 0xffffffff, rv := 0x0 },
  { off := 0x68, n := 1, reset := 0x0, rw := 0x0, w1c := 0x0, wb := 0x0, wo := 0x0, rv := 0xffffffff },
  { off := 0x6c, n := 1, reset := 0x0, rw := 0x0, w1c := 0x0, wb := 0x0, wo := 0x0, rv := 0x1ffff },
  { off := 0x70, n := 1, reset := 0x0, rw := 0x0, w1c := 0x0, wb := 0x0, wo := 0x0, rv := 0x0 } ]

/-- The block-specific registers of the page: R538. -/
def rows_cv : List RegRow := [
  { off := 0x40, n := 1, reset := 0x0, rw := 0x7ff, w1c := 0x0, wb := 0x0, wo := 0x0, rv := 0x0 },
  { off := 0x44, n := 1, reset := 0x0, rw := 0xffffffff, w1c := 0x0, wb := 0x0, wo := 0x0, rv := 0x0 },
  { off := 0x48, n := 1, reset := 0x0, rw := 0xffffffff, w1c := 0x0, wb := 0x0, wo := 0x0, rv := 0x0 },
  { off := 0x4c, n := 1, reset := 0x0, rw := 0xffffffff, w1c := 0x0, wb := 0x0, wo := 0x0, rv := 0x0 },
  { off := 0x50, n := 1, reset := 0x0, rw := 0xffffffff, w1c := 0x0, wb := 0x0, wo := 0x0, rv := 0x0 },
  { off := 0x54, n := 1, reset := 0x0, rw := 0xffffffff, w1c := 0x0, wb := 0x0, wo := 0x0, rv := 0x0 },
  { off := 0x58, n := 1, reset := 0x0, rw := 0xffffffff, w1c := 0x0, wb := 0x0, wo := 0x0, rv := 0x0 },
  { off := 0x5c, n := 1, reset := 0x0, rw := 0xffffffff, w1c := 0x0, wb := 0x0, wo := 0x0, rv := 0x0 },
  { off := 0x60, n := 1, reset := 0x0, rw := 0x0, w1c := 0x0, wb := 0x0, wo := 0x7, rv := 0x0 },
  { off := 0x64, n := 1, reset := 0x0, rw := 0x0, w1c := 0x0, wb := 0x0, wo := 0xff, rv := 0x0 },
  { off := 0x68, n := 1, reset := 0x0, rw := 0x0, w1c := 0x0, wb := 0x0, wo := 0xffff, rv := 0x0 },
  { off := 0x6c, n := 1, reset := 0x0, rw := 0x0, w1c := 0x0, wb := 0x0, wo := 0xffffffff, rv := 0x0 },
  { off := 0x70, n := 1, reset := 0x0, rw := 0xffffffff, w1c := 0x0, wb := 0x0, wo := 0x0, rv := 0x0 },
  { off := 0x74, n := 1, reset := 0x0, rw := 0xffffffff, w1c := 0x0, wb := 0x0, wo := 0x0, rv := 0x0 },
  { off := 0x78, n := 1, reset := 0x0, rw := 0x0, w1c := 0x0, wb := 0x0, wo := 0x0, rv := 0x0 },
  { off := 0x7c, n := 1, reset := 0x0, rw := 0x0, w1c := 0x0, wb := 0x0, wo := 0x0, rv := 0x0 },
  { off := 0x80, n := 1, reset := 0x0, rw := 0xffffffff, w1c := 0x0, wb := 0x0, wo := 0x0, rv := 0x0 },
  { off := 0x84, n := 1, reset := 0x0, rw := 0xffffffff, w1c := 0x0, wb := 0x0, wo := 0x0, rv := 0x0 },
  { off := 0x88, n := 1, reset := 0x0, rw := 0x0, w1c := 0x0, wb := 0x0, wo := 0x0, rv := 0x0 },
  { off := 0x8c, n := 1, reset := 0x0, rw := 0x0, w1c := 0x0, wb := 0x0, wo := 0x0, rv := 0x0 },
  { off := 0x90, n := 1, reset := 0x0, rw := 0x0, w1c := 0x0, wb := 0x0, wo := 0x0, rv := 0x0 },
  { off := 0xa0, n := 1, reset := 0x0, rw := 0x0, w1c := 0x0, wb := 0x0, wo := 0x0, rv := 0x0 },
  { off := 0xa4, n := 1, reset := 0x0, rw := 0x0, w1c := 0x0, wb := 0x0, wo := 0x0, rv := 0x0 },
  { off := 0xa8, n := 1, reset := 0x0, rw := 0x0, w1c := 0x0, wb := 0x0, wo := 0x0, rv := 0x0 } ]

/-- The block-specific registers of the page: R62. -/
def rows_vote : List RegRow := [
  { off := 0x40, n := 1, reset := 0x2000, rw := 0x0, w1c := 0x0, wb := 0x0, wo := 0x0, rv := 0x0 },
  { off := 0x44, n := 1, reset := 0x148, rw := 0x0, w1c := 0x0, wb := 0x1ff, wo := 0x0, rv := 0x0 },
  { off := 0x48, n := 1, reset := 0x0, rw := 0x0, w1c := 0x0, wb := 0x0, wo := 0x0, rv := 0xffffffff },
  { off := 0x4c, n := 1, reset := 0x0, rw := 0x0, w1c := 0x0, wb := 0x0, wo := 0x0, rv := 0x0 },
  { off := 0x50, n := 1, reset := 0x0, rw := 0x0, w1c := 0x0, wb := 0x0, wo := 0x0, rv := 0x0 },
  { off := 0x54, n := 1, reset := 0x0, rw := 0x0, w1c := 0x0, wb := 0x0, wo := 0x0, rv := 0x0 },
  { off := 0x58, n := 1, reset := 0x0, rw := 0x0, w1c := 0x0, wb := 0x0, wo := 0x0, rv := 0x0 },
  { off := 0x5c, n := 1, reset := 0x0, rw := 0x0, w1c := 0x0, wb := 0x0, wo := 0x0, rv := 0x0 } ]

/-- The block-specific registers of the page: R153. -/
def rows_cyc : List RegRow := [
  { off := 0x40, n := 1, reset := 0x1404, rw := 0x0, w1c := 0x0, wb := 0x0, wo := 0x0, rv := 0x7f7f },
  { off := 0x44, n := 1, reset := 0x12c00c8, rw := 0x0, w1c := 0x0, wb := 0x0, wo := 0x0, rv := 0xffffffff },
  { off := 0x48, n := 1, reset := 0x0, rw := 0x0, w1c := 0x0, wb := 0x0, wo := 0x0, rv := 0xffffffff },
  { off := 0x4c, n := 1, reset := 0x0, rw := 0x0, w1c := 0x0, wb := 0x0, wo := 0x0, rv := 0xffffffff },
  { off := 0x50, n := 1, reset := 0x0, rw := 0x0, w1c := 0x0, wb := 0x0, wo := 0x0, rv := 0x0 },
  { off := 0x54, n := 1, reset := 0x0, rw := 0x0, w1c := 0x0, wb := 0x0, wo := 0x0, rv := 0x0 },
  { off := 0x58, n := 1, reset := 0x0, rw := 0x0, w1c := 0x0, wb := 0x0, wo := 0x0, rv := 0xffffff },
  { off := 0x5c, n := 1, reset := 0x0, rw := 0x0, w1c := 0x0, wb := 0x0, wo := 0x0, rv := 0x0 },
  { off := 0x60, n := 1, reset := 0x0, rw := 0x0, w1c := 0x0, wb := 0x0, wo := 0x0, rv := 0x0 },
  { off := 0x64, n := 1, reset := 0x0, rw := 0x0, w1c := 0x0, wb := 0x0, wo := 0x0, rv := 0x0 },
  { off := 0x68, n := 1, reset := 0x0, rw := 0x0, w1c := 0x0, wb := 0x0, wo := 0x0, rv := 0x0 } ]

/-- The block-specific registers of the page: R66. -/
def rows_lx : List RegRow := [
  { off := 0x40, n := 1, reset := 0x0, rw := 0x0, w1c := 0x0, wb := 0x0, wo := 0x0, rv := 0x0 },
  { off := 0x44, n := 1, reset := 0x0, rw := 0x0, w1c := 0x0, wb := 0x0, wo := 0x0, rv := 0x0 },
  { off := 0x48, n := 1, reset := 0x0, rw := 0x0, w1c := 0x0, wb := 0x0, wo := 0x0, rv := 0x0 },
  { off := 0x4c, n := 1, reset := 0x0, rw := 0x0, w1c := 0x0, wb := 0x0, wo := 0x0, rv := 0x0 },
  { off := 0x50, n := 1, reset := 0x0, rw := 0x0, w1c := 0x0, wb := 0x0, wo := 0x0, rv := 0x0 } ]

/-- The block-specific registers of the page: R416. -/
def rows_xo : List RegRow := [
  { off := 0x40, n := 1, reset := 0x0, rw := 0x0, w1c := 0x0, wb := 0x0, wo := 0x0, rv := 0xfffff7 },
  { off := 0x44, n := 1, reset := 0x0, rw := 0x0, w1c := 0x0, wb := 0x0, wo := 0x0, rv := 0x0 },
  { off := 0x48, n := 1, reset := 0x0, rw := 0x0, w1c := 0x0, wb := 0x1, wo := 0x0, rv := 0x0 },
  { off := 0x4c, n := 1, reset := 0x0, rw := 0x0, w1c := 0x0, wb := 0x0, wo := 0x0, rv := 0xffffffff },
  { off := 0x50, n := 1, reset := 0x0, rw := 0x0, w1c := 0x0, wb := 0x0, wo := 0x0, rv := 0x0 },
  { off := 0x54, n := 1, reset := 0x0, rw := 0x0, w1c := 0x0, wb := 0x0, wo := 0x0, rv := 0x0 },
  { off := 0x58, n := 1, reset := 0x0, rw := 0x0, w1c := 0x0, wb := 0x0, wo := 0x0, rv := 0xffff0fff },
  { off := 0x5c, n := 1, reset := 0x0, rw := 0x0, w1c := 0x0, wb := 0x0, wo := 0x0, rv := 0xffffffff },
  { off := 0x60, n := 1, reset := 0x0, rw := 0x0, w1c := 0x0, wb := 0x0, wo := 0x0, rv := 0x7ff01ff } ]

/-- The block-specific registers of the page: R115. -/
def rows_acc : List RegRow := [
  { off := 0x40, n := 1, reset := 0x0, rw := 0x0, w1c := 0x0, wb := 0x0, wo := 0x0, rv := 0x0 },
  { off := 0x44, n := 1, reset := 0x0, rw := 0x0, w1c := 0x0, wb := 0x0, wo := 0x0, rv := 0x0 },
  { off := 0x48, n := 1, reset := 0x0, rw := 0x0, w1c := 0x0, wb := 0x0, wo := 0x0, rv := 0x0 },
  { off := 0x4c, n := 1, reset := 0x0, rw := 0x0, w1c := 0x0, wb := 0x0, wo := 0x0, rv := 0x0 },
  { off := 0x50, n := 1, reset := 0x0, rw := 0x0, w1c := 0x0, wb := 0x0, wo := 0x0, rv := 0x0 },
  { off := 0x80, n := 16, reset := 0x0, rw := 0x0, w1c := 0x0, wb := 0x0, wo := 0x0, rv := 0x0 } ]

/-- The block-specific registers of the page: R597. -/
def rows_pm : List RegRow := [
  { off := 0x40, n := 1, reset := 0x0, rw := 0x0, w1c := 0x0, wb := 0x0, wo := 0x0, rv := 0x0 },
  { off := 0x44, n := 1, reset := 0x0, rw := 0x0, w1c := 0x0, wb := 0x0, wo := 0x0, rv := 0x0 },
  { off := 0x48, n := 1, reset := 0x0, rw := 0x0, w1c := 0x0, wb := 0x0, wo := 0x0, rv := 0x0 } ]

/-- The block-specific registers of the page: R419. -/
def rows_xp : List RegRow := [
  { off := 0x40, n := 1, reset := 0x0, rw := 0x0, w1c := 0x0, wb := 0x0, wo := 0x0, rv := 0x0 },
  { off := 0x44, n := 1, reset := 0x0, rw := 0x0, w1c := 0x0, wb := 0x0, wo := 0x0, rv := 0x0 } ]

/-- The block-specific registers of the page: R598. -/
def rows_led : List RegRow := [
  { off := 0x40, n := 1, reset := 0x0, rw := 0x0, w1c := 0x0, wb := 0x0, wo := 0x0, rv := 0x0 },
  { off := 0x44, n := 1, reset := 0x0, rw := 0x1, w1c := 0x0, wb := 0x0, wo := 0x0, rv := 0x0 },
  { off := 0x48, n := 1, reset := 0x0, rw := 0x0, w1c := 0x0, wb := 0x0, wo := 0x0, rv := 0x0 } ]

/-- The block-specific registers of the page: R599. -/
def rows_ka : List RegRow := [
  { off := 0x40, n := 1, reset := 0x0, rw := 0x0, w1c := 0x4, wb := 0x0, wo := 0x0, rv := 0x0 },
  { off := 0x44, n := 1, reset := 0x0, rw := 0x0, w1c := 0x0, wb := 0x0, wo := 0x0, rv := 0x0 },
  { off := 0x48, n := 1, reset := 0x0, rw := 0x0, w1c := 0x0, wb := 0x0, wo := 0x0, rv := 0x0 },
  { off := 0x4c, n := 1, reset := 0x0, rw := 0x0, w1c := 0x0, wb := 0x0, wo := 0x0, rv := 0x0 },
  { off := 0x50, n := 1, reset := 0x0, rw := 0x0, w1c := 0x0, wb := 0x0, wo := 0x0, rv := 0x0 } ]

/-- The registers of one cell area of a logic block (R194), at 0x400 + n × 0x40. -/
def rows_cell : List RegRow := [
  { off := 0x0, n := 1, reset := 0x2, rw := 0x0, w1c := 0x0, wb := 0x0, wo := 0x0, rv := 0x0 },
  { off := 0x4, n := 1, reset := 0x0, rw := 0x0, w1c := 0x0, wb := 0x0, wo := 0x0, rv := 0x0 },
  { off := 0x8, n := 1, reset := 0x0, rw := 0x0, w1c := 0x1f, wb := 0x0, wo := 0x0, rv := 0x0 },
  { off := 0xc, n := 1, reset := 0x0, rw := 0x0, w1c := 0x0, wb := 0x0, wo := 0x0, rv := 0x0 },
  { off := 0x10, n := 1, reset := 0x0, rw := 0x0, w1c := 0x0, wb := 0x0, wo := 0x0, rv := 0x7fff },
  { off := 0x14, n := 1, reset := 0x0, rw := 0x0, w1c := 0x0, wb := 0x0, wo := 0x0, rv := 0x0 },
  { off := 0x18, n := 1, reset := 0x0, rw := 0xff, w1c := 0x0, wb := 0x0, wo := 0x0, rv := 0x0 },
  { off := 0x1c, n := 1, reset := 0x0, rw := 0x0, w1c := 0x0, wb := 0x0, wo := 0x0, rv := 0x0 } ]

def Page.rows : Page → List RegRow
  | .lf => rows_lf
  | .image => rows_image
  | .bo => rows_bo
  | .tmr => rows_tmr
  | .cnt => rows_cnt
  | .fs => rows_fs
  | .bank => rows_bank
  | .plc => rows_plc
  | .plt => rows_plt
  | .tb => rows_tb
  | .net => rows_net
  | .cb => rows_cb
  | .rc => rows_rc
  | .fc => rows_fc
  | .ob => rows_ob
  | .tally => rows_tally
  | .stc => rows_stc
  | .ks => rows_ks
  | .hp => rows_hp
  | .sv => rows_sv
  | .cv => rows_cv
  | .vote => rows_vote
  | .cyc => rows_cyc
  | .lx => rows_lx
  | .xo => rows_xo
  | .acc => rows_acc
  | .pm => rows_pm
  | .xp => rows_xp
  | .led => rows_led
  | .ka => rows_ka

/-- The implemented bits of `BLK_ERR` by page; a check-value unit is refined by `cvDets`. -/
def Page.errMask : Page → Nat
  | .lf => 0x3ffff
  | .image => 0x7
  | .bo => 0x3
  | .tmr => 0x3
  | .cnt => 0x1
  | .fs => 0x3
  | .bank => 0x1ff
  | .plc => 0x3
  | .plt => 0x3f
  | .tb => 0xf
  | .net => 0x3
  | .cb => 0x1f
  | .rc => 0x7
  | .fc => 0x7
  | .ob => 0x0
  | .tally => 0x3
  | .stc => 0x7
  | .ks => 0x0
  | .hp => 0x3
  | .sv => 0x0
  | .cv => 0xff
  | .vote => 0x0
  | .cyc => 0x3
  | .lx => 0x3
  | .xo => 0x7f
  | .acc => 0x0
  | .pm => 0xf
  | .xp => 0x0
  | .led => 0x0
  | .ka => 0x3

/-- The implemented bits of `BLK_IRQ` by page. -/
def Page.irqMask : Page → Nat
  | .lf => 0x1
  | .image => 0x0
  | .bo => 0x3
  | .tmr => 0x0
  | .cnt => 0x0
  | .fs => 0x1
  | .bank => 0x1
  | .plc => 0x0
  | .plt => 0x3
  | .tb => 0x1
  | .net => 0x0
  | .cb => 0x1
  | .rc => 0x0
  | .fc => 0x7
  | .ob => 0x0
  | .tally => 0x0
  | .stc => 0x0
  | .ks => 0x0
  | .hp => 0x0
  | .sv => 0x0
  | .cv => 0x3
  | .vote => 0x0
  | .cyc => 0x0
  | .lx => 0x0
  | .xo => 0x1
  | .acc => 0x0
  | .pm => 0x0
  | .xp => 0x0
  | .led => 0x0
  | .ka => 0x0

/-! The registers by name. A page with several instances takes its instance first. -/

namespace Reg

abbrev BLK_ID (base : Nat) : Nat := base + 0x0
abbrev BLK_CAP (base : Nat) : Nat := base + 0x4
abbrev BLK_CTRL (base : Nat) : Nat := base + 0x8
abbrev BLK_STAT (base : Nat) : Nat := base + 0xc
abbrev BLK_ERR (base : Nat) : Nat := base + 0x10
abbrev BLK_ERR_EN (base : Nat) : Nat := base + 0x14
abbrev BLK_IRQ (base : Nat) : Nat := base + 0x18
abbrev BLK_IRQ_EN (base : Nat) : Nat := base + 0x1c
abbrev BLK_INJ (base : Nat) : Nat := base + 0x20
abbrev BLK_CLASS (base : Nat) : Nat := base + 0x24
abbrev BLK_WTOKEN (base : Nat) : Nat := base + 0x28
abbrev BLK_CNT (base : Nat) : Nat := base + 0x2c
abbrev LF_CFG (k : Nat) : Nat := 0x40 + 0x1000 * k
abbrev LF_HOLD (k : Nat) : Nat := 0x44 + 0x1000 * k
abbrev LF_ASSERT (k : Nat) : Nat := 0x48 + 0x1000 * k
abbrev LF_SHD_CTRL (k : Nat) : Nat := 0x4c + 0x1000 * k
abbrev LF_SHD_ADDR (k : Nat) : Nat := 0x50 + 0x1000 * k
abbrev LF_SHD_DATA (k : Nat) : Nat := 0x54 + 0x1000 * k
abbrev LF_SHD_CRC (k : Nat) : Nat := 0x58 + 0x1000 * k
abbrev LF_SHD_STAT (k : Nat) : Nat := 0x5c + 0x1000 * k
abbrev IMAGE_GEN : Nat := 0x1000040
abbrev IMAGE_GEN_HI : Nat := 0x1000044
abbrev IMAGE_RUNID : Nat := 0x1000048
abbrev IMAGE_PIN : Nat := 0x100004c
abbrev PIN_STORE : Nat := 0x1000050
abbrev IMAGE_CNT : Nat := 0x1000054
abbrev IMAGE_LINES : Nat := 0x1000058
abbrev BO_USE : Nat := 0x1001040
abbrev BO_CNT : Nat := 0x1001044
abbrev BO_LAST : Nat := 0x1001048
abbrev BO_CYCLE : Nat := 0x100104c
abbrev BO_EVENTS : Nat := 0x1001050
abbrev TMR_USE : Nat := 0x1002040
abbrev TMR_SEL : Nat := 0x1002044
abbrev TMR_CONF : Nat := 0x1002048
abbrev TMR_PRESET (i : Nat) : Nat := 0x100204c + 4 * i
abbrev TMR_EFF (i : Nat) : Nat := 0x100205c + 4 * i
abbrev TMR_EVENTS : Nat := 0x100206c
abbrev CNT_USE : Nat := 0x1003040
abbrev CNT_SEL : Nat := 0x1003044
abbrev CNT_LIMIT : Nat := 0x1003048
abbrev CNT_PRESET : Nat := 0x100304c
abbrev CNT_EVENTS : Nat := 0x1003050
abbrev FS_STAT : Nat := 0x2000040
abbrev FS_TEST : Nat := 0x2000044
abbrev FS_FIFO : Nat := 0x2000048
abbrev FS_EVENTS : Nat := 0x200004c
abbrev BANK_STAT (k : Nat) : Nat := 0x2010040 + 0x1000 * k
abbrev BANK_SUPPLY (k : Nat) : Nat := 0x2010044 + 0x1000 * k
abbrev BANK_CLEAR (k : Nat) : Nat := 0x2010048 + 0x1000 * k
abbrev CH_CFG (k i : Nat) : Nat := 0x2010080 + 0x1000 * k + 4 * i
abbrev CH_DIAG (k i : Nat) : Nat := 0x20100c0 + 0x1000 * k + 4 * i
abbrev CH_LIVE (k i : Nat) : Nat := 0x2010100 + 0x1000 * k + 4 * i
abbrev PLC_STAT (k : Nat) : Nat := 0x3000040 + 0x1000 * k
abbrev PLC_RX (k : Nat) : Nat := 0x3000044 + 0x1000 * k
abbrev PLC_ERR (k : Nat) : Nat := 0x3000048 + 0x1000 * k
abbrev PLC_EDGE (k : Nat) : Nat := 0x300004c + 0x1000 * k
abbrev PLC_DISC (k : Nat) : Nat := 0x3000050 + 0x1000 * k
abbrev PLC_MISC (k : Nat) : Nat := 0x3000054 + 0x1000 * k
abbrev PL_CFG : Nat := 0x3002040
abbrev PL_STATE : Nat := 0x3002044
abbrev PL_BCYCLE : Nat := 0x3002048
abbrev PL_BCYCLE_HI : Nat := 0x300204c
abbrev PL_MODE_REQ : Nat := 0x3002050
abbrev PL_TARGET : Nat := 0x3002054
abbrev PL_UNIT_SEL : Nat := 0x3002058
abbrev PL_UNIT_CFG : Nat := 0x300205c
abbrev PL_UNIT_STAT : Nat := 0x3002060
abbrev PL_UNIT_PD : Nat := 0x3002064
abbrev PL_UNIT_CNT : Nat := 0x3002068
abbrev PL_SUMMARY : Nat := 0x300206c
abbrev PL_COLD : Nat := 0x3002070
abbrev PL_LS : Nat := 0x3002074
abbrev TB_OPEN_LO : Nat := 0x3003040
abbrev TB_OPEN_HI : Nat := 0x3003044
abbrev TB_SEL : Nat := 0x3003048
abbrev TB_S_CFG : Nat := 0x300304c
abbrev TB_S_LIM : Nat := 0x3003050
abbrev TB_S_PEER : Nat := 0x3003054
abbrev TB_S_STATE : Nat := 0x3003058
abbrev TB_S_AGE : Nat := 0x300305c
abbrev TB_S_REJ : Nat := 0x3003060
abbrev TB_S_REJ2 : Nat := 0x3003064
abbrev TB_S_KEY : Nat := 0x3003068
abbrev TB_CTRL : Nat := 0x300306c
abbrev NET_STAT (k : Nat) : Nat := 0x3004040 + 0x1000 * k
abbrev NET_RX (k : Nat) : Nat := 0x3004044 + 0x1000 * k
abbrev NET_DROP (k : Nat) : Nat := 0x3004048 + 0x1000 * k
abbrev NET_TX (k : Nat) : Nat := 0x300404c + 0x1000 * k
abbrev PTP_STAT (k : Nat) : Nat := 0x3004050 + 0x1000 * k
abbrev PTP_OFFSET (k : Nat) : Nat := 0x3004054 + 0x1000 * k
abbrev PTP_CNT (k : Nat) : Nat := 0x3004058 + 0x1000 * k
abbrev CB_CFG (k : Nat) : Nat := 0x3008040 + 0x1000 * k
abbrev CB_STAT (k : Nat) : Nat := 0x3008044 + 0x1000 * k
abbrev CB_ERRCNT (k : Nat) : Nat := 0x3008048 + 0x1000 * k
abbrev CB_EVENTS (k : Nat) : Nat := 0x300804c + 0x1000 * k
abbrev CB_COLL (k : Nat) : Nat := 0x3008050 + 0x1000 * k
abbrev CB_TREF (k : Nat) : Nat := 0x3008054 + 0x1000 * k
abbrev CB_BSEL (k : Nat) : Nat := 0x3008058 + 0x1000 * k
abbrev CB_BCFG (k : Nat) : Nat := 0x300805c + 0x1000 * k
abbrev CB_BID (k : Nat) : Nat := 0x3008060 + 0x1000 * k
abbrev CB_BMASK (k : Nat) : Nat := 0x3008064 + 0x1000 * k
abbrev CB_BTMO (k : Nat) : Nat := 0x3008068 + 0x1000 * k
abbrev CB_BHDR (k : Nat) : Nat := 0x3008080 + 0x1000 * k
abbrev CB_BDATA (k i : Nat) : Nat := 0x3008084 + 0x1000 * k + 4 * i
abbrev RC_STAT (k : Nat) : Nat := 0xfff040 + 0x1000000 * k
abbrev RC_RESET (k : Nat) : Nat := 0xfff044 + 0x1000000 * k
abbrev RC_HS_CNT (k : Nat) : Nat := 0xfff048 + 0x1000000 * k
abbrev FC_STAT : Nat := 0x4000040
abbrev FC_CAUSE : Nat := 0x4000044
abbrev FC_LAST_SAFE : Nat := 0x4000048
abbrev FC_CNT : Nat := 0x400004c
abbrev FC_LIVE_AB : Nat := 0x4000050
abbrev FC_LIVE_C : Nat := 0x4000054
abbrev FC_CTRL : Nat := 0x4000058
abbrev FC_REJOIN : Nat := 0x400005c
abbrev FC_CSEL : Nat := 0x4000060
abbrev FC_CVIEW : Nat := 0x4000064
abbrev OB_STAT : Nat := 0x4001040
abbrev OB_HEAD : Nat := 0x4001044
abbrev OB_OLDEST : Nat := 0x4001048
abbrev OB_START : Nat := 0x400104c
abbrev OB_SEL : Nat := 0x4001050
abbrev OB_LOST : Nat := 0x4001054
abbrev OB_ENTRY (i : Nat) : Nat := 0x4001080 + 4 * i
abbrev TALLY_STAT : Nat := 0x4002040
abbrev TALLY_CUR : Nat := 0x4002044
abbrev TALLY_CLEAR : Nat := 0x4002048
abbrev TALLY_CNT : Nat := 0x400204c
abbrev TALLY_WIN (i : Nat) : Nat := 0x4002100 + 4 * i
abbrev STC_NOW_LO : Nat := 0x4003040
abbrev STC_NOW_HI : Nat := 0x4003044
abbrev STC_CFG : Nat := 0x4003048
abbrev STC_STAT : Nat := 0x400304c
abbrev STC_OFFSET : Nat := 0x4003050
abbrev STC_RATE : Nat := 0x4003054
abbrev STC_SRC : Nat := 0x4003058
abbrev KS_STAT : Nat := 0x4004040
abbrev KS_SEL : Nat := 0x4004044
abbrev KS_LEN : Nat := 0x4004048
abbrev KS_LOAD : Nat := 0x400404c
abbrev KS_STAGE_CRC : Nat := 0x4004050
abbrev KS_WIN (i : Nat) : Nat := 0x4004100 + 4 * i
abbrev KS_STAGE (i : Nat) : Nat := 0x4004500 + 4 * i
abbrev HP_STAT : Nat := 0x4005040
abbrev HP_CNT : Nat := 0x4005044
abbrev HP_LAST_ADDR : Nat := 0x4005048
abbrev HP_DISCARD : Nat := 0x400504c
abbrev SV_STATE : Nat := 0x4006040
abbrev SV_FORCE : Nat := 0x4006044
abbrev SV_FORCE_CNT : Nat := 0x4006048
abbrev SV_POSS : Nat := 0x400604c
abbrev SV_POSS_MAP : Nat := 0x4006050
abbrev SV_MODE_REQ : Nat := 0x4006054
abbrev SV_CHANGE : Nat := 0x4006058
abbrev SV_CHG_STAT : Nat := 0x400605c
abbrev SV_DLT_ADDR : Nat := 0x4006060
abbrev SV_DLT_DATA : Nat := 0x4006064
abbrev SV_DLT_CRC : Nat := 0x4006068
abbrev SV_REVERT : Nat := 0x400606c
abbrev SV_START : Nat := 0x4006070
abbrev CV_CFG (k : Nat) : Nat := 0x4020040 + 0x1000 * k
abbrev CV_POLY_LO (k : Nat) : Nat := 0x4020044 + 0x1000 * k
abbrev CV_POLY_HI (k : Nat) : Nat := 0x4020048 + 0x1000 * k
abbrev CV_INIT_LO (k : Nat) : Nat := 0x402004c + 0x1000 * k
abbrev CV_INIT_HI (k : Nat) : Nat := 0x4020050 + 0x1000 * k
abbrev CV_XOR_LO (k : Nat) : Nat := 0x4020054 + 0x1000 * k
abbrev CV_XOR_HI (k : Nat) : Nat := 0x4020058 + 0x1000 * k
abbrev CV_PREFIX (k : Nat) : Nat := 0x402005c + 0x1000 * k
abbrev CV_CMD (k : Nat) : Nat := 0x4020060 + 0x1000 * k
abbrev CV_DATA8 (k : Nat) : Nat := 0x4020064 + 0x1000 * k
abbrev CV_DATA16 (k : Nat) : Nat := 0x4020068 + 0x1000 * k
abbrev CV_DATA32 (k : Nat) : Nat := 0x402006c + 0x1000 * k
abbrev CV_EXP_LO (k : Nat) : Nat := 0x4020070 + 0x1000 * k
abbrev CV_EXP_HI (k : Nat) : Nat := 0x4020074 + 0x1000 * k
abbrev CV_RESULT_LO (k : Nat) : Nat := 0x4020078 + 0x1000 * k
abbrev CV_RESULT_HI (k : Nat) : Nat := 0x402007c + 0x1000 * k
abbrev CV_RUN_LO (k : Nat) : Nat := 0x4020080 + 0x1000 * k
abbrev CV_RUN_HI (k : Nat) : Nat := 0x4020084 + 0x1000 * k
abbrev CV_STAT (k : Nat) : Nat := 0x4020088 + 0x1000 * k
abbrev CV_BIND (k : Nat) : Nat := 0x402008c + 0x1000 * k
abbrev CV_CNT (k : Nat) : Nat := 0x4020090 + 0x1000 * k
abbrev MEM_CNT (k : Nat) : Nat := 0x40200a0 + 0x1000 * k
abbrev MEM_ADDR (k : Nat) : Nat := 0x40200a4 + 0x1000 * k
abbrev MEM_SCRUB (k : Nat) : Nat := 0x40200a8 + 0x1000 * k
abbrev VOTE_STATE : Nat := 0x5000040
abbrev VOTE_CFG : Nat := 0x5000044
abbrev DEG_ELAPSED : Nat := 0x5000048
abbrev MINORITY_CNT : Nat := 0x500004c
abbrev TX_ERR_CNT : Nat := 0x5000050
abbrev SYNC_SKEW : Nat := 0x5000054
abbrev LX_LINK : Nat := 0x5000058
abbrev REJOIN_CNT : Nat := 0x500005c
abbrev CYC_CFG : Nat := 0x5001040
abbrev CYC_TIMES : Nat := 0x5001044
abbrev CYC_NUM : Nat := 0x5001048
abbrev CYC_NUM_HI : Nat := 0x500104c
abbrev EVAL_LAST : Nat := 0x5001050
abbrev EVAL_MAX : Nat := 0x5001054
abbrev EVAL_WCET : Nat := 0x5001058
abbrev CYC_EVENTS : Nat := 0x500105c
abbrev ACK_HOLD : Nat := 0x5001060
abbrev ACK_LAT_MAX : Nat := 0x5001064
abbrev ACK_FLUSH : Nat := 0x5001068
abbrev LX_STAT : Nat := 0x5002040
abbrev LX_L1_ERR : Nat := 0x5002044
abbrev LX_L2_ERR : Nat := 0x5002048
abbrev LX_LOAD : Nat := 0x500204c
abbrev LX_RESYNC : Nat := 0x5002050
abbrev XO_CFG : Nat := 0x5003040
abbrev XO_STATE : Nat := 0x5003044
abbrev XO_CTRL : Nat := 0x5003048
abbrev XO_GEN : Nat := 0x500304c
abbrev XO_COPY : Nat := 0x5003050
abbrev XO_COPY_MAX : Nat := 0x5003054
abbrev XO_TIMERS : Nat := 0x5003058
abbrev XO_EVENTS : Nat := 0x500305c
abbrev XO_LATCH : Nat := 0x5003060
abbrev ACC_CFG : Nat := 0x40
abbrev ACC_STAT : Nat := 0x44
abbrev ACC_NOMAJ : Nat := 0x48
abbrev ACC_NOMAJ_ADDR : Nat := 0x4c
abbrev ACC_CRC_CNT : Nat := 0x50
abbrev ACC_WRRES (i : Nat) : Nat := 0x80 + 4 * i
abbrev PM_X1 : Nat := 0x1040
abbrev PM_TEMP : Nat := 0x1044
abbrev PM_DIPS : Nat := 0x1048
abbrev XP_STAT : Nat := 0x2040
abbrev XP_ERR : Nat := 0x2044
abbrev LED_STAT : Nat := 0x3040
abbrev LED_TEST : Nat := 0x3044
abbrev FI_STAT : Nat := 0x3048
abbrev KA_STAT : Nat := 0x4040
abbrev KA_VBAT : Nat := 0x4044
abbrev KA_CLK_LO : Nat := 0x4048
abbrev KA_CLK_HI : Nat := 0x404c
abbrev KA_TAMPER : Nat := 0x4050
abbrev CELL_STAT (b n : Nat) : Nat := 0x400 + 0x1000 * b + 0x40 * n
abbrev CELL_PC (b n : Nat) : Nat := 0x404 + 0x1000 * b + 0x40 * n
abbrev CELL_FAULT (b n : Nat) : Nat := 0x408 + 0x1000 * b + 0x40 * n
abbrev CELL_FPC (b n : Nat) : Nat := 0x40c + 0x1000 * b + 0x40 * n
abbrev CELL_LEN (b n : Nat) : Nat := 0x410 + 0x1000 * b + 0x40 * n
abbrev CELL_CLK (b n : Nat) : Nat := 0x414 + 0x1000 * b + 0x40 * n
abbrev CELL_LSEL (b n : Nat) : Nat := 0x418 + 0x1000 * b + 0x40 * n
abbrev CELL_LWORD (b n : Nat) : Nat := 0x41c + 0x1000 * b + 0x40 * n

end Reg

/-! The page bases. -/

namespace Base

abbrev lf (k : Nat) : Nat := 0x0 + 0x1000 * k
abbrev image : Nat := 0x1000000
abbrev bo : Nat := 0x1001000
abbrev tmr : Nat := 0x1002000
abbrev cnt : Nat := 0x1003000
abbrev fs : Nat := 0x2000000
abbrev bank (k : Nat) : Nat := 0x2010000 + 0x1000 * k
abbrev plc (k : Nat) : Nat := 0x3000000 + 0x1000 * k
abbrev plt : Nat := 0x3002000
abbrev tb : Nat := 0x3003000
abbrev net (k : Nat) : Nat := 0x3004000 + 0x1000 * k
abbrev cb (k : Nat) : Nat := 0x3008000 + 0x1000 * k
abbrev rc (k : Nat) : Nat := 0xfff000 + 0x1000000 * k
abbrev fc : Nat := 0x4000000
abbrev ob : Nat := 0x4001000
abbrev tally : Nat := 0x4002000
abbrev stc : Nat := 0x4003000
abbrev ks : Nat := 0x4004000
abbrev hp : Nat := 0x4005000
abbrev sv : Nat := 0x4006000
abbrev cv (k : Nat) : Nat := 0x4020000 + 0x1000 * k
abbrev vote : Nat := 0x5000000
abbrev cyc : Nat := 0x5001000
abbrev lx : Nat := 0x5002000
abbrev xo : Nat := 0x5003000
abbrev acc : Nat := 0x0
abbrev pm : Nat := 0x1000
abbrev xp : Nat := 0x2000
abbrev led : Nat := 0x3000
abbrev ka : Nat := 0x4000

end Base

/-! ### Where a page lies -/

/-- The page of a lane aperture at an offset, with its number among the pages of its kind (R113). -/
def pageOf (off : Nat) : Option (Page × Nat) :=
  let r := off / 0x1000000
  let b := off / 0x1000 % 0x1000
  if b = 0xFFF then (if r ≤ 5 then some (.rc, r) else none) else
  match r with
  | 0 => if b < 16 then some (.lf, b) else none
  | 1 => match b with
    | 0 => some (.image, 0) | 1 => some (.bo, 0) | 2 => some (.tmr, 0) | 3 => some (.cnt, 0) | _ => none
  | 2 => if b = 0 then some (.fs, 0) else if 16 ≤ b ∧ b < 32 then some (.bank, b - 16) else none
  | 3 => match b with
    | 0 => some (.plc, 0) | 1 => some (.plc, 1) | 2 => some (.plt, 0) | 3 => some (.tb, 0) | 4 => some (.net, 0)
    | 5 => some (.net, 1) | 8 => some (.cb, 0) | 9 => some (.cb, 1) | 10 => some (.cb, 2) | 11 => some (.cb, 3)
    | _ => none
  | 4 => match b with
    | 0 => some (.fc, 0) | 1 => some (.ob, 0) | 2 => some (.tally, 0) | 3 => some (.stc, 0) | 4 => some (.ks, 0)
    | 5 => some (.hp, 0) | 6 => some (.sv, 0)
    | _ => if 0x20 ≤ b ∧ b < 0x40 then some (.cv, b - 0x20) else none
  | 5 => match b with
    | 0 => some (.vote, 0) | 1 => some (.cyc, 0) | 2 => some (.lx, 0) | 3 => some (.xo, 0) | _ => none
  | _ => none

/-- The image window of a lane aperture (R113). -/
def inImageWindow (off : Nat) : Bool := decide (0x1100000 ≤ off ∧ off < 0x1300000)

/-- The page of the module aperture at an offset (R114). -/
def modPageOf (off : Nat) : Option Page :=
  match off / 0x1000 with
  | 0 => some .acc | 1 => some .pm | 2 => some .xp | 3 => some .led | 4 => some .ka | _ => none

/-- The offset of a block's page in a lane aperture (R67). -/
def Blk.base (k : Blk) : Nat := k.region.toNat * 0x1000000 + k.block.toNat * 0x1000

/-- The block of an offset in a lane aperture (R67). -/
def Blk.ofOff (off : Nat) : Blk := ⟨BitVec.ofNat 4 (off / 0x1000000), BitVec.ofNat 12 (off / 0x1000)⟩

/-! ### Detectors (R420, R426, R427) -/

/-- The implemented detectors of a page; on a check-value unit those that its bindings can raise (R514, R531). -/
def detMask (p : Page) (i : Nat) : Nat :=
  match p with
  | .cv => if i < 18 then (if i = 17 then 0x05 else 0x07) else if i < 24 then 0xFA else 0x01
  | p => p.errMask

/-- The default class of a detector (R66, R105, R152, R154, R193, R225, R236 to R239, R281, R282, R341, R383, R416,
R462, R463, R531, R539, R555, R566, R597, R599). -/
def defaultClass (p : Page) (i bit : Nat) : FClass :=
  match p with
  | .lf => if bit ≤ 16 then .laneRecover else .note
  | .image => if bit ≤ 1 then .laneRecover else .note
  | .cyc => .laneRecover
  | .tmr => if bit = 1 then .laneRecover else .note
  | .stc => if bit = 0 then .laneHalt else if bit = 1 then .laneRecover else .note
  | .fs => if bit = 1 then .laneRecover else .note
  | .rc => .laneRecover
  | .fc => if bit = 0 then .laneRecover else if bit = 1 then .laneHalt else .moduleSafe
  | .cv => if bit = 1 then .laneHalt else if bit = 3 then .corrected else if 4 ≤ bit ∧ bit ≤ 6 then .laneRecover
    else .note
  | .pm => if bit = 3 then .moduleSafe else .note
  | _ => let _ := i; .note

/-- The vital detectors, by the same rules: those that have a reaction above CORRECTED by default. -/
def isVital (p : Page) (i bit : Nat) : Bool :=
  match defaultClass p i bit with
  | .note => false
  | .corrected => false
  | _ => true

/-- The floor of a detector: its default class when it is vital, otherwise NOTE (R427). -/
def floorClass (p : Page) (i bit : Nat) : FClass := if isVital p i bit then defaultClass p i bit else .note

/-- Bit `n` of a mask. -/
def maskBit (m n : Nat) : Bool := m.testBit n

/-- How many of the bits 0 to 31 of a mask are set. -/
def maskCount (m : Nat) : Nat := ((List.range 32).filter (maskBit m)).length

/-- The vital detectors of a page as a mask. -/
def vitalMask (p : Page) (i : Nat) : Nat :=
  (List.range 32).foldl (fun m n => if maskBit (detMask p i) n && isVital p i n then m + 2 ^ n else m) 0

/-- `BLK_CAP.VITAL` (R192, R237, R239, R281, R462, R463, R538 name the pages; a page with a vital detector has it). -/
def capVital (p : Page) (i : Nat) : Bool :=
  match p with
  | .cv => i ≤ 16 || (decide (18 ≤ i) && decide (i ≤ 23))
  | p => decide (vitalMask p i ≠ 0)

/-- `BLK_CAP.NSUB` (R192, R282). -/
def capNsub : Page → Nat
  | .lf => 16
  | .bank => 16
  | _ => 0

/-- A page of a lane aperture holds a WB field: every such page holds `BLK_CTRL`; the module aperture holds none
(R77, R78, R579). -/
def Page.inModule : Page → Bool
  | .acc => true | .pm => true | .xp => true | .led => true | .ka => true
  | _ => false

/-- `BLK_CAP` (R79). -/
def capWord (p : Page) (i : Nat) : Nat :=
  (if p.inModule then 0 else if detMask p i = 0 then 1 else 3) + (if capVital p i then 4 else 0) + maskCount (detMask p i) * 0x100
    + capNsub p * 0x10000

/-! ### Registers of a page -/

/-- The common registers that are stored (R78), with their access: `BLK_CTRL`, `BLK_STAT`, `BLK_ERR`, `BLK_ERR_EN`,
`BLK_IRQ`, `BLK_IRQ_EN`, `BLK_INJ`, `BLK_CLASS`, `BLK_CNT`. -/
def commonRows (p : Page) (i : Nat) : List RegRow :=
  [ { off := 0x000, n := 1, reset := 0, rw := 0, w1c := 0, wb := 0, wo := 0, rv := 0 },
    { off := 0x004, n := 1, reset := capWord p i, rw := 0, w1c := 0, wb := 0, wo := 0, rv := 0 },
    { off := 0x008, n := 1, reset := 1, rw := 0, w1c := 0, wb := 7, wo := 0, rv := 0 },
    { off := 0x00C, n := 1, reset := 0, rw := 0, w1c := 0x300, wb := 0, wo := 0, rv := 0 },
    { off := 0x010, n := 1, reset := 0, rw := 0, w1c := detMask p i, wb := 0, wo := 0, rv := 0 },
    { off := 0x014, n := 1, reset := detMask p i, rw := 0, w1c := 0, wb := detMask p i, wo := 0, rv := 0 },
    { off := 0x018, n := 1, reset := 0, rw := 0, w1c := p.irqMask, wb := 0, wo := 0, rv := 0 },
    { off := 0x01C, n := 1, reset := 0, rw := p.irqMask, w1c := 0, wb := 0, wo := 0, rv := 0 },
    { off := 0x020, n := 1, reset := 0, rw := 0, w1c := 0, wb := 0x7FFFF1F, wo := 0, rv := 0 },
    { off := 0x024, n := 1, reset := 0, rw := 0, w1c := 0, wb := 0x71F, wo := 0, rv := 0 },
    { off := 0x028, n := 1, reset := 0, rw := 0, w1c := 0, wb := 0, wo := 0, rv := 0 },
    { off := 0x02C, n := 1, reset := 0, rw := 0, w1c := 0, wb := 0, wo := 0, rv := 0 } ]

/-- The row that covers an offset within a page, if a register stands there. -/
def findRow (rows : List RegRow) (o : Nat) : Option RegRow :=
  rows.find? fun r => decide (r.off ≤ o ∧ o < r.off + 4 * r.n)

/-- The row of an offset within a page: common registers, block-specific registers, cell areas (R78, R194). -/
def pageRow (p : Page) (i o : Nat) : Option RegRow :=
  if o < 0x40 then findRow (commonRows p i) o
  else if p = .lf ∧ 0x400 ≤ o ∧ o < 0x800 then findRow rows_cell (o % 0x40)
  else findRow p.rows o

/-- The row of a register of a lane aperture. -/
def rowOf (off : Nat) : Option RegRow :=
  match pageOf off with
  | some (p, i) => pageRow p i (off % 0x1000)
  | none => none

/-- The reset values that the spec gives per unit: check-value units (R539; for units 0 to 23 the parameters of
CRC-32C, DESIGN CHOICE, log 8) and their bindings (R514). -/
def cvReset (u o : Nat) : Option Nat :=
  match o with
  | 0x40 => some (if u < 24 then 0x1A0 else 0x20)
  | 0x44 => some (if u < 24 then 0x1EDC6F41 else 0)
  | 0x48 => some 0
  | 0x4C => some (if u < 24 then 0xFFFFFFFF else 0)
  | 0x50 => some 0
  | 0x54 => some (if u < 24 then 0xFFFFFFFF else 0)
  | 0x58 => some 0
  | 0x8C => some (if u < 16 then 0x111 + u * 0x10000 else if u = 16 then 0x122 else if u = 17 then 0x033
      else if u < 24 then 0x140 + (u - 18) * 0x10000 else 0x00F)
  | _ => none

/-- The reset value of a register of a lane aperture; 0 where no register stands (R8). -/
def resetOf (off : Nat) : Word :=
  match pageOf off with
  | some (.cv, u) => match cvReset u (off % 0x1000) with
    | some v => BitVec.ofNat 32 v
    | none => match pageRow .cv u (off % 0x1000) with
      | some r => BitVec.ofNat 32 r.reset
      | none => 0
  | some (p, i) => match pageRow p i (off % 0x1000) with
    | some r => BitVec.ofNat 32 r.reset
    | none => 0
  | none => 0

/-- The row and the reset value of a register of the module aperture. -/
def modRowOf (off : Nat) : Option RegRow :=
  match modPageOf off with
  | some p => pageRow p 0 (off % 0x1000)
  | none => none

def modResetOf (off : Nat) : Word :=
  match modRowOf off with
  | some r => BitVec.ofNat 32 r.reset
  | none => 0

/-! ### Fields of a word -/

/-- The field of `w` bits from bit `lo` of a word. -/
def fieldOf (v : Word) (lo w : Nat) : Nat := v.toNat / 2 ^ lo % 2 ^ w

/-- A word with that field replaced. -/
def setField (v : Word) (lo w x : Nat) : Word :=
  BitVec.ofNat 32 (v.toNat - fieldOf v lo w * 2 ^ lo + x % 2 ^ w * 2 ^ lo)

/-- Bits of `v` under the mask `m` replaced by those of `x`. -/
def maskWrite (v x : Word) (m : Nat) : Word := (v &&& ~~~(BitVec.ofNat 32 m)) ||| (x &&& BitVec.ofNat 32 m)

end Sys2Proof.Machine
end

