-- ==== Sys2Proof/Machine/Ops.lean ====
section
/-! DEFINITION. Machine/Ops.lean: the named operations over registers, lanes, memories and byte strings that every
meaning is written with; the Occurrence Book. -/

namespace Sys2Proof.Machine

/-! ### Registers of one lane (R67, R78); keys are offsets in the lane aperture -/

/-- The word a lane's register holds. -/
def LaneSt.reg (L : LaneSt) (off : Nat) : Word := SMap.get resetOf L.regs off

/-- A lane with one register word replaced. -/
def LaneSt.setReg (L : LaneSt) (off : Nat) (v : Word) : LaneSt := { L with regs := SMap.put resetOf L.regs off v }

/-- A field of a lane's register. -/
def LaneSt.fld (L : LaneSt) (off lo w : Nat) : Nat := fieldOf (L.reg off) lo w

def LaneSt.setFld (L : LaneSt) (off lo w x : Nat) : LaneSt := L.setReg off (setField (L.reg off) lo w x)

/-- A saturating counter field raised by `n`. -/
def LaneSt.addFld (L : LaneSt) (off lo w n : Nat) : LaneSt := L.setFld off lo w (satAdd w (L.fld off lo w) n)

/-- A field raised to at least `x`. -/
def LaneSt.maxFld (L : LaneSt) (off lo w x : Nat) : LaneSt := L.setFld off lo w (max (L.fld off lo w) x)

/-- Bits set in a register. -/
def LaneSt.setBits (L : LaneSt) (off m : Nat) : LaneSt := L.setReg off (L.reg off ||| BitVec.ofNat 32 m)

def LaneSt.clearBits (L : LaneSt) (off m : Nat) : LaneSt := L.setReg off (L.reg off &&& ~~~(BitVec.ofNat 32 m))

def LaneSt.bit (L : LaneSt) (off n : Nat) : Bool := (L.reg off).toNat.testBit n

/-- A register held per port and session (R235): `BLK_STAT.PORT` code × 2^28 + offset. -/
def portCode : Port → Nat
  | .host => 0x01
  | .maint n => 0x10 + n.toNat
  | .internal => 0x20

def LaneSt.sel (L : LaneSt) (p : Port) (off : Nat) : Word :=
  SMap.get (fun k => resetOf (k % 0x10000000)) L.sels (portCode p * 0x10000000 + off)

def LaneSt.setSel (L : LaneSt) (p : Port) (off : Nat) (v : Word) : LaneSt :=
  { L with sels := SMap.put (fun k => resetOf (k % 0x10000000)) L.sels (portCode p * 0x10000000 + off) v }

/-! ### Registers of the module aperture (R77, R114) -/

def State.mreg (s : State) (off : Nat) : Word := SMap.get modResetOf s.mregs off

def State.setMreg (s : State) (off : Nat) (v : Word) : State := { s with mregs := SMap.put modResetOf s.mregs off v }

def State.setMfld (s : State) (off lo w x : Nat) : State := s.setMreg off (setField (s.mreg off) lo w x)

def State.addMfld (s : State) (off lo w n : Nat) : State :=
  s.setMfld off lo w (satAdd w (fieldOf (s.mreg off) lo w) n)

/-! ### Lanes -/

/-- A change of one lane, of every lane, of the lanes of a set. -/
def State.upd (s : State) (l : Lane) (f : LaneSt → LaneSt) : State := { s with lane := s.lane.set l (f (s.lane.get l)) }

def State.updIn (s : State) (ls : LaneSet) (f : Lane → LaneSt → LaneSt) : State :=
  { s with lane := s.lane.map fun l L => if ls.get l then f l L else L }

def State.updAll (s : State) (f : Lane → LaneSt → LaneSt) : State := s.updIn (.all true) f

def State.setCtl (s : State) (l : Lane) (f : LaneCtl → LaneCtl) : State := { s with ctl := s.ctl.set l (f (s.ctl.get l)) }

/-- The state of a lane (R44). -/
def State.mode (s : State) (l : Lane) : LaneMode := (s.ctl.get l).mode

def State.isActive (s : State) (l : Lane) : Bool := s.mode l == .active

/-- The ACTIVE lanes. -/
def State.active (s : State) : LaneSet := LaneVec.ofFn s.isActive

/-- The lanes that evaluate in step: ACTIVE, and PROBATION, whose results are discarded (R50). -/
def State.inStep (s : State) : LaneSet :=
  LaneVec.ofFn fun l => s.mode l == .active || s.mode l == .probation

def State.activeCount (s : State) : Nat := s.active.count

/-- The lowest-lettered lane of a set. -/
def firstOf (ls : LaneSet) : Option Lane := Lane.list.find? ls.get

/-- The ACTIVE lane of lowest letter. -/
def State.lead (s : State) : Option Lane := firstOf s.active

/-- The states in which the lanes vote (`VOTE_STATE.MODE`, R63). -/
def MState.voting : MState → Bool
  | .sync => true | .restartLocked => true | .run => true | .duty => true | .standby => true
  | _ => false

/-- The states in which the module evaluates its logic and publishes (R398, R434, R476). -/
def MState.evaluates : MState → Bool
  | .restartLocked => true | .run => true | .duty => true
  | _ => false

/-- `VOTE_STATE.MODE` (R63): 0 two-out-of-three, 1 two-out-of-two, 2 not voting. -/
def State.voteMode (s : State) : Nat :=
  if !s.mstate.voting then 2 else if s.activeCount = 3 then 0 else 1

def State.twoOfTwo (s : State) : Bool := s.voteMode == 1

/-- The lanes that count for agreement of WB writes: the ACTIVE lanes, in SAFE those that were (R90, R434). -/
def State.counting (s : State) : LaneSet := if s.mstate = .safe then s.gateActive else s.active

/-- The lowest-lettered pair of active lanes, `VOTE_STATE.TX_PAIR` (R36): 0 AB, 1 AC, 2 BC, 3 none. -/
def State.activePair (s : State) : Nat :=
  match s.active.a, s.active.b, s.active.c with
  | true, true, _ => 0
  | true, false, true => 1
  | false, true, true => 2
  | _, _, _ => 3

/-- The pair that transmits: `activePair`, and none while the module does not vote. -/
def State.txPair (s : State) : Nat := if s.mstate.voting then s.activePair else 3

/-- The two lanes of a transmitting pair. -/
def pairLanes : Nat → Option (Lane × Lane)
  | 0 => some (.A, .B)
  | 1 => some (.A, .C)
  | 2 => some (.B, .C)
  | _ => none

/-- Two of the lanes of `ls` agree on a value: that value (R30, R70). -/
def majority {α : Type} [DecidableEq α] (ls : LaneSet) (v : LaneVec α) : Option α :=
  if ls.a && ls.b && decide (v.a = v.b) then some v.a
  else if ls.a && ls.c && decide (v.a = v.c) then some v.a
  else if ls.b && ls.c && decide (v.b = v.c) then some v.b
  else none

/-- The lane of `ls` whose value differs from that of both others, which agree. -/
def minorityOf {α : Type} [DecidableEq α] (ls : LaneSet) (v : LaneVec α) : Option Lane :=
  if ls.a && ls.b && ls.c then
    if v.a = v.b then (if v.c = v.a then none else some .C)
    else if v.a = v.c then some .B
    else if v.b = v.c then some .A
    else none
  else none

/-- Every lane of `ls` holds the same value. -/
def allAgree {α : Type} [DecidableEq α] (ls : LaneSet) (v : LaneVec α) : Bool :=
  (!(ls.a && ls.b) || decide (v.a = v.b)) && (!(ls.a && ls.c) || decide (v.a = v.c))
    && (!(ls.b && ls.c) || decide (v.b = v.c))

/-- The median of three numbers. -/
def median (a b c : Nat) : Nat := max (min a b) (min (max a b) c)

/-! ### Byte strings -/

def byteOf (n : Nat) : Byte := BitVec.ofNat 8 n

/-- `w` bytes of `n`, most significant first (R98, R291, R344). -/
def toBe : Nat → Nat → Bytes
  | 0, _ => []
  | w + 1, n => byteOf (n / 256 ^ w) :: toBe w n

/-- `w` bytes of `n`, least significant first (R197). -/
def toLe : Nat → Nat → Bytes
  | 0, _ => []
  | w + 1, n => byteOf n :: toLe w (n / 256)

def ofBe (bs : Bytes) : Nat := bs.foldl (fun n b => n * 256 + b.toNat) 0

def ofLe : Bytes → Nat
  | [] => 0
  | b :: bs => b.toNat + 256 * ofLe bs

/-- `n` bytes from position `i`, as a big-endian number. -/
def beAt (bs : Bytes) (i n : Nat) : Nat := ofBe ((bs.drop i).take n)

def byteAt (bs : Bytes) (i : Nat) : Nat := (bs.getD i 0).toNat

/-- `n` bytes from `i`, padded with zeros at the end. -/
def slice (bs : Bytes) (i n : Nat) : Bytes :=
  let t := (bs.drop i).take n
  t ++ List.replicate (n - t.length) 0

/-! ### Check values -/

/-- One bit of a CRC register of width `w`, most significant bit first. -/
def crcBit (w poly : Nat) (r : Nat) (b : Bool) : Nat :=
  let top := r.testBit (w - 1)
  let r2 := r * 2 % 2 ^ w
  if top != b then r2 ^^^ poly else r2

/-- One byte, most significant bit first, or least significant first when the input is reflected (R513). -/
def crcByte (w poly : Nat) (refIn : Bool) (r : Nat) (x : Byte) : Nat :=
  let bits := if refIn then [0, 1, 2, 3, 4, 5, 6, 7] else [7, 6, 5, 4, 3, 2, 1, 0]
  bits.foldl (fun r i => crcBit w poly r (x.toNat.testBit i)) r

/-- The running value over a byte string (R513). -/
def crcRun (w poly : Nat) (refIn : Bool) (r : Nat) (bs : Bytes) : Nat := bs.foldl (crcByte w poly refIn) r

/-- The low `w` bits of a number, reversed. -/
def reflect : Nat → Nat → Nat
  | 0, _ => 0
  | w + 1, n => (if n.testBit 0 then 2 ^ w else 0) + reflect w (n / 2)

/-- The output of a running value: output reflection and final exclusive-OR (R513). -/
def crcOut (w : Nat) (refOut : Bool) (xor r : Nat) : Nat := (if refOut then reflect w r else r) ^^^ xor

/-- CRC-16/CCITT (R99). -/
def crc16 (bs : Bytes) : Nat := crcRun 16 0x1021 false 0xFFFF bs

/-- CRC-32 of IEEE 802.3 (R292). -/
def crc32 (bs : Bytes) : Nat := crcOut 32 true 0xFFFFFFFF (crcRun 32 0x04C11DB7 true 0xFFFFFFFF bs)

/-- CRC-32C with a seed in place of the initial value (R350). -/
def crc32cSeed (seed : Nat) (bs : Bytes) : Nat := crcOut 32 true 0xFFFFFFFF (crcRun 32 0x1EDC6F41 true seed bs)

/-- CRC-32C (R470, R513). -/
def crc32c (bs : Bytes) : Nat := crc32cSeed 0xFFFFFFFF bs

/-! ### Byte memories: an unlisted byte reads 0 (log 4) -/

def zeroByte : Nat → Byte := fun _ => 0

def memGet (m : List Host.Cell) (a : Nat) : Byte := SMap.get zeroByte m a

def memPut (m : List Host.Cell) (a : Nat) (x : Byte) : List Host.Cell := SMap.put zeroByte m a x

/-- `n` bytes from `a`. -/
def memBytes (m : List Host.Cell) (a n : Nat) : Bytes := (List.range n).map fun i => memGet m (a + i)

/-- A little-endian number of `n` bytes at `a`. -/
def memLe (m : List Host.Cell) (a n : Nat) : Nat := ofLe (memBytes m a n)

/-- Bytes stored from `a` on. -/
def memPuts : List Host.Cell → Nat → Bytes → List Host.Cell
  | m, _, [] => m
  | m, a, x :: xs => memPuts (memPut m a x) (a + 1) xs

/-- A number put into a rising list of numbers. -/
def insertNat (n : Nat) : List Nat → List Nat
  | [] => [n]
  | m :: ms => if n < m then n :: m :: ms else if n = m then m :: ms else m :: insertNat n ms

/-! ### The working buffer of a lane (R131): every write marks its line of 32 bytes -/

def LaneSt.imgByte (L : LaneSt) (a : Nat) : Nat := (memGet L.image.working a).toNat

def LaneSt.imgLe (L : LaneSt) (a n : Nat) : Nat := memLe L.image.working a n

def LaneSt.imgPut (L : LaneSt) (a : Nat) (bs : Bytes) : LaneSt :=
  { L with image := { L.image with
      working := memPuts L.image.working a bs
      dirty := (List.range bs.length).foldl (fun d i => insertNat ((a + i) / 32) d) L.image.dirty } }

def LaneSt.imgPutLe (L : LaneSt) (a n x : Nat) : LaneSt := L.imgPut a (toLe n x)

/-! ### The Occurrence Book (R454 to R460) -/

/-- `PATH` (R455); cell 0x1F is none. -/
def obPath (l : Lane) (region block cell : Nat) : Word :=
  BitVec.ofNat 32 (l.code + region * 4 + block * 64 + cell * 262144)

/-- Kinds of `CODE` (R456). -/
def obCode (kind detail : Nat) : Half := BitVec.ofNat 16 (kind * 0x1000 + detail)

/-- The newest entry of a book. -/
def LaneSt.obNewest (L : LaneSt) : Option ObEntry :=
  match L.obKept.getLast?, L.obRing.getLast? with
  | some a, some b => if a.seq < b.seq then some b else some a
  | some a, none => some a
  | none, b => b

/-- The entry merged into the newest of a book. -/
def bumpRep (seq : Nat) (e : ObEntry) : ObEntry := if e.seq = seq then { e with rep := satAdd 16 e.rep 1 } else e

/-- An entry is written into a lane's book: merged into the newest entry when it equals it within 1 s, before or after, of its
`TIME` (R460), preserved
among the first 256 of the start-up, otherwise put into the ring, whose oldest entry gives way (R454). -/
def LaneSt.record (L : LaneSt) (path : Word) (code : Half) (cls flags cycle : Nat) (data : BitVec 48) : LaneSt :=
  let keep : Bool := decide (L.obCount < 256)
  let fl := flags + (if keep then 16 else 0)
  match L.obNewest.filter fun e =>
      decide (e.path = path ∧ e.code = code ∧ e.cls = cls ∧ e.flags = fl ∧ e.time ≤ L.clock + 1000000000 ∧ L.clock ≤ e.time + 1000000000) with
  | some e => { L with obKept := L.obKept.map (bumpRep e.seq), obRing := L.obRing.map (bumpRep e.seq) }
  | none =>
    let e : ObEntry := { time := L.clock, seq := L.obNext, path, code, cls, flags := fl, cycle := cycle % 2 ^ 32, data, rep := 0 }
    let full : Bool := decide (4096 ≤ L.obKept.length + L.obRing.length)
    let ring := if full then L.obRing.drop 1 else L.obRing
    { L with
      regs := if full then (L.addFld Reg.OB_LOST 0 32 1).regs else L.regs
      obNext := (L.obNext + 1) % 2 ^ 32
      obKept := if keep then L.obKept ++ [e] else L.obKept
      obRing := if keep then ring else ring ++ [e]
      obCount := if keep then L.obCount + 1 else L.obCount }

/-- Data bytes of an entry: the low bytes of a number. -/
def obData (n : Nat) : BitVec 48 := BitVec.ofNat 48 n

/-- An entry in the books of the lanes of a set, from a block of those lanes. -/
def State.recordIn (s : State) (ls : LaneSet) (k : Blk) (code : Half) (cls : FClass) (data : Nat) (flags : Nat := 0) : State :=
  s.updIn ls fun l L =>
    L.record (obPath l k.region.toNat k.block.toNat 0x1F) code cls.code flags s.cyc.num (obData data)

/-- An EVENT entry, class NOTE, from the page of offset `base`, in the lanes in step (R459). -/
def State.event (s : State) (base n data : Nat) : State :=
  s.recordIn s.inStep (Blk.ofOff base) (obCode 6 n) .note data

/-- An EVENT entry in one lane. -/
def State.eventIn (s : State) (l : Lane) (base n data : Nat) : State :=
  s.recordIn (LaneVec.ofFn fun x => x == l) (Blk.ofOff base) (obCode 6 n) .note data

/-! ### Free values (log 10) -/

/-- A fresh free value, and the state that counts it. -/
def State.fresh (s : State) : Word × State := (Config.freeWord s.freeCtr, { s with freeCtr := s.freeCtr + 1 })

/-! ### Sparse maps of records, by number -/

/-- The record of a key: a listed one, or the default. -/
def getD {V : Type} (d : V) (m : List (Nat × V)) (k : Nat) : V := SMap.get (fun _ => d) m k

def putD {V : Type} [DecidableEq V] (d : V) (m : List (Nat × V)) (k : Nat) (v : V) : List (Nat × V) :=
  SMap.put (fun _ => d) m k v

def State.chan (s : State) (n : Nat) : ChanSt := getD {} s.fld.chan n

def State.setChan (s : State) (n : Nat) (f : ChanSt → ChanSt) : State :=
  { s with fld := { s.fld with chan := putD {} s.fld.chan n (f (s.chan n)) } }

def State.bank (s : State) (b : Nat) : BankSt := getD {} s.fld.bank b

def State.setBank (s : State) (b : Nat) (f : BankSt → BankSt) : State :=
  { s with fld := { s.fld with bank := putD {} s.fld.bank b (f (s.bank b)) } }

def State.unitAdm (s : State) (u : Nat) : UnitAdm := getD {} s.adm u

def State.setUnit (s : State) (u : Nat) (f : UnitAdm → UnitAdm) : State :=
  { s with adm := putD {} s.adm u (f (s.unitAdm u)) }

def State.maintSt (s : State) (n : Nat) : MaintSt := getD {} s.maint n

def State.setMaint (s : State) (n : Nat) (f : MaintSt → MaintSt) : State :=
  { s with maint := putD {} s.maint n (f (s.maintSt n)) }

def State.canPt (s : State) (p : Nat) : CanPort := getD {} s.canPort p

def State.setCanPt (s : State) (p : Nat) (f : CanPort → CanPort) : State :=
  { s with canPort := putD {} s.canPort p (f (s.canPt p)) }

def LaneSt.session (L : LaneSt) (n : Nat) : SessSt := getD {} L.sess n

def LaneSt.setSession (L : LaneSt) (n : Nat) (f : SessSt → SessSt) : LaneSt :=
  { L with sess := putD {} L.sess n (f (L.session n)) }

def LaneSt.unitRx (L : LaneSt) (u : Nat) : UnitRx := getD {} L.units u

def LaneSt.setUnitRx (L : LaneSt) (u : Nat) (f : UnitRx → UnitRx) : LaneSt :=
  { L with units := putD {} L.units u (f (L.unitRx u)) }

def LaneSt.canBuf (L : LaneSt) (k : Nat) : CanBuf := getD {} L.can k

def LaneSt.setCanBuf (L : LaneSt) (k : Nat) (f : CanBuf → CanBuf) : LaneSt :=
  { L with can := putD {} L.can k (f (L.canBuf k)) }

def LaneSt.cvUnit (L : LaneSt) (u : Nat) : CvUnit := getD {} L.cv u

def LaneSt.setCvUnit (L : LaneSt) (u : Nat) (f : CvUnit → CvUnit) : LaneSt :=
  { L with cv := putD {} L.cv u (f (L.cvUnit u)) }

def LaneSt.cell (L : LaneSt) (c : Nat) : CellSt := getD {} L.logic.cells c

def LaneSt.setCell (L : LaneSt) (c : Nat) (f : CellSt → CellSt) : LaneSt :=
  { L with logic := { L.logic with cells := putD {} L.logic.cells c (f (L.cell c)) } }

def LaneSt.tallyRec (L : LaneSt) (r : Nat) : TallyRec := getD {} L.tally r

def LaneSt.setTally (L : LaneSt) (r : Nat) (f : TallyRec → TallyRec) : LaneSt :=
  { L with tally := putD {} L.tally r (f (L.tallyRec r)) }

/-- The agreed input source, and an OUT source of a lane. -/
def State.inpSrc (s : State) (k : Nat) : BitVec 512 := getD 0 s.inp k

def LaneSt.outSrc (L : LaneSt) (k : Nat) : BitVec 256 := getD 0 L.logic.out k

/-! ### What a publication shows of a lane (R73) -/

/-- The registers, the active bank and the key store that voted readers see from now on. -/
def LaneSt.noteShown (L : LaneSt) (tamper : Bool) : LaneSt :=
  { L with shown := L.regs, logic := { L.logic with shownBank := L.logic.bank }, keysShown := (L.keys, tamper) }

/-! ### The backup clock (R580, R599) -/

/-- The ns that the backup clock has run, by its own crystal: within ±100 ppm of the time, by a free rate (log 130). -/
def PowerSt.backupRun (p : PowerSt) : Nat :=
  let r := max (-1000) (min 1000 Config.backupRate)
  ((p.clkFor : Int) * (10000000 + r) / 10000000).toNat

/-- The reading of the backup clock, ns: a count at 32.768 kHz since it was set. -/
def PowerSt.backupClock (p : PowerSt) : Nat := (p.clkSet + p.backupRun * 32768 / 1000000000 * 1000000000 / 32768) % 2 ^ 64

end Sys2Proof.Machine
end

