-- ==== Sys2Proof/Machine/Reports.lean ====
section
/-! DEFINITION. Machine/Reports.lean: what a report does. Detectors and their classes, the entry into SAFE, the
exclusion of a lane, resets and their shadows, what entry to 2-out-of-2 operation ends, and the one operation through
which every detector reports. -/

namespace Sys2Proof.Machine

/-! ### Registers that the lanes hold alike -/

/-- The lane whose registers stand for what the lanes agree: the lowest-lettered ACTIVE lane, or lane A. -/
def State.leadLane (s : State) : Lane := s.lead.getD .A

def State.agreedReg (s : State) (off : Nat) : Word := (s.lane.get s.leadLane).reg off

def State.agreedFld (s : State) (off lo w : Nat) : Nat := (s.lane.get s.leadLane).fld off lo w

/-- The lanes that take part in what the lanes agree: ACTIVE and PROBATION while the module votes, every lane else. -/
def State.parts (s : State) : LaneSet := if s.mstate.voting then s.inStep else .all true

/-- A count raised in every lane in step. -/
def State.count (s : State) (off lo w n : Nat) : State := s.updIn s.parts fun _ L => L.addFld off lo w n

/-- Bits of an interrupt register set in every lane in step. -/
def State.irq (s : State) (base m : Nat) : State := s.updIn s.parts fun _ L => L.setBits (base + 0x18) m

/-- The lanes of a set together with one lane. -/
def withLane (ls : LaneSet) (l : Lane) : LaneSet := LaneVec.ofFn fun x => ls.get x || x == l

def oneLane (l : Lane) : LaneSet := LaneVec.ofFn fun x => x == l

/-- The lanes of two sets. -/
def orLanes (x y : LaneSet) : LaneSet := LaneVec.ofFn fun l => x.get l || y.get l

/-! ### LIVE and the vital drive (R448 to R451) -/

/-- The lanes that find the LIVE signal of a lane in the window. -/
def State.liveFound (s : State) (x : Lane) : Nat :=
  (s.lane.a.liveOk.get x).toNat + (s.lane.b.liveOk.get x).toNat + (s.lane.c.liveOk.get x).toNat

/-- The LIVE signals in the window: those with a permit that at least two lanes find there (DESIGN CHOICE, log 160). -/
def State.liveSignals (s : State) : LaneSet :=
  LaneVec.ofFn fun x => (s.ctl.get x).permit && decide (2 ≤ s.liveFound x)

/-- VITAL_DRV delivers energy only while its own components find at least two LIVE signals in the window and the gate is open
(R451). -/
def State.refreshDrive (s : State) : State :=
  let on := !s.gate && decide (2 ≤ s.drv.live.count)
  { s with drv := { s.drv with vdrv := on, offAt := if on then s.drv.offAt else s.driveOffAt } }

/-- The half-period of a LIVE signal as every lane last measured it. -/
def LaneSt.noteHalf (L : LaneSt) (x : Lane) (half : Nat) : LaneSt :=
  match x with
  | .A => L.setFld Reg.FC_LIVE_AB 0 16 half
  | .B => L.setFld Reg.FC_LIVE_AB 16 16 half
  | .C => L.setFld Reg.FC_LIVE_C 0 16 half

/-- The charge pump of a lane runs from its LIVE again (R60). -/
def LaneSt.repower (L : LaneSt) : LaneSt := { L with field := { L.field with unpowered := false } }

/-- A LIVE permit set or cleared; the signal enters or leaves the window with it, toggling every 100 µs (R448). -/
def State.setPermit (s : State) (x : Lane) (p : Bool) : State :=
  let s := s.setCtl x fun c => { c with permit := p, liveAt := if p then s.now else c.liveAt }
  let s := if p then s.upd x LaneSt.repower else s
  let s := { s with drv := { s.drv with live := s.drv.live.set x p } }
  (s.updAll fun _ L => { (if p then L.noteHalf x 10000 else L) with liveOk := L.liveOk.set x p }).refreshDrive

/-! ### Shadow windows and the on-line change (R190, R498, R505) -/

/-- The shadow banks of a lane emptied: words, phase and slot counts of the other bank, states and counts. -/
def LaneSt.emptyShadow (L : LaneSt) : LaneSt :=
  let L := { L with logic := { L.logic with
      banks := L.logic.banks.filter fun e => decide (e.1 / 2 ^ 22 = L.logic.bank)
      phasesOf := L.logic.phasesOf.filter fun e => decide (e.1 / 16 = L.logic.bank)
      slotsOf := L.logic.slotsOf.filter fun e => decide (e.1 / 16 = L.logic.bank) } }
  (List.range 16).foldl (fun L b => (L.setReg (Reg.LF_SHD_STAT b) 0).clearBits (Reg.LF_SHD_CTRL b) 1) L

/-- Every open shadow window closed and its state EMPTY (R190). -/
def LaneSt.closeShadows (L : LaneSt) : LaneSt :=
  (List.range 16).foldl (fun L b =>
    if L.bit (Reg.LF_SHD_CTRL b) 0 then (L.setReg (Reg.LF_SHD_STAT b) 0).clearBits (Reg.LF_SHD_CTRL b) 1 else L) L

/-- A change in LOADING or VERIFYING abandoned: its state returns to NONE (R505). -/
def State.abandonChange (s : State) : State :=
  if s.chg.st = .loading ∨ s.chg.st = .verifying then
    let s := { s with chg := {} }
    s.updAll fun _ L => { L.emptyShadow with flash := { L.flash with staged := none } }
  else s

/-- An armed change disarmed, back to VERIFIED (R59, R501), recorded CHANGE_DISARMED. -/
def State.disarm (s : State) : State :=
  if s.chg.st = .armed ∧ s.chg.revert = false then
    ({ s with chg := { s.chg with st := .verified, target := 0 } }).event Base.sv 0x010 0
  else s

/-! ### Planned handover (R409) -/

/-- Why a planned handover cannot start: the reason of R418, or none. -/
def State.handoverBar (s : State) : Option Nat :=
  if s.xo.role ≠ .holder then some 0x40
  else if !(match s.xo.peer with | some b => decide (b.sync = 2) && b.lanes3 && decide (b.role = 2) | none => false)
      || !s.xo.hb then some 0x41
  else if s.chg.st = .armed then some 0x42
  else if s.xo.hoCycle.isSome then some 0x43
  else none

/-- A frame put at a paired transmitter by the pair that codes it now. -/
def State.putFrame (s : State) (ch : TxChan) (bs : Bytes) (ip : Option IpHead := none) : State :=
  { s with txq := s.txq ++ [⟨ch, bs, s.txPair, ip⟩] }

/-- A confirmation (R395) or an offer (R410) as it goes to lane XH: its kind, 1 or 2, and the number (DESIGN CHOICE, log 139). -/
def xhBytes (kind n : Nat) : Bytes := byteOf kind :: toLe 8 n

/-- The holder offers the role, naming the next cycle as the last it evaluates (R410). -/
def State.startHandover (s : State) : State :=
  { s with
    xo := { s.xo with
      hoCycle := some (s.cyc.num + 1), hoPaused := false, hoConf := false, hoTaken := false
      out := { s.xo.out with offer := some (BitVec.ofNat 64 (s.cyc.num + 1)) } } }.putFrame .xh (xhBytes 2 (s.cyc.num + 1))

/-- An automatic start that a condition of R409 bars: a NOTE, and a retry after 10 s. The entry names `XO_CTRL` and the module itself
as its port, the code 0x20 (R456, R79; DEDUCED, log 135). -/
def State.barHandover (s : State) (r : Nat) : State :=
  ({ s with xo := { s.xo with retryAt := s.now + 10000000000 } }).recordIn s.inStep (Blk.ofOff Base.xo)
    (obCode 2 r) .note (0x40000000 + Reg.XO_CTRL + 0x20 * 2 ^ 32)

/-- An automatic start (R409). -/
def State.autoHandover (s : State) : State :=
  if s.now < s.xo.retryAt then s
  else match s.handoverBar with
    | none => s.startHandover
    | some r => s.barHandover r

/-- R56: a duty module that runs 2-out-of-2 with policy HANDOVER hands over as soon as its standby can take the role; barred, it tries
again (R409). A holder in RESTART_LOCKED hands nothing over (DESIGN CHOICE, log 136). -/
def State.degHandover (s : State) : State :=
  if s.mstate = .duty ∧ s.twoOfTwo ∧ (s.agreedReg Reg.VOTE_CFG).toNat.testBit 8 ∧ s.xo.hoCycle.isNone then s.autoHandover
  else s

/-! ### Entry to 2-out-of-2 operation (R59) -/

/-- The forced report of an injection ends. -/
def InjSt.unforce (i : InjSt) : InjSt := { i with forced := false }

/-- What ends when the module enters 2-out-of-2 operation: a forced report, an armed change, a change in LOADING or
VERIFYING, every open shadow window; a standby drops the offer of a planned handover (R57). -/
def State.enterTwoOfTwo (s : State) : State :=
  let s := { s with inj := s.inj.map InjSt.unforce, xo := { s.xo with hoTaken := false } }
  let s := s.disarm.abandonChange
  let s := s.updAll fun _ L => L.closeShadows
  s.degHandover

/-! ### Bank isolators (R242) -/

/-- A bank isolator is closed while two lanes command it and it is not latched open (R242, R245). -/
def State.refreshIsolators (s : State) : State :=
  (List.range 16).foldl (fun s b =>
    let k := (LaneVec.ofFn fun l => (s.lane.get l).field.iso.toNat.testBit b).count
    s.setBank b fun q => { q with closed := decide (2 ≤ k) && !q.latched }) s

/-! ### Tests in progress (R263, R266) -/

/-- The codes that a test has found wait for input agreement, and its date is kept. -/
def RunTest.note (t : RunTest) (c : ChanSt) : ChanSt :=
  match t.sw with
  | some k => { c with swAt := (List.range 6).map fun j => if j = k then t.at_ else c.swAt.getD j 0 }
  | none => { c with darkAt := t.at_ }

/-- A test that has come to its end is complete. -/
def State.settleTest (s : State) (b : Nat) : State :=
  match (s.bank b).running with
  | some t =>
    if t.till ≤ s.now then
      let s := (s.setBank b fun q => { q with running := none }).setChan t.ch t.note
      { s with fld := { s.fld with due := s.fld.due ++ t.codes } }
    else s
  | none => s

/-- The tests that have come to their end. -/
def State.settleTests (s : State) : State := (List.range 16).foldl (fun s b => s.settleTest b) s

/-- A running test ends at once: its switches take their lanes' commands, it is queued again at the head, and counted (R266). -/
def State.abortTest (s : State) (b : Nat) : State :=
  match (s.bank b).running with
  | some t =>
    (s.setBank b fun q => { q with running := none, retry := ⟨t.ch, t.sw, false⟩ :: q.retry }).count Reg.FS_EVENTS 0 16 1
  | none => s

/-- The running tests that a condition picks end. -/
def State.abortTests (s : State) (pick : RunTest → Bool) : State :=
  (List.range 16).foldl (fun s b =>
    match (s.bank b).running with
    | some t => if pick t then s.abortTest b else s
    | none => s) s.settleTests

/-- While the LIVE of an ACTIVE lane is not found in the window, no test of an energised output runs on (R267). -/
def State.abortSilent (s : State) : State :=
  if Lane.list.any fun l => s.isActive l && !s.liveSignals.get l then s.abortTests fun t => t.on && t.sw.isSome else s

/-! ### Filters on leaving STANDBY (R276) -/

/-- Every filter presents the last copied agreed input image until it confirms a reading at full current; no class of the
wire-break mode stands. -/
def LaneSt.seedFilters (L : LaneSt) (inp : List (Nat × BitVec 512)) : LaneSt :=
  let v := (getD 0 inp 0).setWidth 256
  { L with field := { L.field with filt := v, frozen := v, broken := 0, gap := 0, brokenFrz := 0, gapFrz := 0 } }

/-- The module leaves STANDBY. -/
def State.leaveStandby (s : State) : State :=
  if s.mstate = .standby then s.updAll fun _ L => L.seedFilters s.inp else s

/-! ### Entries that an injection causes (R445) -/

/-- The injected flag, and the tag as byte 5 of `DATA`, as a DETECTOR entry carries it (R456; DEDUCED, log 132). -/
def tagFlag (tag : Option Byte) : Nat := if tag.isSome then 1 else 0

def tagData (tag : Option Byte) : Nat := match tag with | some t => t.toNat * 2 ^ 40 | none => 0

/-! ### The entry into SAFE (R433, R434) -/

/-- The module enters SAFE: the gate latches, every ladder and isolator opens, the vital drive stops, every lane stops
LIVE, withholds every telegram, stops the heartbeat. `req` are the lanes that assert SAFE_REQ, `who` the requesting
lane as recorded, 3 for none; `tag` that of the injection that caused it (R445). -/
def State.enterSafe (s : State) (cause who : Nat) (req : LaneSet) (tag : Option Byte := none) : State :=
  if s.gate then s.updIn req fun _ L => { L with safeReq := true }
  else
    let act := s.active
    let s := if s.xo.role = .none then s.leaveStandby else s.leaveStandby.irq Base.xo 1
    let s := { s with
      drv := { mstate := .safe, gate := true, vdrv := false, offAt := s.driveOffAt, live := .all false }, gateActive := act,
      txq := [], held := [], formWait := [], auths := [], prepare := none, confirmed := false,
      ctl := s.ctl.map fun _ (c : LaneCtl) => { c with permit := false },
      xo := { s.xo with
        role := .none, sync := .none, hoCycle := none, hoPaused := false, claimAt := none, peerSince := none, out := {} },
      link := { s.link with node := .off } }
    let s := (List.range 16).foldl (fun s b => s.setBank b fun q => { q with closed := false, running := none, retry := [] }) s
    let s := s.abandonChange
    let s := s.updAll fun l L =>
      let L := { L.closeShadows with
        safeReq := L.safeReq || req.get l, liveOk := .all false, explained := [],
        field := { L.field with cmd := 0, want := 0, iso := 0 }, logic := { L.logic with evaluating := false } }
      let L := L.setBits (Base.fc + 0x18) 2
      L.record (obPath l 5 0 0x1F) (obCode 5 (0xF + cause * 16)) 4 (tagFlag tag) s.cyc.num (obData (who + tagData tag))
    let seqOf (l : Lane) : Nat := match (s.lane.get l).obNewest with | some e => e.seq | none => 0
    let seq (l : Lane) : Nat := match who with | 0 => seqOf .A | 1 => seqOf .B | 2 => seqOf .C | _ => seqOf l
    s.updAll fun l L => L.setReg Reg.FC_LAST_SAFE (BitVec.ofNat 32 (cause + who * 256 + seq l % 65536 * 65536))

/-- One lane asserts SAFE_REQ; only an ACTIVE lane does (R433). -/
def State.safeByLane (s : State) (l : Lane) (cause : Nat) (tag : Option Byte := none) : State :=
  if s.isActive l then s.enterSafe cause l.code (oneLane l) tag else s

/-- A module-safe decision that every ACTIVE lane reaches; the lowest-lettered is recorded as the one that requested. -/
def State.safeByAll (s : State) (cause : Nat) : State :=
  match s.lead with
  | some l => s.enterSafe cause l.code s.active
  | none => s

/-- The limit of 2-out-of-2 operation is reached (R55): a duty module whose standby is synchronised with three ACTIVE lanes
hands over, after an armed change with a NOTE and a retry (R409); every other enters SAFE, a role holder in RESTART_LOCKED too
(DESIGN CHOICE, log 136). -/
def State.degExpire (s : State) : State :=
  if s.mstate ≠ .duty then s.safeByAll 0x04
  else match s.handoverBar with
    | none => s.startHandover
    | some 0x42 => s.autoHandover
    | some 0x43 => s
    | some _ => if s.xo.hoCycle.isSome then s else s.safeByAll 0x04

/-- A lane that finds itself the last ACTIVE lane requests the module safe state (R61, R433): cause LAST_LANE. -/
def State.checkLast (s : State) : State :=
  if s.mstate.voting ∧ s.activeCount = 1 then s.safeByAll 0x05 else s

/-! ### Exclusion of a lane (R25, R44, R45, R51) -/

/-- The entries of a lane to ACTIVE within the last 24 h (R51). -/
def State.entries24 (s : State) (x : Lane) : List Nat :=
  (s.ctl.get x).entries.filter fun t => decide (s.now < t + 86400000000000)

/-- A LANE entry (R456) in the books of a set of lanes. -/
def State.laneEntry (s : State) (ls : LaneSet) (x : Lane) (m : LaneMode) (cause : Nat) (cls : FClass) (tag : Option Byte := none) :
    State :=
  s.recordIn ls (Blk.ofOff Base.vote) (obCode 4 (m.code + cause * 16)) cls (x.code + tagData tag) (tagFlag tag)

/-- The LANE entries of an exclusion (R45, R51): EXCLUDED, and HALTED where the lane stays out. -/
def State.noteExclusion (s : State) (x : Lane) (cls : FClass) (cause : Nat) (third : Bool) (tag : Option Byte) : State :=
  let books := withLane s.inStep x
  let s := s.laneEntry books x .excluded cause cls tag
  if third then s.laneEntry books x .halted 0x09 .laneHalt tag
  else if 3 ≤ cls.code then s.laneEntry books x .halted cause cls tag else s

/-- The excluded lane's own part: its switches open, it evaluates no further, `FC_CAUSE` holds the cause, the class and the
place of the report; where no report excluded the lane, `REGION`, `BLOCK` and `BIT` read 0 (R44, R462). -/
def LaneSt.leaveVote (L : LaneSt) (cause : Nat) (cls : FClass) (det : Option Det) : LaneSt :=
  let place := match det with
    | some d => d.blk.region.toNat * 0x800 + d.blk.block.toNat * 0x8000 + d.bit * 0x8000000
    | none => 0
  let L := { L with
    explained := [], field := { L.field with cmd := 0, want := 0, iso := 0, sinkOff := [] }, logic := { L.logic with evaluating := false } }
  (L.setReg Reg.FC_CAUSE (BitVec.ofNat 32 (cause + cls.code * 0x100 + place))).setBits (Base.fc + 0x18) 1

/-- A resynchronisation that loses one of its sources is abandoned and counts against no lane (R48). -/
def State.abandonResync (s : State) (x : Lane) : State :=
  Lane.list.foldl (fun s y => if y ≠ x ∧ s.mode y = .resync then
    s.setCtl y fun c => { c with mode := .excluded, pages := [], marked := [], retry := [] } else s) s

/-- The maintenance sessions close, and the lanes forget their keys: the lane that conducted them is out (R109). -/
def State.closeSessions (s : State) : State := { s.updAll fun _ L => { L with tlsKeys := [] } with maint := [] }

/-- A lane has left the vote: what a lane records of the transfers and frames that it withholds is of a new reaction (R439). -/
def LaneSt.newReaction (L : LaneSt) : LaneSt :=
  { L with explained := L.explained.filter fun d => decide (d.bit ≠ 0x107 ∧ d.bit ≠ 0x108) }

/-- A CAN port without its owner stops driving the bus until ownership moves at the next freeze (R543). -/
def State.disownCan (s : State) (x : Lane) : State :=
  (List.range 4).foldl (fun s p =>
    if (s.canPt p).owner = some x then s.setCanPt p fun q => { q with owner := none } else s) s

/-- A lane leaves the vote: the tests in progress end, its switches open (a tested switch of another lane has closed by then: the
hold of R266 lies inside this step, log 111), its part of every telegram is withheld, LIVE stops (R25, R44). A lane
that has entered ACTIVE three times within 24 h enters HALTED for a cause of class LANE_RECOVER (R51), and so does every lane for a
cause of a higher class. When it conducted the maintenance sessions they close (R109). -/
def State.leave (s : State) (x : Lane) (cls : FClass) (cause : Nat) (det : Option Det) (tag : Option Byte) : State :=
  let wasActive : Bool := (s.ctl.get x).mode == .active
  let was3 : Bool := s.mstate.voting && s.activeCount == 3
  let conducts : Bool := s.lead == some x
  let third : Bool := cls == .laneRecover && decide (3 ≤ (s.entries24 x).length)
  let cls' := if third then FClass.laneHalt else cls
  let s := s.noteExclusion x cls cause third tag
  let s := s.setCtl x fun c => { c with
      mode := if 3 ≤ cls'.code then .halted else .excluded, cls := cls', watch := det.toList,
      agreed := 0, pages := [], marked := [], retry := [] }
  let s := s.setPermit x false
  let s := if wasActive then s.abortTests fun _ => true else s
  let s := ((s.updAll fun _ L => L.newReaction).upd x fun L => L.leaveVote cause cls' det).refreshIsolators
  let s := if wasActive then s.abandonResync x else s
  let s := if conducts then s.closeSessions else s
  let s := s.disownCan x
  if was3 && wasActive then s.enterTwoOfTwo else s

/-- What excludes a lane. The only ACTIVE lane left does not leave the vote: it asserts SAFE_REQ for the module safe state, with cause
LAST_LANE (R430, R433; DEDUCED, log 65). -/
def State.exclude (s : State) (x : Lane) (cls : FClass) (cause : Nat) (det : Option Det) (tag : Option Byte := none) : State :=
  if s.mstate.voting ∧ s.isActive x ∧ s.activeCount = 1 then s.safeByLane x 0x05 tag else s.leave x cls cause det tag

/-- A lane found in the minority by a vote: counted, and excluded with class LANE_RECOVER (R44, R65). -/
def State.minority (s : State) (x : Lane) (cause : Nat) : State :=
  let s := s.count Reg.MINORITY_CNT (8 * x.code) 8 1
  s.exclude x .laneRecover cause none

/-! ### Resets (R431 to R437) -/

/-- The scope of a reset covers a block. -/
def ResetRec.covers (r : ResetRec) (k : Blk) : Bool :=
  match r.scope with
  | .cell => false
  | .block => decide (r.blk = k)
  | .region => decide (r.blk.region = k.region)
  | .lane => true
  | .module => true

/-- The bound of a reset, ns (R435); that of a module reset is 200 ms (R468). -/
def RScope.bound : RScope → Nat
  | .cell => 1000 | .block => 10000 | .region => 100000 | .lane => 50000000 | .module => 200000000

/-- A block is in reset: it answers IN_RESET (R69). -/
def LaneSt.inReset (L : LaneSt) (k : Blk) : Bool := L.resets.any fun r => !r.done && r.covers k

/-- A reset of the lane is in progress. -/
def LaneSt.resetting (L : LaneSt) : Bool := L.resets.any fun r => !r.done

/-- The shadow of a reset stands from its start until its bound, whether it has completed or not (R436). -/
def ResetRec.shadows (r : ResetRec) (now : Nat) : Bool := decide (now < r.at_ + RScope.bound r.scope)

/-- The pairs of a block lie in a reset shadow (R436). -/
def State.shadowed (s : State) (l : Lane) (k : Blk) : Bool :=
  (s.lane.get l).resets.any fun r => r.shadows s.now && r.covers k

/-- A page lies within a reset. -/
def ResetRec.coversOff (r : ResetRec) (off : Nat) : Bool := r.covers (Blk.ofOff off)

/-- The scope codes of R456. -/
def RScope.code : RScope → Nat
  | .cell => 0 | .block => 1 | .region => 2 | .lane => 3 | .module => 4

/-- A reset starts. The volatile state of its scope that no rule lets survive is lost: tokens, pending writes and
holding copies of its pages, and the cells' own state of its logic blocks (DESIGN CHOICE, log 20). -/
def LaneSt.startReset (L : LaneSt) (now : Nat) (scope : RScope) (k : Blk) (tag : Option Byte := none) : LaneSt :=
  let r : ResetRec := { scope, blk := k, at_ := now, tag }
  if L.resets.any (fun q => decide (q.scope = scope ∧ q.blk = k) && !q.done) then L
  else { L with
    resets := (L.resets.filter fun q => (!q.done || q.shadows now)) ++ [r]
    tokens := L.tokens.filter fun t => !r.coversOff t.page
    pend := L.pend.filter fun w => !r.coversOff (w.addr % 0x10000000)
    holds := L.holds.filter fun h => !r.coversOff h.base
    tlsKeys := if scope = .lane ∨ scope = .module then [] else L.tlsKeys
    logic := { L.logic with cells := L.logic.cells.filter fun e => !r.coversOff (Base.lf (e.1 / 16)) } }

/-- The block that a report of a region collector names: `data` [11:0]. -/
def namedBlock (k : Blk) (data : Nat) : Blk := ⟨k.region, BitVec.ofNat 12 data⟩

/-- The target block that an HS_TIMEOUT report names: its region [15:12], its block [27:16] (R431). -/
def namedTarget (data : Nat) : Blk := ⟨BitVec.ofNat 4 (data / 0x1000), BitVec.ofNat 12 (data / 0x10000)⟩

/-- The reset that answers a LANE_RECOVER report (R431): the whole lane for a lane collector detector, the block named
in the report for a region collector detector, both blocks of a handshake for HS_TIMEOUT, otherwise the block that reported.
A RESET_OVERRUN report is answered by the wider reset of R437 instead. -/
def State.reactReset (s : State) (l : Lane) (r : Report) (tag : Option Byte) : State :=
  let page := (pageOf (Blk.base r.blk)).map fun q => q.1
  if page = some .fc then s.upd l fun L => L.startReset s.now .lane r.blk tag
  else if page ≠ some .rc then s.upd l fun L => L.startReset s.now .block r.blk tag
  else if r.bit = 2 then s
  else
    let s := s.upd l fun L => L.startReset s.now .block (namedBlock r.blk r.data) tag
    if r.bit = 0 then s.upd l fun L => L.startReset s.now .block (namedTarget r.data) tag else s

/-! ### Classes (R426, R427) -/

/-- The default class of a detector by its key, page offset × 32 + bit. -/
def classDefault (key : Nat) : Nat :=
  match pageOf (key / 32) with
  | some (p, i) => (defaultClass p i (key % 32)).code
  | none => match modPageOf (key / 32 - 0x50000000) with
    | some p => (defaultClass p 0 (key % 32)).code
    | none => 0

/-- The class of a detector of a lane block. -/
def State.classOf (s : State) (k : Blk) (bit : Nat) : FClass :=
  match FClass.ofCode (SMap.get classDefault s.classes (Blk.base k * 32 + bit)) with
  | some c => c
  | none => .note

def State.setClass (s : State) (k : Blk) (bit : Nat) (c : FClass) : State :=
  { s with classes := SMap.put classDefault s.classes (Blk.base k * 32 + bit) c.code }

/-- The higher of two classes. -/
def FClass.max (a b : FClass) : FClass := if a.code < b.code then b else a

/-! ### A report (R420 to R447, R602) -/

/-- Detectors of the block report nothing but set their bits: individual-status mode, in TEST every block (R424,
R473). -/
def State.individual (s : State) (l : Lane) (k : Blk) : Bool :=
  decide (s.mstate = .test) || (s.lane.get l).bit (Blk.base k + 0x8) 2

/-- The pairs of a block are masked at the region collector (R424, R436). -/
def State.masked (s : State) (l : Lane) (k : Blk) : Bool := s.individual l k || s.shadowed l k

/-- A report that a reaction in progress explains (R438): output checks and bank current while in SAFE, the readback
and path sense of a bank whose isolator is open, LIVE of a lane outside the vote. -/
def State.explains (s : State) (l : Lane) (k : Blk) (bit : Nat) : Bool :=
  match pageOf (Blk.base k) with
  | some (.bank, b) =>
    (decide (s.mstate = .safe) && (bit == 0 || bit == 1 || bit == 2 || bit == 7 || bit == 8))
      || ((bit == 1 || bit == 0) && (s.bank b).latched)
  | some (.fc, _) =>
    bit == 1 && (s.mode l == .excluded || s.mode l == .resync || s.mode l == .halted)
  | _ => false

/-- What is not raised: READBACK_LOW while OVERCURRENT holds on the channel that the report names (R438); RAIL of a region collector
for a pair that is masked, of the block that the report names (R424, R436). -/
def State.notRaised (s : State) (l : Lane) (k : Blk) (bit data : Nat) : Bool :=
  match pageOf (Blk.base k) with
  | some (.bank, _) => bit == 1 && (s.chan (data % 256)).codes.contains 0x14
  | some (.rc, _) => bit == 1 && s.masked l (namedBlock k data)
  | _ => false

/-- The earliest report of a region since its error bits were last all clear (R462, `RC_STAT.FIRST`; DEDUCED, log 161). -/
def LaneSt.noteFirst (L : LaneSt) (k : Blk) : LaneSt :=
  let r := k.region.toNat
  if L.regs.any (fun e => decide (e.1 / 0x1000000 = r ∧ e.1 % 0x1000 = 0x10)) then L
  else L.setFld (Reg.RC_STAT r) 16 12 k.block.toNat

/-- A report as a lane's books and counters take it (R430). -/
def LaneSt.takeReport (L : LaneSt) (l : Lane) (k : Blk) (bit : Nat) (cls : FClass) (flags cycle data : Nat) : LaneSt :=
  let cell := match pageOf (Blk.base k) with
    | some (.lf, _) => if bit < 16 then bit else 0x1F
    | _ => 0x1F
  let L := L.record (obPath l k.region.toNat k.block.toNat cell) (obCode 1 bit) cls.code flags cycle (obData data)
  let L := L.addFld (Blk.base k + 0x2C) 0 16 1
  match cls with
  | .note => L.addFld Reg.FC_CNT 0 8 1
  | .corrected => (L.addFld Reg.FC_CNT 8 8 1).setBits (Base.fc + 0x18) 4
  | .laneRecover => L.addFld Reg.FC_CNT 16 8 1
  | .laneHalt => L.addFld Reg.FC_CNT 24 8 1
  | .moduleSafe => L

/-- A lane outside the vote enters HALTED for a report (R602). -/
def State.haltFor (s : State) (l : Lane) (cls : FClass) (tag : Option Byte) : State :=
  (s.laneEntry (withLane s.inStep l) l .halted 0x01 cls tag).setCtl l fun c => { c with mode := .halted, cls := cls }

/-- The detectors that a lane must watch when its resets complete (R432), and the resets that reports of LANE_RECOVER start
(R431). -/
def State.resetFor (s : State) (l : Lane) (rs : List Report) (tag : Option Byte) : State :=
  let dets : List Det := rs.map fun r => ⟨r.blk, r.bit⟩
  let s := s.setCtl l fun c => { c with watch := dets.foldl (fun w d => if w.contains d then w else w ++ [d]) c.watch }
  rs.foldl (fun s r => s.reactReset l r tag) s

/-- The reaction of the lane to the reports of one class, the first of them named as the cause, by its lane state (R430, R431, R602).
In SAFE each lane keeps the state it held when the gate latched (R434). -/
def State.react (s : State) (l : Lane) (cls : FClass) (r : Report) (rs : List Report) (tag : Option Byte) : State :=
  if s.mstate = .safe then s
  else match cls with
    | .note => s
    | .corrected => s
    | .laneRecover => match s.mode l with
      | .halted => s
      | .excluded => s.resetFor l (r :: rs) tag
      | _ =>
        let s := s.exclude l .laneRecover 0x01 (some ⟨r.blk, r.bit⟩) tag
        if s.mstate = .safe then s else s.resetFor l (r :: rs) tag
    | .laneHalt => match s.mode l with
      | .halted => s
      | .excluded => s.haltFor l .laneHalt tag
      | _ => s.exclude l .laneHalt 0x01 (some ⟨r.blk, r.bit⟩) tag
    | .moduleSafe => match s.mode l with
      | .active => s.safeByLane l 0x01 tag
      | .halted => s
      | .excluded => s.haltFor l .moduleSafe tag
      | _ => s.exclude l .moduleSafe 0x01 (some ⟨r.blk, r.bit⟩) tag

/-- The place of a report in the order of R423: region, block, bit. -/
def Report.key (r : Report) : Nat := Blk.base r.blk * 32 + r.bit

/-- A report put in its place. -/
def Report.insert (r : Report) : List Report → List Report
  | [] => [r]
  | q :: rs => if r.key ≤ q.key then r :: q :: rs else q :: Report.insert r rs

/-- The reports of one clock in ascending order (R423). -/
def inOrder (rs : List Report) : List Report := rs.foldl (fun a r => r.insert a) []

/-- The `BLK_ERR` bit of a detector is set, whatever becomes of its report (R429). -/
def State.raise (s : State) (l : Lane) (r : Report) : State :=
  s.upd l fun L => (if s.masked l r.blk then L else L.noteFirst r.blk).setBits (Blk.base r.blk + 0x10) (2 ^ r.bit)

/-- A report reaches the collector: its pairs are not masked (R424, R436), its enable is 1 (R429). -/
def State.admits (s : State) (l : Lane) (r : Report) : Bool :=
  !s.masked l r.blk && (s.lane.get l).bit (Blk.base r.blk + 0x14) r.bit

/-- An entry of a consequential report: once in a reaction, as NOTE with the consequential flag (R439). -/
def LaneSt.recordOnce (L : LaneSt) (l : Lane) (d : Det) (code : Half) (cycle data : Nat) : LaneSt :=
  if L.explained.contains d then L
  else
    let L := L.record (obPath l d.blk.region.toNat d.blk.block.toNat 0x1F) code 0 4 cycle (obData data)
    { L with explained := L.explained ++ [d] }

/-- An event that a reaction explains (R438, R439): its entry under the page of offset `base`. -/
def State.echo (s : State) (l : Lane) (base n data : Nat) : State :=
  s.upd l fun L => L.recordOnce l ⟨Blk.ofOff base, 0x100 + n⟩ (obCode 6 n) s.cyc.num data

/-- A report is recorded and counted: one that a reaction explains once, with the consequential flag (R439); one that meets an
injection in its block ends the forced report and is recorded as coincident (R447). The state, and the class in which it is to be
reacted to. -/
def State.takeIn (s : State) (l : Lane) (r : Report) : State × Option FClass :=
  if s.explains l r.blk r.bit then
    (s.upd l fun L => L.recordOnce l ⟨r.blk, r.bit⟩ (obCode 1 r.bit) s.cyc.num r.data, none)
  else
    let coin : Bool := match s.inj with | some i => decide (i.blk = r.blk) | none => false
    let tag := match s.inj with | some i => i.tag.toNat | none => 0
    let s := if coin then ({ s with inj := s.inj.map InjSt.unforce }).event (Blk.base r.blk) 0x00B tag else s
    let c := s.classOf r.blk r.bit
    let cls := match r.rail with
      | some x => FClass.max x .laneRecover
      | none => c
    let flags := (if coin then 2 else 0) + (if r.rail.isSome then 8 else 0)
    (s.upd l fun L => L.takeReport l r.blk r.bit cls flags s.cyc.num (r.data % 2 ^ 32), some cls)

/-- Every report of the clock is recorded, in their order. -/
def State.takeEach (s : State) (l : Lane) : List Report → State × List (Report × FClass)
  | [] => (s, [])
  | r :: rs =>
    let q := s.takeIn l r
    let t := q.1.takeEach l rs
    (t.1, (q.2.toList.map fun c => (r, c)) ++ t.2)

/-- The highest class among the reports of a clock. -/
def topClass (rs : List (Report × FClass)) : FClass := rs.foldl (fun c e => FClass.max c e.2) .note

/-- The lane collector applies the highest class among the reports of a clock (R423). -/
def State.reactTo (s : State) (l : Lane) (rs : List (Report × FClass)) : State :=
  match (rs.filter fun e => e.2 == topClass rs).map fun e => e.1 with
  | [] => s
  | r :: more => s.react l (topClass rs) r more none

/-- Reports of real faults that reach a lane's collector in one clock (R420 to R430). The `BLK_ERR` bit of each is set whatever
happens to its report (R429); those that go further are recorded in ascending order, and the highest class is applied (R423). -/
def State.reports (s : State) (l : Lane) (rs : List Report) : State :=
  let up := (inOrder rs).filter fun r => !s.notRaised l r.blk r.bit r.data
  let go := up.filter (s.admits l)
  let s := up.foldl (fun s r => s.raise l r) s
  let q := s.takeEach l go
  q.1.reactTo l q.2

/-- A real fault reported by a detector (R430). -/
def State.report (s : State) (l : Lane) (k : Blk) (bit data : Nat) : State := s.reports l [{ blk := k, bit, data }]

/-- A detector that the lanes in step find alike: each of them reports it. -/
def State.reportAll (s : State) (base bit data : Nat) : State :=
  Lane.list.foldl (fun s l => if s.parts.get l then s.report l (Blk.ofOff base) bit data else s) s

/-- A forced report (R445): the detector's class and reaction; every entry carries the injected flag and the tag. -/
def State.reportForced (s : State) (l : Lane) (k : Blk) (bit : Nat) (tag : Byte) : State :=
  let r : Report := { blk := k, bit, data := 0 }
  let go := s.admits l r
  let s := s.raise l r
  if !go then s
  else
    let cls := s.classOf k bit
    let s := s.upd l fun L => L.takeReport l k bit cls (tagFlag (some tag)) s.cyc.num (tagData (some tag))
    let was := s.active
    let s := s.react l cls r [] (some tag)
    let out : LaneSet := LaneVec.ofFn fun x => was.get x && !s.isActive x
    { s with inj := s.inj.map fun i => { i with excl := LaneVec.ofFn fun x => i.excl.get x || out.get x } }

/-- A cause that is present, or no longer. -/
def LaneSt.setStanding (L : LaneSt) (d : Det) (on : Bool) : LaneSt :=
  if on then (if L.standing.contains d then L else { L with standing := L.standing ++ [d] })
  else { L with standing := L.standing.filter fun x => decide (x ≠ d) }

/-- A cause that the model itself holds is present: of a bank its supply out of range, its latched isolator, the code on one of its
channels that the detector stands for (R283); of the lane collector the lane's own LIVE outside the window under a permit (R450). -/
def State.holdsCause (s : State) (l : Lane) (d : Det) : Bool :=
  match pageOf (Blk.base d.blk) with
  | some (.bank, b) =>
    (d.bit == 6 && ((s.bank b).low || (s.bank b).high)) || (d.bit == 7 && (s.bank b).latched)
  | some (.fc, _) => d.bit == 1 && (s.ctl.get l).permit && !(s.lane.get l).liveOk.get l
  | _ => false

/-- A detector still shows fault: its cause is present, or an injection forces it (R432, R440). -/
def State.stillFaulty (s : State) (l : Lane) (d : Det) : Bool :=
  (s.lane.get l).standing.contains d || s.holdsCause l d
    || (match s.inj with | some i => i.forced && i.lanes.get l && decide (i.blk = d.blk ∧ i.det = d.bit) | none => false)

/-! ### Module reset (R435, R442, R467, R468) -/

/-- The entries preserved from an earlier start-up join the ring, where the oldest entry gives way first (R454). -/
def LaneSt.releaseKept (L : LaneSt) : LaneSt :=
  match L.obKept with
  | [] => L
  | e :: _ =>
    { L with
      obKept := []
      obRing := (L.obRing.filter fun x => decide (x.seq < e.seq)) ++ L.obKept ++ L.obRing.filter fun x => decide (e.seq ≤ x.seq)
      obCount := 0 }

/-- The lane after a module reset: what survives is the Occurrence Book (R454), `FC_LAST_SAFE` (R442), the recorder
memories, the configuration flash and the key store. -/
def LaneSt.moduleReset (L : LaneSt) : LaneSt :=
  let L := L.releaseKept
  let L' : LaneSt := { LaneSt.reset with
    obKept := L.obKept, obRing := L.obRing, obNext := L.obNext, tally := L.tally, mram := L.mram,
    flash := L.flash, keys := L.keys, standing := L.standing }
  L'.setReg Reg.FC_LAST_SAFE (L.reg Reg.FC_LAST_SAFE)

/-- A module reset: every lane enters BOOT. The strap samples, the supply, the keep-alive domain and the pages of the
module aperture that describe them stand (DESIGN CHOICE, log 21). -/
def State.moduleReset (s : State) : State :=
  { State.reset with
    pending := s.pending, now := s.now, freeCtr := s.freeCtr, role := s.role, pref := s.pref,
    drv := { State.reset.drv with offAt := s.driveOffAt },
    lane := s.lane.map fun _ L => L.moduleReset, startAt := s.now, stuck := s.stuck, power := s.power,
    mregs := s.mregs.filter fun e => decide (0x1000 ≤ e.1),
    xo := { hb := s.xo.hb, peerLive := s.xo.peerLive, peerTok := s.xo.peerTok, linkUp := s.xo.linkUp, peer := s.xo.peer,
            hbLost := s.xo.hbLost, liveLost := s.xo.liveLost } }

end Sys2Proof.Machine
end

