-- ==== Sys2Proof/Machine/Layout.lean ====
section
/-! DEFINITION. Machine/Layout.lean: where things lie in the Station Image (R137) and in a block memory (R179), the
records of elements, routes, slots, timers, counters and forces, the cycle times that follow from the file (R117,
R118), and what the station image file configures. -/

namespace Sys2Proof.Machine

/-! ### Offsets of R137 -/

namespace Img
abbrev journal : Nat := 0x1000
abbrev force (n : Nat) : Nat := 0x2000 + 16 * n
abbrev elem (n : Nat) : Nat := 0x10000 + 64 * n
abbrev route (r : Nat) : Nat := 0x50000 + 16 * r
abbrev slot (n : Nat) : Nat := 0x90000 + 32 * n
abbrev counter (n : Nat) : Nat := 0x94000 + 8 * n
abbrev timer (n : Nat) : Nat := 0xA0000 + 16 * n
abbrev bits : Nat := 0xC0000
end Img

/-- The areas of the image that a cell may write (R162). -/
def imgWritable (byte : Nat) : Bool :=
  decide (0x10000 ≤ byte ∧ byte < 0x94000) || decide (0xC0000 ≤ byte ∧ byte < 0xE0000)

/-- The bytes that the controller owns (R202). -/
def imgOwned (byte : Nat) : Bool :=
  (decide (0x10000 ≤ byte ∧ byte < 0x50000) && decide ((byte - 0x10000) % 64 < 16))
    || (decide (0x50000 ≤ byte ∧ byte < 0x90000) && decide (3 ≤ (byte - 0x50000) % 16))
    || decide (0x90000 ≤ byte ∧ byte < 0x94000)

/-- Bit `a` of the image by its bit address (R160), in a byte memory. -/
def memBit (m : List Host.Cell) (a : Nat) : Bool := (memGet m (a / 8)).toNat.testBit (a % 8)

/-- One bit of the working buffer. -/
def LaneSt.imgBit (L : LaneSt) (a : Nat) : Bool := memBit L.image.working a

/-- The routes that the module evaluates: those of its file, none in LINESIDE role (R19). A request there finds no route of its
identity (DESIGN CHOICE, log 102). -/
def State.routes (s : State) : List RouteCfg :=
  match s.role with
  | .central => s.file.routes
  | .lineside => []

/-- A byte with one bit replaced. -/
def setBitOf (x n : Nat) (b : Bool) : Nat :=
  if x.testBit n = b then x else if b then x + 2 ^ n else x - 2 ^ n

def LaneSt.imgSetBit (L : LaneSt) (a : Nat) (b : Bool) : LaneSt :=
  L.imgPut (a / 8) [byteOf (setBitOf (L.imgByte (a / 8)) (a % 8) b)]

/-! ### Records of the working buffer -/

def LaneSt.elemStatus (L : LaneSt) (n : Nat) : Nat := L.imgByte (Img.elem n + 1)

def LaneSt.routeState (L : LaneSt) (r : Nat) : Nat := L.imgByte (Img.route r)
def LaneSt.routeOutcome (L : LaneSt) (r : Nat) : Nat := L.imgByte (Img.route r + 1)
def LaneSt.routeLflags (L : LaneSt) (r : Nat) : Nat := L.imgByte (Img.route r + 2)
def LaneSt.routeCflags (L : LaneSt) (r : Nat) : Nat := L.imgByte (Img.route r + 3)
def LaneSt.routeSlot (L : LaneSt) (r : Nat) : Nat := L.imgLe (Img.route r + 4) 2

def LaneSt.slotState (L : LaneSt) (n : Nat) : Nat := L.imgByte (Img.slot n)

def LaneSt.timerFlags (L : LaneSt) (n : Nat) : Nat := L.imgByte (Img.timer n + 12)
def LaneSt.timerExpiry (L : LaneSt) (n : Nat) : Nat := L.imgLe (Img.timer n) 8
def LaneSt.counterValue (L : LaneSt) (n : Nat) : Nat := L.imgLe (Img.counter n) 4

/-! ### What the file configures -/

def State.timerCfg (s : State) (n : Nat) : Option TimerCfg := s.file.timers.lookup n
def State.counterCfg (s : State) (n : Nat) : Option CounterCfg := s.file.counters.lookup n
def State.chanCfg (s : State) (n : Nat) : ChanCfg := (s.file.chans.lookup n).getD {}
def State.elemByIdent (s : State) (i : Nat) : Option ElemCfg := s.file.elems.find? fun e => e.ident == i
def State.varByIdent (s : State) (i : Nat) : Option VarCfg := s.file.vars.find? fun v => v.ident == i
def State.routeById (s : State) (i : Nat) : Option RouteCfg := s.routes.find? fun r => r.id == i
def State.sessCfg (s : State) (n : Nat) : Option SessCfg := s.file.sessions.find? fun c => c.num == n
def State.unitCfg (s : State) (u : Nat) : Option UnitCfg := s.file.units.find? fun c => c.unit == u
def State.canPortCfg (s : State) (p : Nat) : CanPortCfg :=
  match p with
  | 0 => s.file.canPorts.1.a | 1 => s.file.canPorts.1.b | 2 => s.file.canPorts.1.c | _ => s.file.canPorts.2
def State.canBufCfg (s : State) (p b : Nat) : Option CanBufCfg :=
  s.file.canBufs.find? fun c => c.port == p && c.buf == b

/-- An input channel: configured, not as an output (R241: mode 1 INPUT, 2 OUTPUT). -/
def State.isOutput (s : State) (n : Nat) : Bool := (s.chanCfg n).mode == 2
def State.isInput (s : State) (n : Nat) : Bool := (s.chanCfg n).mode == 1

/-! ### Cycle times (R117, R118), ns -/

/-- T. -/
def State.cycleNs (s : State) : Nat := s.file.tUnits * 250000

/-- B, µs. -/
def budgetUs (tUnits pct : Nat) : Nat := max 60 (tUnits * 250 * pct / 100)

def State.budget (s : State) : Nat := budgetUs s.file.tUnits s.file.pct

def State.tDig (s : State) : Nat := 60 + s.budget
def State.tOut (s : State) : Nat := 100 + s.budget
def State.tPub (s : State) : Nat := 140 + s.budget

/-! ### INP and OUT sources (R161) -/

/-- A source that the table of R161 lists for INP. -/
def inpListed (k : Nat) : Bool :=
  decide (k ≤ 0x401) || decide (0x1000 ≤ k ∧ k < 0x1800) || decide (0x2000 ≤ k ∧ k < 0x2200)

/-- A source that the table of R161 lists for OUT. -/
def outListed (k : Nat) : Bool :=
  decide (k ≤ 0x400) || decide (0x1000 ≤ k ∧ k < 0x1800) || decide (0x2000 ≤ k ∧ k < 0x2200)

/-- The VALID bit of an agreed source; source 0x0000 is always VALID (R163). -/
def State.inpValid (s : State) (k : Nat) : Bool := k == 0 || (s.inpSrc k).toNat.testBit 511

/-- A data bit of the agreed input image: 0 while the source is not VALID (R163), 0 in the reserved bits (R161). -/
def State.inpBit (s : State) (k b : Nat) : Bool :=
  if b = 511 then s.inpValid k
  else if 256 ≤ b then false
  else s.inpValid k && (s.inpSrc k).toNat.testBit b

/-! ### The force table (R490) -/

/-- A force: identity, kind 1 VARIABLE 2 INPUT 3 OUTPUT, channel of the element, value, area. -/
structure Force where
  ident : Nat
  kind  : Nat
  bit   : Nat
  value : Bool
  area  : Nat
  deriving DecidableEq, Repr

/-- Entry `n` of the force table, if it is not empty. -/
def LaneSt.forceAt (L : LaneSt) (n : Nat) : Option Force :=
  let a := Img.force n
  if L.imgByte (a + 2) = 0 then none
  else some ⟨L.imgLe a 2, L.imgByte (a + 2), L.imgByte (a + 3), L.imgByte (a + 4) == 1, L.imgByte (a + 5)⟩

/-- The forces in the table with their places. -/
def LaneSt.forces (L : LaneSt) : List (Nat × Force) :=
  (List.range 256).filterMap fun n => (L.forceAt n).map fun f => (n, f)

/-- The forces as the lanes agree them: the table of the lowest-lettered ACTIVE lane. -/
def State.forces (s : State) : List (Nat × Force) := (s.lane.get s.leadLane).forces

/-- The image bit of a forced variable. -/
def State.forcedVar (s : State) (L : LaneSt) (a : Nat) : Option Bool :=
  L.forces.findSome? fun e =>
    if e.2.kind = 1 then
      match s.varByIdent e.2.ident with
      | some v => if v.bit = a then some e.2.value else none
      | none => none
    else none

/-- The INP or OUT source and bit of a forced channel. -/
def State.forcedChan (s : State) (f : Force) : Option (Nat × Nat) :=
  match s.elemByIdent f.ident with
  | some e => some (e.source, e.first + f.bit)
  | none => none

/-- The force of a kind on a bit of a source. -/
def State.forceOn (s : State) (L : LaneSt) (kind src b : Nat) : Option Bool :=
  L.forces.findSome? fun e =>
    if e.2.kind = kind ∧ s.forcedChan e.2 = some (src, b) then some e.2.value else none

/-! ### Block memories and edge slots (R159, R179) -/

def LaneSt.blkByte (L : LaneSt) (block byte : Nat) : Nat := (memGet L.logic.blkMem (block * 32768 + byte)).toNat

def LaneSt.blkBit (L : LaneSt) (block a : Nat) : Bool := (L.blkByte block (a / 8)).testBit (a % 8)

def LaneSt.blkPut (L : LaneSt) (block byte : Nat) (bs : Bytes) : LaneSt :=
  { L with logic := { L.logic with blkMem := memPuts L.logic.blkMem (block * 32768 + byte) bs } }

def slotBase (k : Nat) : Nat := 0x6000 + 32 * k

/-- The slot count S of a block in the active bank (R179). -/
def LaneSt.slots (L : LaneSt) (block : Nat) : Nat := getD 0 L.logic.slotsOf (L.logic.bank * 16 + block)

/-- The phase count P of the active bank (R171). -/
def LaneSt.phases (L : LaneSt) (block : Nat) : Nat := getD 0 L.logic.phasesOf (L.logic.bank * 16 + block)

/-- The lane's phase count: that of its block 0, at least 1. -/
def LaneSt.phaseCount (L : LaneSt) : Nat := max 1 (L.phases 0)

/-! ### Instruction banks (R155) -/

def bankKey (bank cell word : Nat) : Nat := bank * 2 ^ 22 + cell * 2 ^ 14 + word

def LaneSt.bankWord (L : LaneSt) (bank cell word : Nat) : Word := getD 0 L.logic.banks (bankKey bank cell word)

/-- A cell holds a program in a bank. -/
def LaneSt.holdsProgram (L : LaneSt) (bank cell : Nat) : Bool :=
  L.logic.banks.any fun e => decide (e.1 / 2 ^ 14 = bank * 256 + cell)

end Sys2Proof.Machine
end

