-- ==== Sys2Proof/Machine/Operands.lean ====
section
/-! DEFINITION. Machine/Operands.lean: the operand forms of the logic cells: the fields of the five instruction formats
(R158), the eight operand spaces (R159 to R165), their clocks (R166), and the held-write buffer (R173). -/

namespace Sys2Proof.Machine

/-! ### Fields of an instruction word (R158) -/

/-- Format A: the space and the address. -/
def fmtASpace (f : Nat) : Nat := f / 2 ^ 23
def fmtAAddr (f : Nat) : Nat := f % 2 ^ 23

/-- Format B: the element, the byte of its record, the immediate. -/
def fmtBElem (f : Nat) : Nat := f / 2 ^ 14
def fmtBField (f : Nat) : Nat := f / 2 ^ 8 % 64
def fmtBImm (f : Nat) : Nat := f % 256

/-- Format T: the function, the timer with its preset, the counter; the fields that must be zero. -/
def fmtTFn (f : Nat) : Nat := f / 2 ^ 22
def fmtTTimer (f : Nat) : Nat := f / 2 ^ 9 % 2 ^ 13
def fmtTPreset (f : Nat) : Nat := f / 2 ^ 7 % 4
def fmtTCounter (f : Nat) : Nat := f / 2 ^ 12 % 2 ^ 10

/-- Format D: the unit in ns, the combine bit, the threshold. -/
def fmtDUnit (f : Nat) : Nat :=
  match f / 2 ^ 24 with
  | 0 => 100 | 1 => 10000 | 2 => 1000000 | _ => 100000000
def fmtDCombine (f : Nat) : Bool := f.testBit 23
def fmtDThreshold (f : Nat) : Nat := f % 2 ^ 23

/-- ASSERT: the class, the field that must be zero, the global bit. -/
def fmtCClass (f : Nat) : Nat := f / 2 ^ 23
def fmtCZero (f : Nat) : Nat := f / 2 ^ 20 % 8
def fmtCBit (f : Nat) : Nat := f % 2 ^ 20

/-! ### Reading an operand (R159 to R165) -/

/-- A TC bit: 0 for a timer or counter that the file does not configure (R165). -/
def tcBit (s : State) (L : LaneSt) (a : Nat) : Bool :=
  if a < 0x2000 then (s.timerCfg a).isSome && (L.timerFlags a).testBit 1
  else if a < 0x4000 then (s.timerCfg (a - 0x2000)).isSome && (L.timerFlags (a - 0x2000)).testBit 0
  else if a < 0x4400 then (s.counterCfg (a - 0x4000)).isSome && (L.imgByte (Img.counter (a - 0x4000) + 4)).testBit 0
  else (s.counterCfg (a - 0x4400)).isSome && (L.imgByte (Img.counter (a - 0x4400) + 4)).testBit 1

/-- The bit that a read of a format A operand gives, none where the operand is illegal. -/
def readOperand (s : State) (L : LaneSt) (cell f : Nat) : Option Bool :=
  let a := fmtAAddr f
  match fmtASpace f with
  | 0 => if a < 4096 then some (getD false L.logic.loc (cell * 4096 + a)) else none
  | 1 => if a < 4096 then some (getD false L.logic.prv (cell * 4096 + a)) else none
  | 2 => if a < 0x40000 then some (L.blkBit (cell / 16) a) else none
  | 3 => some (L.imgBit a)
  | 4 => if inpListed (a / 512) then some (s.inpBit (a / 512) (a % 512)) else none
  | 5 => if outListed (a / 512) then
      some (decide (a % 512 < 256) && (L.outSrc (a / 512)).toNat.testBit (a % 512)) else none
  | 6 => if a < 0x4800 then some (tcBit s L a) else none
  | 7 => if a ≤ 1 then some (a == 1) else none
  | _ => none

/-- Where a write goes: a local bit, or a held bit: its space, 32-bit word and bit (R160, R173). -/
inductive WriteTo where
  | loc (bit : Nat)
  | held (space : HSpace) (word bit : Nat)
  deriving DecidableEq, Repr

/-- The target of a write to a format A operand, none where the write is illegal (R159, R161, R162, R179). -/
def writeOperand (L : LaneSt) (cell f : Nat) : Option WriteTo :=
  let a := fmtAAddr f
  match fmtASpace f with
  | 0 => if a < 4096 then some (.loc a) else none
  | 2 =>
    let inSlots := decide (0x6000 ≤ a / 8 ∧ a / 8 < slotBase (L.slots (cell / 16)))
    if a < 0x40000 ∧ !inSlots then some (.held .blk (a / 32) (a % 32)) else none
  | 3 => if imgWritable (a / 8) then some (.held .img (a / 32) (a % 32)) else none
  | 5 => if outListed (a / 512) ∧ a % 512 < 256 then
      some (.held .out (a / 512 * 8 + a % 512 / 32) (a % 32)) else none
  | _ => none

/-! ### Base clocks (R166) -/

/-- A read of a format A operand. -/
def readClocks (f : Nat) : Nat :=
  match fmtASpace f with
  | 0 => 1 | 1 => 1 | 7 => 1 | 2 => 3 | _ => 6

/-- A write of a format A operand. -/
def writeClocks (f : Nat) : Nat := if fmtASpace f = 0 then 1 else 2

/-! ### Edge slots (R179, R182) -/

/-- The stamp of a slot's polarity as a time register takes it. -/
def slotStamp (L : LaneSt) (block k : Nat) (rise : Bool) : TReg :=
  let a := block * 32768 + slotBase k
  let m := L.logic.blkMem
  { time := memLe m (if rise then a else a + 8) 8
    unc := memLe m (if rise then a + 16 else a + 20) 4
    valid := (memLe m (a + 24) 4).testBit (if rise then 24 else 25) }

/-- The slot that an LDT instruction names: space BLK, address [7:0], below S; none where it is illegal. -/
def slotOperand (L : LaneSt) (cell f : Nat) : Option Nat :=
  let a := fmtAAddr f
  if fmtASpace f = 2 ∧ a < 256 ∧ a < L.slots (cell / 16) then some a else none

/-! ### The held-write buffer of a block (R173) -/

/-- A cell's own entry is updated, or a new one stands at the end. -/
def putHeld (w : HeldW) : List HeldW → List HeldW
  | [] => [w]
  | h :: hs =>
    if h.cell = w.cell ∧ h.space = w.space ∧ h.word = w.word then
      { h with mask := h.mask ||| w.mask, val := (h.val &&& ~~~w.mask) ||| w.val } :: hs
    else h :: putHeld w hs

/-- The distinct words that the cells of a block hold: the entries in use of its buffer. -/
def heldWords (hs : List HeldW) (block : Nat) : List (HSpace × Nat) :=
  ((hs.filter fun h => decide (h.cell / 16 = block)).map fun h => (h.space, h.word)).eraseDups

/-- A write would need a 513th entry. -/
def holdFull (hs : List HeldW) (block : Nat) (space : HSpace) (word : Nat) : Bool :=
  let ws := heldWords hs block
  !ws.contains (space, word) && decide (512 ≤ ws.length)

/-- One bit held. -/
def heldBit (cell : Nat) (space : HSpace) (word bit : Nat) (b : Bool) : HeldW :=
  { cell, space, word, mask := BitVec.ofNat 32 (2 ^ bit), val := if b then BitVec.ofNat 32 (2 ^ bit) else 0 }

end Sys2Proof.Machine
end

