-- ==== Sys2Proof/Machine/Flags.lean ====
section
/-! DEFINITION. Machine/Flags.lean: the computations of the cell's accumulator A and enable E: field compares (R166,
R175), time compares (R183), conditional execution (R168, R169). -/

namespace Sys2Proof.Machine

/-- The byte of an element record that format B compares. -/
def fieldByte (L : LaneSt) (f : Nat) : Nat := L.imgByte (Img.elem (fmtBElem f) + fmtBField f)

/-- The element reads UNKNOWN and the field is input-derived: every compare gives 0 (R175, R198). -/
def fieldUnknown (L : LaneSt) (f : Nat) : Bool :=
  decide (0x10 ≤ fmtBField f ∧ fmtBField f < 0x20) && (L.elemStatus (fmtBElem f)).testBit 0

/-- A field compare: the relation of the byte and the immediate, 0 when the element reads UNKNOWN (R175). -/
def fieldCompare (rel : Nat → Nat → Bool) (L : LaneSt) (f : Nat) : Bool :=
  !fieldUnknown L f && rel (fieldByte L f) (fmtBImm f)

/-- Δ and u of R183, ns. -/
def timeDelta (c : CellSt) : Int := (c.t1.time : Int) - c.t0.time
def timeUnc (c : CellSt) : Int := (c.t0.unc : Int) + c.t1.unc + 2000

/-- H of R183, ns. -/
def timeThreshold (f : Nat) : Int := ((fmtDThreshold f * fmtDUnit f : Nat) : Int)

/-- TCGE (R183). -/
def timeGe (c : CellSt) (f : Nat) : Bool :=
  c.t0.valid && c.t1.valid && decide (0 < timeDelta c - timeUnc c)
    && decide (timeThreshold f ≤ timeDelta c - timeUnc c)

/-- TCLT (R183). -/
def timeLt (c : CellSt) (f : Nat) : Bool :=
  c.t0.valid && c.t1.valid && decide (0 < timeDelta c - timeUnc c)
    && decide (timeDelta c + timeUnc c < timeThreshold f)

/-- A takes a value, unless the instruction is skipped (R169). -/
def CellSt.setA (c : CellSt) (v : Bool) : CellSt := if c.e then { c with a := v } else c

def CellSt.setT0 (c : CellSt) (t : TReg) : CellSt := if c.e then { c with t0 := t } else c
def CellSt.setT1 (c : CellSt) (t : TReg) : CellSt := if c.e then { c with t1 := t } else c

end Sys2Proof.Machine
end

