-- ==== Sys2Proof/Machine/Cells.lean ====
section
/-! DEFINITION. Machine/Cells.lean: the logic cells. One meaning for each instruction of R166, all through one operation
that fetches, checks, executes and times an instruction (R24, R155 to R186). -/

namespace Sys2Proof.Machine

/-- What an instruction does: the cell after it, a local bit written, a held bit, a timer or counter command, a failed
assertion, a stack fault, its base clocks. -/
structure CellEff where
  cell  : CellSt
  loc   : Option (Nat × Bool) := none
  held  : Option HeldW := none
  cmd   : Option TcCmd := none
  asrt  : Option AssertRec := none
  fault : Option Nat := none
  base  : Nat
  deriving DecidableEq, Repr

/-- The word that a cell fetches (R155). A cell without a program holds BAR instructions, then END (R172). -/
def LaneSt.fetch (L : LaneSt) (cell : Nat) : Word :=
  if L.holdsProgram L.logic.bank cell then L.bankWord L.logic.bank cell (L.cell cell).pc
  else if L.logic.phase + 1 < L.phaseCount then 0xB0000000 else 0xB4000000

/-- A cell can execute: its lane evaluates, and the cell stands at no barrier and no END (R172). -/
def LaneSt.canExecute (L : LaneSt) (cell : Nat) : Bool :=
  L.logic.evaluating && !(L.cell cell).wait && !(L.cell cell).done

/-- A cell fault: its bit in `CELL_FAULT`, its place in `CELL_FPC`, the cell's bit in `BLK_ERR.CELL` and its report
(R186, R195). Bits: 0 MISMATCH, 1 STACK_OVF, 2 STACK_UNF, 3 STACK_OPEN, 4 ILLEGAL. -/
def State.cellFault (s : State) (l : Lane) (cell bit pc phase : Nat) : State :=
  let b := cell / 16
  let n := cell % 16
  let s := s.upd l fun L => (L.setBits (Reg.CELL_FAULT b n) (2 ^ bit)).setReg (Reg.CELL_FPC b n)
    (BitVec.ofNat 32 (pc + phase * 2 ^ 14))
  s.report l (Blk.ofOff (Base.lf b)) n (2 ^ bit)

/-- The instruction has taken its clocks and the cell stands at the next word. -/
def CellSt.advance (c : CellSt) (clocks : Nat) : CellSt :=
  { c with pc := (c.pc + 1) % 16384, clk := c.clk + clocks, phClk := c.phClk + clocks }

/-- The effects of an instruction on its lane, but for faults. -/
def LaneSt.applyEff (L : LaneSt) (cell : Nat) (e : CellEff) (clocks : Nat) : LaneSt :=
  let L := L.setCell cell fun _ => e.cell.advance clocks
  let g := L.logic
  let loc := match e.loc with
    | some (b, v) => putD false g.loc (cell * 4096 + b) v
    | none => g.loc
  let held := match e.held with
    | some w => if holdFull g.held (cell / 16) w.space w.word then g.held else putHeld w g.held
    | none => g.held
  { L with logic := { g with loc := loc, held := held, tcCmds := g.tcCmds ++ e.cmd.toList,
                             asserts := g.asserts ++ e.asrt.toList } }

/-- The held write of an effect finds the buffer full (R173). -/
def LaneSt.overflows (L : LaneSt) (cell : Nat) (e : CellEff) : Bool :=
  match e.held with
  | some w => holdFull L.logic.held (cell / 16) w.space w.word
  | none => false

/-- One instruction of a cell. The cell executes only what it fetches; a word that `eff` finds illegal raises ILLEGAL
(R158); halves that differ raise MISMATCH and the write is suppressed (R24); a write that would need a 513th entry raises
HOLD_OVF and is discarded (R173). -/
def runCell (x : CellAt) (word : Nat) (eff : LaneSt → CellSt → Option CellEff) (s : State) : State :=
  let cell := x.cell.toNat
  let L := s.lane.get x.lane
  let c := L.cell cell
  if !(L.canExecute cell) || L.fetch cell ≠ BitVec.ofNat 32 word then s
  else
    match eff L c with
    | none =>
      (s.upd x.lane fun L => L.setCell cell fun c => c.advance (1 + x.stall.toNat)).cellFault x.lane cell 4 c.pc c.phase
    | some e =>
      if x.mism then
        (s.upd x.lane fun L => L.setCell cell fun c => c.advance (e.base + x.stall.toNat)).cellFault x.lane cell 0 c.pc
          c.phase
      else
        let ovf := L.overflows cell e
        let s := s.upd x.lane fun L => L.applyEff cell e (e.base + x.stall.toNat)
        let s := if ovf then s.report x.lane (Blk.ofOff (Base.lf (cell / 16))) 16 cell else s
        match e.fault with
        | some b => s.cellFault x.lane cell b c.pc c.phase
        | none => s

/-- The word of an opcode with its operand field. -/
def wordOf (op : Nat) (f : Nat) : Nat := op * 2 ^ 26 + f

/-! ### Shapes of effects -/

/-- A takes a value computed from A and the operand X (R166). -/
def effRead (s : State) (cell f : Nat) (op : Bool → Bool → Bool) (L : LaneSt) (c : CellSt) : Option CellEff :=
  match readOperand s L cell f with
  | some x => some { cell := c.setA (op c.a x), base := readClocks f }
  | none => none

/-- X takes a value when `on` holds and E = 1 (R166, R169). -/
def effWrite (cell f : Nat) (on v : Bool) (L : LaneSt) (c : CellSt) : Option CellEff :=
  match writeOperand L cell f with
  | none => none
  | some t =>
    if c.e && on then
      match t with
      | .loc b => some { cell := c, loc := some (b, v), base := writeClocks f }
      | .held sp w b => some { cell := c, held := some (heldBit cell sp w b v), base := writeClocks f }
    else some { cell := c, base := writeClocks f }

/-- A takes an edge of a local bit against its previous-state bit (R157, R166). -/
def effEdge (cell f : Nat) (edge : Bool → Bool → Bool) (L : LaneSt) (c : CellSt) : Option CellEff :=
  let a := fmtAAddr f
  if fmtASpace f = 0 ∧ a < 4096 then
    some { cell := c.setA (edge (getD false L.logic.loc (cell * 4096 + a)) (getD false L.logic.prv (cell * 4096 + a))),
           base := 1 }
  else none

/-- A time register takes a stamp of an edge slot (R182). -/
def effStamp (cell f : Nat) (rise one : Bool) (L : LaneSt) (c : CellSt) : Option CellEff :=
  match slotOperand L cell f with
  | some k =>
    let t := slotStamp L (cell / 16) k rise
    some { cell := if one then c.setT1 t else c.setT0 t, base := 5 }
  | none => none

/-- A takes a time compare, or A AND it (R183). -/
def effTime (f : Nat) (cmp : CellSt → Nat → Bool) (c : CellSt) : Option CellEff :=
  some { cell := c.setA (if fmtDCombine f then c.a && cmp c f else cmp c f), base := 3 }

/-- A takes a field compare, or A AND it (R175). -/
def effField (f : Nat) (rel : Nat → Nat → Bool) (combine : Bool) (L : LaneSt) (c : CellSt) : Option CellEff :=
  let r := fieldCompare rel L f
  some { cell := c.setA (if combine then c.a && r else r), base := 6 }

/-- A timer command is issued when `on` holds and E = 1 (R169, R176); a timer that the file does not configure is
illegal, as is a field that must be zero (R158, R177). -/
def effTimer (s : State) (cell f fn : Nat) (on stop : Bool) (c : CellSt) : Option CellEff :=
  if (s.timerCfg (fmtTTimer f)).isSome ∧ f % 128 = 0 then
    let cmd : TcCmd := { cell, pc := c.pc, counter := false, fn, idx := fmtTTimer f, preset := fmtTPreset f, stop }
    some { cell := c, base := 2, cmd := if c.e && on then some cmd else none }
  else none

/-- A counter command acts only when A = 1 (R177). -/
def effCounter (s : State) (cell f fn : Nat) (c : CellSt) : Option CellEff :=
  if (s.counterCfg (fmtTCounter f)).isSome ∧ f % 4096 = 0 then
    let cmd : TcCmd := { cell, pc := c.pc, counter := true, fn, idx := fmtTCounter f, preset := 0, stop := false }
    some { cell := c, base := 2, cmd := if c.e && c.a then some cmd else none }
  else none

/-- IF pushes E and sets E to E AND A (R168); on a full stack it changes nothing and raises STACK_OVF (R170). -/
def effIf (f : Nat) (c : CellSt) : Option CellEff :=
  if f ≠ 0 then none
  else if 16 ≤ c.stack.length then some { cell := c, fault := some 1, base := 1 }
  else some { cell := { c with stack := c.e :: c.stack, e := c.e && c.a }, base := 1 }

/-- ELSE sets E to the top of the stack AND NOT E (R168). With an empty stack E stays as it was (DESIGN CHOICE, log 151). -/
def effElse (f : Nat) (c : CellSt) : Option CellEff :=
  if f ≠ 0 then none
  else match c.stack with
    | [] => some { cell := c, fault := some 2, base := 1 }
    | t :: _ => some { cell := { c with e := t && !c.e }, base := 1 }

/-- ENDIF pops E (R168). With an empty stack E and the stack stay as they were (DESIGN CHOICE, log 151). -/
def effEndif (f : Nat) (c : CellSt) : Option CellEff :=
  if f ≠ 0 then none
  else match c.stack with
    | [] => some { cell := c, fault := some 2, base := 1 }
    | t :: r => some { cell := { c with e := t, stack := r }, base := 1 }

/-- BAR and END stop the cell (R172); a stack that is not empty raises STACK_OPEN (R170). -/
def effStop (f : Nat) (done : Bool) (c : CellSt) : Option CellEff :=
  if f ≠ 0 then none
  else some { cell := { c with wait := !done, done := c.done || done }, base := 1,
              fault := if c.stack.isEmpty then none else some 3 }

/-- The global bit in the starting image of the cycle: as published, or as forced (R126, R492). -/
def startBit (s : State) (L : LaneSt) (b : Nat) : Bool :=
  match s.forcedVar L (Img.bits * 8 + b) with
  | some v => v
  | none => memBit L.image.published (Img.bits * 8 + b)

/-- ASSERT with A = 0: the global bit is set at the barrier and the failure recorded with its class (R184). -/
def effAssert (s : State) (cell f : Nat) (L : LaneSt) (c : CellSt) : Option CellEff :=
  let cls := fmtCClass f
  if (cls = 0 ∨ cls = 1 ∨ cls = 4) ∧ fmtCZero f = 0 then
    if c.e && !c.a then
      let b := fmtCBit f
      let w := (Img.bits * 8 + b) / 32
      some { cell := c, base := 2, held := some (heldBit cell .img w (b % 32) true),
             asrt := some { block := cell / 16, cls, bit := b, fresh := !startBit s L b } }
    else some { cell := c, base := 2 }
  else none

/-! ### The instructions -/

/-- NOP does nothing (R166). The row also stands for a word with a reserved opcode or, for TIM and CNT, a reserved
function: such a word is illegal (R158). -/
def execCNop (x : CellAt) (op : BitVec 6) (f : BitVec 26) (s : State) : Host.Outcome State Fault Refusal :=
  .next (runCell x (wordOf op.toNat f.toNat) (fun _ c =>
    if op = 0 ∧ f = 0 then some { cell := c, base := 1 } else none) s)

/-- LD: A ← X (R166). -/
def execCLd (x : CellAt) (f : BitVec 26) (s : State) : Host.Outcome State Fault Refusal :=
  .next (runCell x (wordOf 0x1 f.toNat) (effRead s x.cell.toNat f.toNat fun _ x => x) s)

/-- LDN: A ← NOT X (R166). -/
def execCLdn (x : CellAt) (f : BitVec 26) (s : State) : Host.Outcome State Fault Refusal :=
  .next (runCell x (wordOf 0x2 f.toNat) (effRead s x.cell.toNat f.toNat fun _ x => !x) s)

/-- AND: A ← A AND X (R166). -/
def execCAnd (x : CellAt) (f : BitVec 26) (s : State) : Host.Outcome State Fault Refusal :=
  .next (runCell x (wordOf 0x3 f.toNat) (effRead s x.cell.toNat f.toNat fun a x => a && x) s)

/-- ANDN: A ← A AND NOT X (R166). -/
def execCAndn (x : CellAt) (f : BitVec 26) (s : State) : Host.Outcome State Fault Refusal :=
  .next (runCell x (wordOf 0x4 f.toNat) (effRead s x.cell.toNat f.toNat fun a x => a && !x) s)

/-- OR: A ← A OR X (R166). -/
def execCOr (x : CellAt) (f : BitVec 26) (s : State) : Host.Outcome State Fault Refusal :=
  .next (runCell x (wordOf 0x5 f.toNat) (effRead s x.cell.toNat f.toNat fun a x => a || x) s)

/-- ORN: A ← A OR NOT X (R166). -/
def execCOrn (x : CellAt) (f : BitVec 26) (s : State) : Host.Outcome State Fault Refusal :=
  .next (runCell x (wordOf 0x6 f.toNat) (effRead s x.cell.toNat f.toNat fun a x => a || !x) s)

/-- XOR: A ← A XOR X (R166). -/
def execCXor (x : CellAt) (f : BitVec 26) (s : State) : Host.Outcome State Fault Refusal :=
  .next (runCell x (wordOf 0x7 f.toNat) (effRead s x.cell.toNat f.toNat fun a x => a != x) s)

/-- ST: X ← A (R166). -/
def execCSt (x : CellAt) (f : BitVec 26) (s : State) : Host.Outcome State Fault Refusal :=
  .next (runCell x (wordOf 0x8 f.toNat) (fun L c => effWrite x.cell.toNat f.toNat true c.a L c) s)

/-- STN: X ← NOT A (R166). -/
def execCStn (x : CellAt) (f : BitVec 26) (s : State) : Host.Outcome State Fault Refusal :=
  .next (runCell x (wordOf 0x9 f.toNat) (fun L c => effWrite x.cell.toNat f.toNat true (!c.a) L c) s)

/-- SET: X ← 1 when A = 1 (R166). -/
def execCSet (x : CellAt) (f : BitVec 26) (s : State) : Host.Outcome State Fault Refusal :=
  .next (runCell x (wordOf 0xa f.toNat) (fun L c => effWrite x.cell.toNat f.toNat c.a true L c) s)

/-- RST: X ← 0 when A = 1 (R166). -/
def execCRst (x : CellAt) (f : BitVec 26) (s : State) : Host.Outcome State Fault Refusal :=
  .next (runCell x (wordOf 0xb f.toNat) (fun L c => effWrite x.cell.toNat f.toNat c.a false L c) s)

/-- EDGR: A ← LOC[a] AND NOT PRV[a] (R166). -/
def execCEdgr (x : CellAt) (f : BitVec 26) (s : State) : Host.Outcome State Fault Refusal :=
  .next (runCell x (wordOf 0x0C f.toNat) (effEdge x.cell.toNat f.toNat fun l p => l && !p) s)

/-- EDGF: A ← NOT LOC[a] AND PRV[a] (R166). -/
def execCEdgf (x : CellAt) (f : BitVec 26) (s : State) : Host.Outcome State Fault Refusal :=
  .next (runCell x (wordOf 0x0D f.toNat) (effEdge x.cell.toNat f.toNat fun l p => !l && p) s)

/-- LDT0R: T0 ← rising edge of the slot (R182). -/
def execCLdt0r (x : CellAt) (f : BitVec 26) (s : State) : Host.Outcome State Fault Refusal :=
  .next (runCell x (wordOf 0x10 f.toNat) (effStamp x.cell.toNat f.toNat true false) s)

/-- LDT0F: T0 ← falling edge of the slot (R182). -/
def execCLdt0f (x : CellAt) (f : BitVec 26) (s : State) : Host.Outcome State Fault Refusal :=
  .next (runCell x (wordOf 0x11 f.toNat) (effStamp x.cell.toNat f.toNat false false) s)

/-- LDT1R: T1 ← rising edge of the slot (R182). -/
def execCLdt1r (x : CellAt) (f : BitVec 26) (s : State) : Host.Outcome State Fault Refusal :=
  .next (runCell x (wordOf 0x12 f.toNat) (effStamp x.cell.toNat f.toNat true true) s)

/-- LDT1F: T1 ← falling edge of the slot (R182). -/
def execCLdt1f (x : CellAt) (f : BitVec 26) (s : State) : Host.Outcome State Fault Refusal :=
  .next (runCell x (wordOf 0x13 f.toNat) (effStamp x.cell.toNat f.toNat false true) s)

/-- TCGE: time compare, at least (R183). -/
def execCTcge (x : CellAt) (f : BitVec 26) (s : State) : Host.Outcome State Fault Refusal :=
  .next (runCell x (wordOf 0x14 f.toNat) (fun _ c => effTime f.toNat timeGe c) s)

/-- TCLT: time compare, less than (R183). -/
def execCTclt (x : CellAt) (f : BitVec 26) (s : State) : Host.Outcome State Fault Refusal :=
  .next (runCell x (wordOf 0x15 f.toNat) (fun _ c => effTime f.toNat timeLt c) s)

/-- FEQ: A ← (byte = imm) (R166, R175). -/
def execCFeq (x : CellAt) (f : BitVec 26) (s : State) : Host.Outcome State Fault Refusal :=
  .next (runCell x (wordOf 0x18 f.toNat) (effField f.toNat (fun b i => b == i) false) s)

/-- FNE: A ← (byte ≠ imm) (R166, R175). -/
def execCFne (x : CellAt) (f : BitVec 26) (s : State) : Host.Outcome State Fault Refusal :=
  .next (runCell x (wordOf 0x19 f.toNat) (effField f.toNat (fun b i => b != i) false) s)

/-- FGE: A ← (byte ≥ imm, unsigned) (R166, R175). -/
def execCFge (x : CellAt) (f : BitVec 26) (s : State) : Host.Outcome State Fault Refusal :=
  .next (runCell x (wordOf 0x1a f.toNat) (effField f.toNat (fun b i => decide (i ≤ b)) false) s)

/-- FLT: A ← (byte < imm, unsigned) (R166, R175). -/
def execCFlt (x : CellAt) (f : BitVec 26) (s : State) : Host.Outcome State Fault Refusal :=
  .next (runCell x (wordOf 0x1b f.toNat) (effField f.toNat (fun b i => decide (b < i)) false) s)

/-- FTST: A ← ((byte AND imm) ≠ 0) (R166, R175). -/
def execCFtst (x : CellAt) (f : BitVec 26) (s : State) : Host.Outcome State Fault Refusal :=
  .next (runCell x (wordOf 0x1c f.toNat) (effField f.toNat (fun b i => (b &&& i) != 0) false) s)

/-- FEQA: A ← A AND (byte = imm) (R166, R175). -/
def execCFeqa (x : CellAt) (f : BitVec 26) (s : State) : Host.Outcome State Fault Refusal :=
  .next (runCell x (wordOf 0x1d f.toNat) (effField f.toNat (fun b i => b == i) true) s)

/-- FGEA: A ← A AND (byte ≥ imm) (R166, R175). -/
def execCFgea (x : CellAt) (f : BitVec 26) (s : State) : Host.Outcome State Fault Refusal :=
  .next (runCell x (wordOf 0x1e f.toNat) (effField f.toNat (fun b i => decide (i ≤ b)) true) s)

/-- FTSTA: A ← A AND ((byte AND imm) ≠ 0) (R166, R175). -/
def execCFtsta (x : CellAt) (f : BitVec 26) (s : State) : Host.Outcome State Fault Refusal :=
  .next (runCell x (wordOf 0x1f f.toNat) (effField f.toNat (fun b i => (b &&& i) != 0) true) s)

/-- TIM START: starts the timer if it is not running, when A = 1 (R176). -/
def execCTimStart (x : CellAt) (f : BitVec 22) (s : State) : Host.Outcome State Fault Refusal :=
  .next (runCell x (wordOf 0x20 (0 * 2 ^ 22 + f.toNat)) (fun _ c => effTimer s x.cell.toNat (0 * 2 ^ 22 + f.toNat) 0 c.a false c) s)

/-- TIM RESTART: starts the timer, discarding any run, when A = 1 (R176). -/
def execCTimRestart (x : CellAt) (f : BitVec 22) (s : State) : Host.Outcome State Fault Refusal :=
  .next (runCell x (wordOf 0x20 (1 * 2 ^ 22 + f.toNat)) (fun _ c => effTimer s x.cell.toNat (1 * 2 ^ 22 + f.toNat) 1 c.a false c) s)

/-- TIM STOP: stops the timer, when A = 1 (R176). -/
def execCTimStop (x : CellAt) (f : BitVec 22) (s : State) : Host.Outcome State Fault Refusal :=
  .next (runCell x (wordOf 0x20 (2 * 2 ^ 22 + f.toNat)) (fun _ c => effTimer s x.cell.toNat (2 * 2 ^ 22 + f.toNat) 2 c.a true c) s)

/-- TIM RUNWHILE: as START with A = 1, as STOP with A = 0 (R176). -/
def execCTimRunwhile (x : CellAt) (f : BitVec 22) (s : State) : Host.Outcome State Fault Refusal :=
  .next (runCell x (wordOf 0x20 (3 * 2 ^ 22 + f.toNat)) (fun _ c => effTimer s x.cell.toNat (3 * 2 ^ 22 + f.toNat) (if c.a then 0 else 2) true (!c.a) c) s)

/-- CNT INC: adds 1, when A = 1 (R177). -/
def execCCntInc (x : CellAt) (f : BitVec 22) (s : State) : Host.Outcome State Fault Refusal :=
  .next (runCell x (wordOf 0x21 (0 * 2 ^ 22 + f.toNat)) (fun _ c => effCounter s x.cell.toNat (0 * 2 ^ 22 + f.toNat) 0 c) s)

/-- CNT DEC: subtracts 1, when A = 1 (R177). -/
def execCCntDec (x : CellAt) (f : BitVec 22) (s : State) : Host.Outcome State Fault Refusal :=
  .next (runCell x (wordOf 0x21 (1 * 2 ^ 22 + f.toNat)) (fun _ c => effCounter s x.cell.toNat (1 * 2 ^ 22 + f.toNat) 1 c) s)

/-- CNT CLR: sets 0, when A = 1 (R177). -/
def execCCntClr (x : CellAt) (f : BitVec 22) (s : State) : Host.Outcome State Fault Refusal :=
  .next (runCell x (wordOf 0x21 (2 * 2 ^ 22 + f.toNat)) (fun _ c => effCounter s x.cell.toNat (2 * 2 ^ 22 + f.toNat) 2 c) s)

/-- CNT LOAD: sets the counter's preset, when A = 1 (R177). -/
def execCCntLoad (x : CellAt) (f : BitVec 22) (s : State) : Host.Outcome State Fault Refusal :=
  .next (runCell x (wordOf 0x21 (3 * 2 ^ 22 + f.toNat)) (fun _ c => effCounter s x.cell.toNat (3 * 2 ^ 22 + f.toNat) 3 c) s)

/-- IF: push E; E ← E AND A (R168). -/
def execCIf (x : CellAt) (f : BitVec 26) (s : State) : Host.Outcome State Fault Refusal :=
  .next (runCell x (wordOf 0x28 f.toNat) (fun _ c => effIf f.toNat c) s)

/-- ELSE: E ← top of stack AND NOT E (R168). -/
def execCElse (x : CellAt) (f : BitVec 26) (s : State) : Host.Outcome State Fault Refusal :=
  .next (runCell x (wordOf 0x29 f.toNat) (fun _ c => effElse f.toNat c) s)

/-- ENDIF: E ← pop (R168). -/
def execCEndif (x : CellAt) (f : BitVec 26) (s : State) : Host.Outcome State Fault Refusal :=
  .next (runCell x (wordOf 0x2A f.toNat) (fun _ c => effEndif f.toNat c) s)

/-- BAR: end of phase (R172). -/
def execCBar (x : CellAt) (f : BitVec 26) (s : State) : Host.Outcome State Fault Refusal :=
  .next (runCell x (wordOf 0x2C f.toNat) (fun _ c => effStop f.toNat false c) s)

/-- END: end of the cell's program (R172). `CELL_CLK` takes the clocks since evaluation began (R194). -/
def execCEnd (x : CellAt) (f : BitVec 26) (s : State) : Host.Outcome State Fault Refusal :=
  let cell := x.cell.toNat
  let s' := runCell x (wordOf 0x2D f.toNat) (fun _ c => effStop f.toNat true c) s
  let L := s'.lane.get x.lane
  let ended := !((s.lane.get x.lane).cell cell).done && (L.cell cell).done
  .next (if ended then s'.upd x.lane fun L =>
    L.setReg (Reg.CELL_CLK (cell / 16) (cell % 16))
      (BitVec.ofNat 32 (min (L.logic.evalClk + (L.cell cell).phClk) 0xFFFFFF)) else s')

/-- ASSERT: assertion on A (R184). -/
def execCAssert (x : CellAt) (f : BitVec 26) (s : State) : Host.Outcome State Fault Refusal :=
  .next (runCell x (wordOf 0x30 f.toNat) (effAssert s x.cell.toNat f.toNat) s)

end Sys2Proof.Machine
end

