-- ==== Sys2Proof/Machine/Access.lean ====
section
/-! DEFINITION. Machine/Access.lean: what every register access shares: roles (R95), refusals (R83), write tokens (R85
to R87), the write journal (R93), the result ring (R94), multi-word groups and holding copies (R110). -/

namespace Sys2Proof.Machine

/-! ### Roles (R95, R96, R486) -/

/-- The role of a port: the host port's from the file, a maintenance session's from its certificate, CONFIGURE for the
module's own accesses. -/
def State.accessOf (s : State) (p : Port) : Access :=
  match p with
  | .host => Access.ofCode s.file.hpRole.toNat
  | .maint n => if (s.maintSt n.toNat).isOpen then (s.maintSt n.toNat).access else .view
  | .internal => .configure

/-- The port carries a maintenance certificate (R486); the host port carries none. -/
def State.hasCert (s : State) (p : Port) : Bool :=
  match p with
  | .maint n => (s.maintSt n.toNat).isOpen && (s.maintSt n.toNat).cert && decide ((s.maintSt n.toNat).access = .configure)
  | _ => false

/-- The first four bytes of the digest of the writer's certificate; 0 for the host port (R490). -/
def State.certId (s : State) (p : Port) : Word :=
  match p with
  | .maint n => (s.maintSt n.toNat).certId
  | _ => 0

/-! ### Refusals (R83, R84) -/

namespace Reason
abbrev notBroadcast : Nat := 0x01
abbrev noToken : Nat := 0x02
abbrev tokenInvalid : Nat := 0x03
abbrev tokenExpired : Nat := 0x04
abbrev laneDisagree : Nat := 0x05
abbrev outOfRange : Nat := 0x06
abbrev wrongState : Nat := 0x07
abbrev degraded : Nat := 0x08
abbrev standby : Nat := 0x09
abbrev role : Nat := 0x0A
abbrev inReset : Nat := 0x0B
abbrev busy : Nat := 0x0C
abbrev testOnly : Nat := 0x0D
abbrev readOnly : Nat := 0x0E
abbrev votedWrite : Nat := 0x0F
abbrev broadcastRead : Nat := 0x10
abbrev missing : Nat := 0x11
abbrev noAnswer : Nat := 0x12
end Reason

/-- `BLK_STAT` after a refusal (R79, R83). -/
def refusedStat (v : Word) (p : Port) (reason : Nat) : Word :=
  let v := if v.toNat.testBit 8 then setField v 9 1 1 else setField v 8 1 1
  setField (setField v 16 8 reason) 24 8 (portCode p)

/-- The page that records a refusal: that of the address, the image controller's for the image window (R150). -/
def refusalPage (off : Nat) : Nat := if inImageWindow off then Base.image else off / 0x1000 * 0x1000

/-- A lane refuses an access to `addr`, as presented with its aperture (R83): the page's `BLK_STAT` and
`BLK_CNT.REFUSALS`, a NOTE in its book. -/
def LaneSt.refuse (L : LaneSt) (l : Lane) (p : Port) (addr reason cycle : Nat) : LaneSt :=
  let page := refusalPage (addr % 0x10000000)
  let k := Blk.ofOff page
  let L := L.setReg (page + 0xC) (refusedStat (L.reg (page + 0xC)) p reason)
  let L := L.addFld (page + 0x2C) 16 16 1
  L.record (obPath l k.region.toNat k.block.toNat 0x1F) (obCode 2 reason) 0 0 cycle
    (obData (addr + portCode p * 2 ^ 32))

def State.refuseIn (s : State) (ls : LaneSet) (p : Port) (addr reason : Nat) : State :=
  s.updIn ls fun l L => L.refuse l p addr reason s.cyc.num

/-- A refusal that no lane receives is recorded in the module access block (R83); its NOTE stands in the books under
module hardware (R455). -/
def State.refuseModule (s : State) (p : Port) (page addr reason : Nat) : State :=
  if s.mstate = .off then s else
  let s := s.setMreg (page + 0xC) (refusedStat (s.mreg (page + 0xC)) p reason)
  let s := s.addMfld (page + 0x2C) 16 16 1
  s.updIn s.parts fun l L => L.record (obPath l 0xF (page / 0x1000) 0x1F) (obCode 2 reason) 0 0 s.cyc.num
    (obData (addr + portCode p * 2 ^ 32))

/-! ### Write tokens (R85 to R87) -/

/-- Every lane advances the generator of a page and issues the new value as its current token (R86). -/
def LaneSt.issueToken (L : LaneSt) (p : Port) (page : Nat) : LaneSt :=
  let n := getD 0 L.gens page + 1
  { L with
    gens := putD 0 L.gens page n
    tokens := (L.tokens.filter fun t => decide (t.page ≠ page)) ++
      [{ page, value := Config.token L.seed page n, port := p, at_ := L.clock }] }

/-- The current token of a page. -/
def LaneSt.tokenOf (L : LaneSt) (page : Nat) : Option Token := L.tokens.find? fun t => t.page == page

/-- A token that is presented is used up, whatever becomes of the write (R87). -/
def LaneSt.useToken (L : LaneSt) (page : Nat) (v : Half) : LaneSt :=
  { L with tokens := L.tokens.filter fun t => !(t.page == page && t.value == v) }

/-- Steps 3 to 5 of R88: the reason, or 0. -/
def LaneSt.tokenCheck (L : LaneSt) (p : Port) (page : Nat) (v : Half) : Nat :=
  if v = 0 then Reason.noToken
  else match L.tokenOf page with
    | some t =>
      if t.value ≠ v ∨ t.port ≠ p then Reason.tokenInvalid
      else if t.at_ + 100000000 < L.clock then Reason.tokenExpired else 0
    | none => Reason.tokenInvalid

/-! ### What a register keeps of an accepted value -/

/-- The bits of a WB register that it keeps: not the command bits, which read 0 (R79, R193, R283, R383, R417, R462, R566),
nor `LF_SHD_CTRL.OPEN`, which follows the window. -/
def wbKept (off : Nat) : Nat :=
  match pageOf off, off % 0x1000 with
  | some _, 0x08 => 0x5
  | some _, 0x20 => 0x3FFFF1F
  | some (.lf, _), 0x4C => 0x1FFF0
  | some (.bank, _), 0x48 => 0
  | some (.tb, _), 0x6C => 0x3F
  | some (.tally, _), 0x48 => 0
  | some (.fc, _), 0x58 => 0
  | some (.xo, _), 0x48 => 0
  | _, _ => match rowOf off with | some r => r.wb ||| r.rw | none => 0

/-- A WB register after an accepted value: in `BLK_ERR_EN` a vital detector's bit stays 1 (R81); bit 31 of the stored
`BLK_CLASS` word marks that a write has been accepted. -/
def keepWb (off : Nat) (old d : Word) : Word :=
  match pageOf off, off % 0x1000 with
  | some (p, i), 0x14 => maskWrite old (d ||| BitVec.ofNat 32 (vitalMask p i)) (detMask p i)
  | some _, 0x24 => (d &&& 0x71F) ||| 0x80000000
  | _, _ => maskWrite old d (wbKept off)

/-! ### The write journal (R93) -/

/-- The place of a register in the journal: its entry, or the first unused one; none when the journal is full. -/
def LaneSt.journalPlace (L : LaneSt) (addr : Nat) : Option Nat :=
  let used (n : Nat) : Bool := L.imgLe (Img.journal + 8 * n) 8 != 0
  match (List.range 512).find? (fun n => used n && L.imgLe (Img.journal + 8 * n) 4 == addr) with
  | some n => some n
  | none => (List.range 512).find? fun n => !used n

/-- The accepted value of a register entered in the journal, whole as it was written, reserved bits included (DESIGN CHOICE,
log 84: R93 does not say whether they read 0 there). -/
def LaneSt.journal (L : LaneSt) (addr : Nat) (v : Word) : LaneSt :=
  match L.journalPlace addr with
  | some n => (L.imgPutLe (Img.journal + 8 * n) 4 addr).imgPutLe (Img.journal + 8 * n + 4) 4 v.toNat
  | none => L

/-! ### Acknowledge after copy (R144) and the result ring (R94, R115) -/

/-- The module holds the role and has a synchronised standby. -/
def State.hasStandby (s : State) : Bool :=
  decide (s.xo.role = .holder ∨ s.xo.role = .handing) && s.xo.hb
    && (match s.xo.peer with | some b => b.sync == 2 | none => false)

/-- The generation that the next publication carries: three on after a takeover (R135), otherwise one (R134). -/
def State.nextGen (s : State) : Nat := s.gen + (if s.xo.takeover then 3 else 1)

/-- A held DONE result of an entry of the ring. -/
def HeldItem.ofRing (n : Nat) : HeldItem → Bool
  | .done _ _ m => m == n
  | .telegram _ _ _ _ _ _ _ _ => false

/-- A new entry of the ring, PENDING; the entry that stood in its place is gone, with a DONE that was held for it. -/
def State.ringPut (s : State) (p : Port) (tag : Byte) : State :=
  let s := s.setMreg (Reg.ACC_WRRES s.ringNext) (BitVec.ofNat 32 (tag.toNat + portCode p * 256 + 0x10000))
  let s := { s with held := s.held.filter fun h => !h.ofRing s.ringNext }
  { s with ringNext := (s.ringNext + 1) % 16 }

/-- The place of a port and tag's latest PENDING entry. -/
def State.ringFind (s : State) (p : Port) (tag : Byte) : Option Nat :=
  ((List.range 16).map fun i => (s.ringNext + 15 - i) % 16).find? fun n =>
    let v := (s.mreg (Reg.ACC_WRRES n)).toNat
    v % 65536 == tag.toNat + portCode p * 256 && v / 65536 % 8 == 1

/-- The outcome of a write: REFUSED with its reason, or AGREED, which becomes DONE at once without a synchronised
standby and is held until its generation is confirmed with one (R94, R144). -/
def State.ringResult (s : State) (p : Port) (tag : Byte) (reason : Nat) : State :=
  match s.ringFind p tag with
  | none => s
  | some n =>
    if reason ≠ 0 then
      (s.setMfld (Reg.ACC_WRRES n) 16 3 4).setMfld (Reg.ACC_WRRES n) 24 8 reason
    else if s.hasStandby then
      let s := s.setMfld (Reg.ACC_WRRES n) 16 3 2
      { s with held := s.held ++ [.done s.nextGen s.now n] }
    else s.setMfld (Reg.ACC_WRRES n) 16 3 3

/-! ### Multi-word groups (R110) -/

/-- The group that an offset of a lane aperture belongs to: the offset of its lowest word, its words. -/
def groupOf (off : Nat) : Option (Nat × Nat) :=
  if off = Reg.IMAGE_GEN ∨ off = Reg.IMAGE_GEN_HI then some (Reg.IMAGE_GEN, 2)
  else if off = Reg.CYC_NUM ∨ off = Reg.CYC_NUM_HI then some (Reg.CYC_NUM, 2)
  else if off = Reg.STC_NOW_LO ∨ off = Reg.STC_NOW_HI then some (Reg.STC_NOW_LO, 2)
  else if off = Reg.PL_BCYCLE ∨ off = Reg.PL_BCYCLE_HI then some (Reg.PL_BCYCLE, 2)
  else if Base.ob + 0x80 ≤ off ∧ off < Base.ob + 0xA0 then some (Base.ob + 0x80, 8)
  else if Base.tally + 0x100 ≤ off ∧ off < Base.tally + 0x200 then some (Base.tally + 0x100, 64)
  else if Base.cv 0 ≤ off ∧ off < Base.cv 32 ∧ (off % 0x1000 = 0x80 ∨ off % 0x1000 = 0x84) then
    some (off / 0x1000 * 0x1000 + 0x80, 2)
  else if Base.cv 0 ≤ off ∧ off < Base.cv 32 ∧ (off % 0x1000 = 0x78 ∨ off % 0x1000 = 0x7C) then
    some (off / 0x1000 * 0x1000 + 0x78, 2)
  else none

/-- The group of an offset of the module aperture. -/
def modGroupOf (off : Nat) : Option (Nat × Nat) :=
  if off = Reg.KA_CLK_LO ∨ off = Reg.KA_CLK_HI then some (Reg.KA_CLK_LO, 2) else none

/-- The holding copy of a port's group, while it stands: 1 ms from the latch. -/
def findHolding (hs : List Holding) (p : Port) (base now : Nat) : Option (List Word) :=
  (hs.find? fun h => h.port == p && h.base == base && decide (now < h.at_ + 1000000)).map fun h => h.words

/-- A group latched for a port. -/
def putHolding (hs : List Holding) (h : Holding) : List Holding :=
  (hs.filter fun x => !(x.port == h.port && x.base == h.base)) ++ [h]

/-- Registers held per port and session (R235, R342, R383, R461, R464, R555). -/
def perPort (off : Nat) : Bool :=
  off == Reg.TMR_SEL || off == Reg.CNT_SEL || off == Reg.PL_UNIT_SEL || off == Reg.TB_SEL || off == Reg.FC_CSEL || off == Reg.TALLY_CUR
    || off == Reg.OB_SEL || (decide (Base.cb 0 ≤ off ∧ off < Base.cb 4) && off % 0x1000 == 0x58)

/-- The data ports of R101. -/
def dataPort (off : Nat) : Bool :=
  off == Reg.SV_DLT_DATA || (decide (off < 0x10000) && off % 0x1000 == 0x54)
    || (decide (Base.cv 0 ≤ off ∧ off < Base.cv 32)
        && (off % 0x1000 == 0x64 || off % 0x1000 == 0x68 || off % 0x1000 == 0x6C))

end Sys2Proof.Machine
end

