-- ==== Sys2Proof/Machine/Tally.lean ====
section
/-! DEFINITION. Machine/Tally.lean: the Tally Recorder (R557 to R567): records in SRAM, their samples, their copies in
MRAM. The offsets of a payload are those of its slot (R558). -/

namespace Sys2Proof.Machine

/-! ### Records (R561) -/

/-- The group of a record; none where the record is reserved. R561 lists no record for the vote counters whose history R62 sends
here: none is kept (DESIGN CHOICE, log 98). -/
def tallyGroup (role : Role) (r : Nat) : Option Nat :=
  if r < 20 then some 0
  else if 64 ≤ r ∧ r < 80 then some 2
  else if r = 80 then some 3
  else if 80 < r ∧ r < 1104 then (if role = .central then some 3 else none)
  else if 1104 ≤ r ∧ r < 5200 then some 1
  else none

/-- The records of a group, ascending. -/
def tallyRecords (role : Role) (g : Nat) : List Nat :=
  (List.range 5200).filter fun r => tallyGroup role r == some g

/-- A field of a record's payload. -/
def LaneSt.payLe (L : LaneSt) (r off n : Nat) : Nat := memLe (L.tallyRec r).payload (off - 16) n

/-- A field replaced; the record has changed. -/
def LaneSt.payPut (L : LaneSt) (r off n v : Nat) : LaneSt :=
  L.setTally r fun t => { t with payload := memPuts t.payload (off - 16) (toLe n v), dirty := true }

/-- A saturating count in a payload. -/
def LaneSt.payAdd (L : LaneSt) (r off n k : Nat) : LaneSt := L.payPut r off n (satAdd (8 * n) (L.payLe r off n) k)

/-- The bin of a sample; bins 0 and 31 take what lies outside (R561). `b` is B in µs. -/
def tallyBin (b r : Nat) (v : Int) : Nat :=
  let i : Int :=
    if r = 0 then (v - 16000) / 4000
    else if r < 3 then (v + 500) / 50
    else if r = 3 then v * 32 / ((100 * b : Nat) : Int)
    else if r < 20 then (v - 16000) / 500
    else if r < 1104 then v
    else v / 250
  (max 0 (min 31 i)).toNat

/-- A stored extreme as a number: signed in the temperature records. -/
def tallyValue (r raw : Nat) : Int := if r = 1 ∨ r = 2 then (BitVec.ofNat 32 raw).toInt else raw

/-- A sample of a histogram record: its bin, the extremes with their times, the count. -/
def LaneSt.tallySample (L : LaneSt) (b r : Nat) (v : Int) : LaneSt :=
  let first : Bool := L.payLe r 0xA8 4 == 0
  let raw := (BitVec.ofInt 32 v).toNat
  let low : Bool := first || decide (v < tallyValue r (L.payLe r 0x90 4))
  let high : Bool := first || decide (tallyValue r (L.payLe r 0x94 4) < v)
  let L := L.payAdd r (0x10 + 4 * tallyBin b r v) 4 1
  let L := if low then (L.payPut r 0x90 4 raw).payPut r 0x98 8 L.clock else L
  let L := if high then (L.payPut r 0x94 4 raw).payPut r 0xA0 8 L.clock else L
  L.payAdd r 0xA8 4 1

/-- In STANDBY a lane updates group 0 only (R563). -/
def State.tallies (s : State) : Bool := s.mstate != .standby

/-- A channel's command has changed from OFF to ON in a lane (R561). -/
def LaneSt.tallyOn (L : LaneSt) (ch : Nat) : LaneSt := L.payAdd (64 + ch / 16) (0x10 + 4 * (ch % 16)) 4 1

/-- An overcurrent trip (R260, R561). -/
def State.tallyTrip (s : State) (ch : Nat) : State :=
  if s.tallies then s.updIn s.parts fun _ L => L.payAdd (64 + ch / 16) (0x50 + 2 * (ch % 16)) 2 1 else s

/-- UNIT_LOST of a lineside unit (R332, R561). -/
def State.tallyLost (s : State) (u : Nat) : State :=
  if s.tallies ∧ tallyGroup s.role (79 + u) = some 3 then s.updIn s.parts fun _ L => L.payAdd (79 + u) 0xAC 4 1 else s

/-- A throw of a point element (R562): the committed `THROW_MS`, and the element's identity. -/
def LaneSt.tallyThrow (L : LaneSt) (b n : Nat) : LaneSt :=
  (L.tallySample b (1104 + n) (L.imgLe (Img.elem n + 0x24) 2 : Nat)).payPut (1104 + n) 0xAC 4 (L.imgLe (Img.elem n + 6) 2)

/-- A larger age of a link record in the present second. -/
def LaneSt.tallyAge (L : LaneSt) (r age : Nat) : LaneSt :=
  { L with acc := { L.acc with ages := putD 0 L.acc.ages r (max (getD 0 L.acc.ages r) (age + 1)) } }

/-- An evaluation time in the present second, 10 ns. -/
def LaneSt.tallyEval (L : LaneSt) (t : Nat) : LaneSt :=
  { L with acc := { L.acc with eval := some (match L.acc.eval with | some x => max x t | none => t) } }

/-- The records whose samples are means of what the module's own sensors read: free values (log 10). -/
def sensedRecords : List Nat := [0, 1, 2] ++ (List.range 16).map fun i => i + 4

/-- One lane at the end of a second: the samples of R561. `k` counts the free values drawn before. -/
def LaneSt.tallySecond (L : LaneSt) (b k : Nat) (all : Bool) : LaneSt :=
  let L := (sensedRecords.foldl (fun (q : LaneSt × Nat) r =>
    let w := (Config.freeWord (k + q.2)).toNat
    (q.1.tallySample b r (if r = 1 ∨ r = 2 then tallyValue r w else w), q.2 + 1)) (L, 0)).1
  let L := match L.acc.eval with
    | some t => L.tallySample b 3 (t : Nat)
    | none => L
  let L := if all then L.acc.ages.foldl (fun L e => L.tallySample b e.1 ((e.2 - 1 : Nat) : Int)) L else L
  { L with acc := { sec := L.clock / 1000000000, eval := none, ages := [] } }

/-- The lanes whose second has ended take their samples. -/
def State.tallyTick (s : State) : State :=
  let due (l : Lane) : Bool := (s.lane.get l).clock / 1000000000 != (s.lane.get l).acc.sec
  if due .A || due .B || due .C then
    let k := s.freeCtr
    let s' := s.updAll fun l L => if due l then L.tallySecond s.budget (k + 19 * l.code) s.tallies else L
    { s' with freeCtr := k + 57 }
  else s

/-! ### Copies in MRAM (R558 to R560) -/

def LaneSt.slotMem (L : LaneSt) (slot : Nat) : List Host.Cell := (getD ({} : TallySlot) L.mram slot).bytes

def LaneSt.setSlot (L : LaneSt) (slot : Nat) (f : List Host.Cell → List Host.Cell) : LaneSt :=
  { L with mram := putD ({} : TallySlot) L.mram slot { bytes := f (L.slotMem slot) } }

/-- `MARK` of a valid copy. -/
def tallyMark : Nat := 0x7A117A11

/-- `CHECK` of a slot's bytes 0x00 to 0xF7, its byte address folded in as prefix. -/
def slotCheck (slot : Nat) (m : List Host.Cell) : Nat := crc32c (toLe 4 (256 * slot) ++ memBytes m 0 0xF8)

def LaneSt.slotMarked (L : LaneSt) (slot : Nat) : Bool := memLe (L.slotMem slot) 0xFC 4 == tallyMark

def LaneSt.slotChecks (L : LaneSt) (slot : Nat) : Bool := memLe (L.slotMem slot) 0xF8 4 == slotCheck slot (L.slotMem slot)

def LaneSt.slotValid (L : LaneSt) (slot : Nat) : Bool := L.slotMarked slot && L.slotChecks slot

def LaneSt.slotGen (L : LaneSt) (slot : Nat) : Nat := memLe (L.slotMem slot) 4 4

/-- The slot of a record's newest valid copy. -/
def LaneSt.newestSlot (L : LaneSt) (r : Nat) : Option Nat :=
  match L.slotValid (2 * r), L.slotValid (2 * r + 1) with
  | true, true =>
    let d := (L.slotGen (2 * r + 1) + 2 ^ 32 - L.slotGen (2 * r)) % 2 ^ 32
    some (if d ≠ 0 ∧ d < 2 ^ 31 then 2 * r + 1 else 2 * r)
  | true, false => some (2 * r)
  | false, true => some (2 * r + 1)
  | false, false => none

/-- The bytes 0x00 to 0xF7 of a record's next copy. -/
def LaneSt.copyBytes (L : LaneSt) (role : Role) (r gen : Nat) : Bytes :=
  toLe 4 (r + (tallyGroup role r).getD 0 * 0x10000 + 0x1000000) ++ toLe 4 gen ++ toLe 8 L.clock
    ++ memBytes (L.tallyRec r).payload 0 232

/-- A record written to the copy that does not hold the newest valid generation (R559): its mark is cleared, its bytes
are written, and it is marked when they read back. -/
def LaneSt.writeCopy (L : LaneSt) (role : Role) (r : Nat) : LaneSt :=
  let slot := match L.newestSlot r with | some n => (if n = 2 * r then 2 * r + 1 else 2 * r) | none => 2 * r
  let gen := (match L.newestSlot r with | some n => L.slotGen n | none => 0) + 1
  let bs := L.copyBytes role r (gen % 2 ^ 32)
  let L := L.setSlot slot fun _ =>
    memPuts (memPuts [] 0 bs) 0xF8 (toLe 4 (crc32c (toLe 4 (256 * slot) ++ bs)) ++ toLe 4 tallyMark)
  L.setTally r fun t => { t with dirty := false, writtenAt := some L.clock }

/-- A write whose read-back fails: the copy stands unmarked, with bytes that no rule states (free values, log 10). -/
def LaneSt.failCopy (L : LaneSt) (r k : Nat) : LaneSt :=
  let slot := match L.newestSlot r with | some n => (if n = 2 * r then 2 * r + 1 else 2 * r) | none => 2 * r
  let L := L.setSlot slot fun _ => memPuts [] 0 ((List.range 63).flatMap fun i => toLe 4 (Config.freeWord (k + i)).toNat)
  L.setTally r fun t => { t with writtenAt := some L.clock }

/-- A record written by a lane, with the result of its read-back. -/
def State.storeRecord (s : State) (l : Lane) (r : Nat) (ok : Bool) : State :=
  if ok then s.upd l fun L => L.writeCopy s.role r
  else
    let k := s.freeCtr
    let s := ({ s with freeCtr := k + 63 }).upd l fun L => (L.failCopy r k).addFld Reg.TALLY_CNT 16 16 1
    (s.report l (Blk.ofOff Base.tally) 1 r).eventIn l Base.tally 0x212 r

/-- In BOOT a lane loads the newer valid copy of every record; a record without one starts from zero (R559). -/
def LaneSt.loadTally (L : LaneSt) : LaneSt :=
  let recs := (L.mram.map fun e => e.1 / 2).foldl (fun xs r => insertNat r xs) []
  let L0 : LaneSt := { L with tally := [] }
  (recs.foldl (fun L r => match L.newestSlot r with
    | some n => L.setTally r fun _ => { payload := memPuts [] 0 (memBytes (L.slotMem n) 16 232) }
    | none => L) L0).setFld Reg.TALLY_STAT 0 1 1

/-- TALLY_WRITE (R557, R559): a changed record goes to MRAM, at most once in 10 s. -/
def execTallyWrite (l : Lane) (rec : BitVec 13) (readbackOk : Bool) (s : State) : Host.Outcome State Fault Refusal :=
  let r := rec.toNat
  let t := (s.lane.get l).tallyRec r
  let early : Bool := match t.writtenAt with | some w => decide ((s.lane.get l).clock < w + 10000000000) | none => false
  if s.mstate ≠ .off ∧ (tallyGroup s.role r).isSome ∧ t.dirty ∧ !early then .next (s.storeRecord l r readbackOk)
  else .next s

/-- A background pass is complete, counted, and the next begins (R528). -/
def LaneSt.countPass (L : LaneSt) (u now : Nat) : LaneSt :=
  (L.addFld (Reg.CV_CNT u) 24 8 1).setCvUnit u fun c => { c with passAt := now }

/-- No marked copy stands in a higher slot: the pass over the copies ends with this one (ascending, as R524 has it; DEDUCED, log 159). -/
def LaneSt.lastMarked (L : LaneSt) (slot : Nat) : Bool := L.mram.all fun e => decide (e.1 ≤ slot) || !L.slotMarked e.1

/-- TALLY_CHECK (R560): unit 17 checks a marked copy; one that fails loses its mark. The last one ends the pass (R528). -/
def execTallyCheck (l : Lane) (slot : BitVec 14) (s : State) : Host.Outcome State Fault Refusal :=
  let n := slot.toNat
  let L := s.lane.get l
  if s.mstate = .off ∨ !L.slotMarked n then .next s
  else
    let s := if L.lastMarked n then s.upd l fun L => L.countPass 17 s.now else s
    if L.slotChecks n then .next s
    else
      let s := s.upd l fun L => (L.setSlot n fun m => memPuts m 0xFC (toLe 4 0)).addFld Reg.TALLY_CNT 0 16 1
      .next ((s.report l (Blk.ofOff Base.tally) 0 n).eventIn l Base.tally 0x211 n)

/-! ### Clearing (R565) -/

/-- Every record of the named groups is written with a zero payload, but for those in `bad`. -/
def LaneSt.clearTally (L : LaneSt) (role : Role) (groups : Nat) (bad : List Nat) : LaneSt :=
  (List.range 4).foldl (fun L g =>
    if groups.testBit g then
      (tallyRecords role g).foldl (fun L r =>
        let L := L.setTally r fun t => { t with payload := [], dirty := true }
        if bad.contains r then L else L.writeCopy role r) L
    else L) L

/-- The records of a lane among the copies whose read-back fails. -/
def badOf (bad : List (Lane × BitVec 13)) (l : Lane) : List Nat :=
  (bad.filter fun e => e.1 == l).map fun e => e.2.toNat

/-- TALLY_CLEAR takes effect, recorded TALLY_CLEARED with the groups; `bad` are the copies whose read-back fails. -/
def State.tallyClearGo (s : State) (d : Word) (bad : List (Lane × BitVec 13)) : State :=
  let g := fieldOf d 0 4
  let s := s.updAll fun l L => L.clearTally s.role g (badOf bad l)
  let s := (bad.filter fun e => match tallyGroup s.role e.2.toNat with | some n => g.testBit n | none => false).foldl
    (fun s e => s.storeRecord e.1 e.2.toNat false) s
  s.event Base.tally 0x210 g

/-! ### Registers (R564, R566) -/

def LaneSt.viewTally (L : LaneSt) (p : Port) (off : Nat) : Option Nat :=
  if off = Reg.TALLY_STAT then
    some (L.fld Reg.TALLY_STAT 0 1 + (L.tally.filter fun e => e.2.dirty).length * 65536)
  else if Reg.TALLY_WIN 0 ≤ off ∧ off < Reg.TALLY_WIN 64 then
    some (memLe (L.slotMem ((L.sel p Reg.TALLY_CUR).toNat % 16384)) (off - Reg.TALLY_WIN 0) 4)
  else none

end Sys2Proof.Machine
end

