-- ==== Sys2Proof/Machine/Field.lean ====
section
/-! DEFINITION. Machine/Field.lean: the local field channels (R240 to R283): diagnostic codes, banks, filters and edges,
tests, the checks of a freeze, the ladders, and the commands of the field. -/

namespace Sys2Proof.Machine

/-! ### The vote on inputs (R30 to R33) -/

/-- The agreed bits of what some lanes hold: by two of three, by both of two, none by fewer. -/
def voteWord {w : Nat} (ls : LaneSet) (v : LaneVec (BitVec w)) : BitVec w :=
  match ls.a, ls.b, ls.c with
  | true, true, true => (v.a &&& v.b) ||| (v.a &&& v.c) ||| (v.b &&& v.c)
  | true, true, false => v.a &&& v.b
  | true, false, true => v.a &&& v.c
  | false, true, true => v.b &&& v.c
  | _, _, _ => 0

/-- One bit, voted in the same way. -/
def voteBit (ls v : LaneSet) : Bool :=
  decide (2 ≤ ls.count) && decide (2 ≤ (LaneVec.ofFn fun l => ls.get l && v.get l).count)

/-- The lanes voted on a channel or source: those that count, without the ones left out (R32). -/
def State.voters (s : State) (key : Nat) : LaneSet :=
  LaneVec.ofFn fun l => s.counting.get l && !s.fld.pathOut.contains (l, key)

/-- A midpoint class, each of LOW, MID and HIGH voted as a bit (DEDUCED, log 110). -/
def voteMid (ls : LaneSet) (v : LaneVec Mid) : Mid :=
  let is (m : Mid) : Bool := voteBit ls (LaneVec.ofFn fun l => v.get l == m)
  if is .low then .low else if is .mid then .mid else if is .high then .high else .between

/-! ### Codes (R277) -/

namespace Code
abbrev senseLane : Nat := 0x01
abbrev inputTestFail : Nat := 0x02
abbrev wireBroken : Nat := 0x03
abbrev bandGap : Nat := 0x04
abbrev supply : Nat := 0x05
abbrev edgeLost : Nat := 0x06
abbrev testLate : Nat := 0x10
abbrev stuckOpen : Nat := 0x11
abbrev stuckClosed : Nat := 0x12
abbrev readbackLow : Nat := 0x13
abbrev overcurrent : Nat := 0x14
abbrev overcurrentLatched : Nat := 0x15
abbrev externalEnergised : Nat := 0x16
abbrev darkFail : Nat := 0x17
abbrev wiredTo : Nat := 0x18
abbrev peerMismatch : Nat := 0x19
abbrev listenMismatch : Nat := 0x1A
abbrev isolated : Nat := 0x1B
end Code

/-- The codes that put a channel out of service. -/
def codeOos (c : Nat) : Bool :=
  [Code.inputTestFail, Code.wireBroken, Code.bandGap, Code.supply, Code.testLate, Code.stuckClosed,
   Code.overcurrentLatched, Code.externalEnergised, Code.darkFail, Code.wiredTo, Code.isolated].contains c

/-- The codes that a write of `BANK_CLEAR.CHANNELS` clears. -/
def codeCleared (c : Nat) : Bool :=
  [Code.senseLane, Code.inputTestFail, Code.wireBroken, Code.bandGap, Code.testLate, Code.stuckOpen, Code.stuckClosed,
   Code.readbackLow, Code.overcurrentLatched, Code.externalEnergised, Code.darkFail, Code.wiredTo, Code.peerMismatch,
   Code.listenMismatch].contains c

/-- The `BLK_ERR` bit of the bank that a code sets (R283). -/
def codeErr (c : Nat) : Option Nat :=
  if c = Code.stuckOpen ∨ c = Code.stuckClosed then some 0
  else if c = Code.readbackLow then some 1
  else if c = Code.externalEnergised then some 2
  else if c = Code.senseLane ∨ c = Code.inputTestFail then some 3
  else if c = Code.testLate then some 4
  else if c = Code.overcurrent then some 5
  else if c = Code.darkFail ∨ c = Code.wiredTo then some 8
  else none

/-- A configured channel is out of service while a code that puts it out applies, and after it has failed a test in TEST (R243, R473). -/
def ChanSt.oos (c : ChanSt) : Bool := c.failed || c.codes.any codeOos

/-- The code that `CH_DIAG` shows: the latest that puts the channel out of service, or the latest (R277). -/
def ChanSt.code (c : ChanSt) : Nat :=
  match c.codes.find? codeOos with
  | some x => x
  | none => c.codes.headD 0

/-- An UNUSED channel is out of service (R241, R277). -/
def State.chanOos (s : State) (n : Nat) : Bool := (s.chanCfg n).mode == 0 || (s.chan n).oos

/-- The channels of a bank (R240). -/
def bankChans (b : Nat) : List Nat := (List.range 16).map fun i => 16 * b + i

/-- `BANK_STAT.COMMON_FAULT` (R280), of the channels and banks of a field. -/
def FieldAg.commonFault (f : FieldAg) (file : StationFile) (b : Nat) : Bool :=
  (getD {} f.bank b).latched ||
    (bankChans b).any fun n => ((file.chans.lookup n).getD {}).mode != 0 && !(getD ({} : ChanSt) f.chan n).codes.isEmpty

/-- `COMMON_FAULT` or `MODULE_FAULT` has risen in the bank: their interrupt bits (R281, R283). -/
def State.faultIrq (before after : State) (b : Nat) : State :=
  if !before.fld.commonFault before.file b && after.fld.commonFault after.file b then
    let s := after.irq (Base.bank b) 1
    if (List.range 16).any fun x => before.fld.commonFault before.file x then s else s.irq Base.fs 1
  else after

/-- A CHANNEL entry (R456). -/
def State.chanEntry (s : State) (n code x : Nat) : State :=
  s.recordIn s.parts (Blk.ofOff (Base.bank (n / 16))) (obCode 3 code) .note (n + x * 256)

/-- A bank isolator opens and latches: every OUTPUT channel of the bank takes code ISOLATED (R245, R270), and a test that runs on one
ends, as on every channel that goes out of service (R262). -/
def State.latchIsolator (s : State) (b : Nat) : State :=
  if (s.bank b).latched then s else
  let s' := s.setBank b fun q => { q with closed := false, latched := true, running := none, retry := [] }
  let s' := (bankChans b).foldl (fun s n =>
    if s.isOutput n && !(s.chan n).codes.contains Code.isolated then
      (s.setChan n fun c => { c with codes := Code.isolated :: c.codes }).chanEntry n Code.isolated 0
    else s) s'
  let s' := s'.reportAll (Base.bank b) 7 b
  State.faultIrq s s' b

/-- The code applies already, for the same switch or partner. -/
def ChanSt.knows (c : ChanSt) (code switch partner : Nat) : Bool :=
  c.codes.contains code &&
    (if code = Code.stuckOpen then c.opens.contains switch else if code = Code.stuckClosed then c.shorts.contains switch
     else if code = Code.wiredTo then c.partners.contains partner else true)

/-- The code as the latest, with its switch or partner (R261, R269). -/
def ChanSt.take (c : ChanSt) (code switch partner : Nat) : ChanSt :=
  { c with
    codes := code :: c.codes.filter fun x => x != code
    opens := if code = Code.stuckOpen then switch :: c.opens else c.opens
    shorts := if code = Code.stuckClosed then switch :: c.shorts else c.shorts
    partners := if code = Code.wiredTo then partner :: c.partners else c.partners }

/-- A channel out of service takes part in no switch test or dark pulse (R262): one that runs on it ends, and none is repeated. -/
def State.dropTests (s : State) (n : Nat) : State :=
  s.setBank (n / 16) fun q => { q with
    running := q.running.filter fun t => t.ch != n
    retry := q.retry.filter fun r => r.ch != n }

/-- A code arises on a channel: recorded, its bank's error bit set, and for an output found energised from outside the
reaction of `EXT_REACT` where it is this channel's (`acts`; R269, R270, R277). An UNUSED channel takes none; a code that already
applies to the same switch or partner changes nothing, and READBACK_LOW does not arise while OVERCURRENT holds or the isolator is open
(R438). -/
def State.addCodeActing (s : State) (n code switch partner : Nat) (acts : Bool) : State :=
  if (s.chanCfg n).mode = 0 ∨ (s.chan n).knows code switch partner
      ∨ (code = Code.readbackLow ∧ ((s.chan n).codes.contains Code.overcurrent ∨ (s.bank (n / 16)).latched)) then s
  else
    let s' := s.setChan n fun c => c.take code switch partner
    let s' := if codeOos code then s'.dropTests n else s'
    let s' := s'.chanEntry n code (if code = Code.wiredTo then partner else switch)
    let s' := match codeErr code with
      | some bit => s'.reportAll (Base.bank (n / 16)) bit n
      | none => s'
    let s' := State.faultIrq s s' (n / 16)
    if acts ∧ s.isOutput n ∧ (code = Code.externalEnergised ∨ code = Code.darkFail ∨ code = Code.wiredTo) then
      match (s.chanCfg n).react.toNat with
      | 1 => s'.latchIsolator (n / 16)
      | 2 => s'.safeByAll 0x07
      | _ => s'
    else s'

/-- A code arises with its own reaction. -/
def State.addCode (s : State) (n code switch partner : Nat) : State := s.addCodeActing n code switch partner true

/-- A code no longer applies. -/
def State.dropCode (s : State) (n code : Nat) : State :=
  s.setChan n fun c => { c with codes := c.codes.filter fun x => decide (x ≠ code) }

/-! ### Module states (R243) -/

/-- The states in which the isolators are closed. -/
def MState.closesBanks : MState → Bool
  | .test => true | .sync => true | .restartLocked => true | .run => true | .duty => true | .standby => true
  | _ => false

/-- The states in which the switches follow the vote (R243). -/
def MState.drives : MState → Bool
  | .run => true | .duty => true
  | _ => false

/-- The states in which input tests run. -/
def MState.testsInputs : MState → Bool
  | .off => false | .boot => false | .load => false
  | _ => true

/-- The states in which de-energised switch tests run. -/
def MState.testsSwitches : MState → Bool
  | .test => true | .sync => true | .restartLocked => true | .run => true | .duty => true
  | _ => false

/-- Every ACTIVE lane commands the isolators as the module state asks (R242, R243). -/
def State.setIsolators (s : State) : State :=
  (s.updAll fun l L => { L with field := { L.field with
    iso := if s.mstate.closesBanks && s.isActive l then 0xFFFF else 0 } }).refreshIsolators

/-- The OUTPUT channels of the file. -/
def State.outputs (s : State) : List Nat := (s.file.chans.filter fun e => e.2.mode == 2).map fun e => e.1

/-- The deadlines of every OUTPUT channel's tests run from here (R59, R265). -/
def State.restartTests (s : State) : State :=
  s.outputs.foldl (fun s n => s.setChan n fun c => { c with dueFrom := s.now }) s

/-- The deadlines of the input tests run from here (R265). -/
def State.restartInputs (s : State) : State :=
  (s.file.chans.filter fun e => e.2.mode != 0).foldl (fun s e => s.setChan e.1 fun c => { c with inFrom := s.now }) s

/-- What a change of the module state brings for the tests: deadlines that begin with the state that runs them, and no test of outputs
where none runs (R243; DESIGN CHOICE, log 112). -/
def State.startTests (old s : State) : State :=
  let s := if s.mstate.testsInputs && !old.mstate.testsInputs then s.restartInputs else s
  if !s.mstate.testsSwitches then
    (List.range 16).foldl (fun s b => s.setBank b fun q => { q with running := none, retry := [] }) s
  else if !old.mstate.testsSwitches then s.restartTests else s

/-! ### Ladders (R34, R35) -/

/-- The lanes that hold both their switches of a channel closed. -/
def State.cmdLanes (s : State) (n : Nat) : LaneSet :=
  LaneVec.ofFn fun l => (s.lane.get l).field.cmd.toNat.testBit n

/-- The command of the last output instant: ON when two lanes command ON. -/
def State.commanded (s : State) (n : Nat) : Bool := decide (2 ≤ (s.cmdLanes n).count)

/-- The lanes that drive a path: 0 AB, 1 BC, 2 CA (R34). -/
def pathLanes : Nat → Lane × Lane
  | 0 => (.A, .B)
  | 1 => (.B, .C)
  | _ => (.C, .A)

/-- The lane that drives a switch (R256): switches 0, 5 A; 1, 2 B; 3, 4 C. -/
def switchLane : Nat → Lane
  | 0 => .A | 5 => .A | 1 => .B | 2 => .B | _ => .C

/-- The test that runs on a channel now (R263). -/
def State.runningOn (s : State) (n : Nat) : Option RunTest :=
  (s.bank (n / 16)).running.filter fun t => t.ch == n && decide (s.now < t.till)

/-- A switch of the ladder is closed: as its lane commands, unless a trip or the gate holds it open; a switch test changes the
tested switch for 25 µs, a dark pulse opens all six for 60 µs (R34, R260, R264, R268). -/
def State.switchShut (s : State) (n sw : Nat) : Bool :=
  let plain := (s.cmdLanes n).get (switchLane sw)
  let shut := match s.runningOn n with
    | some t => match t.sw with
      | some k => if k = sw ∧ s.now < t.at_ + 25000 then !t.on else plain
      | none => if s.now < t.at_ + 60000 then false else plain
    | none => plain
  shut && !(s.chan n).heldOff && !s.gate

/-- Both switches of a path are closed. -/
def State.pathOn (s : State) (n path : Nat) : Bool := s.switchShut n (2 * path) && s.switchShut n (2 * path + 1)

/-- The output is energised through its ladder: a path is closed, and so is its isolator. -/
def State.energised (s : State) (n : Nat) : Bool :=
  (s.pathOn n 0 || s.pathOn n 1 || s.pathOn n 2) && (s.bank (n / 16)).closed

/-! ### What the lanes sense (R248, R252, R258) -/

/-- A path current: conducting from 0.5 mA up, not conducting to 0.2 mA; between them a free value. -/
def State.conducting (s : State) (place : Nat) (i : BitVec 16) : Bool :=
  if 50 ≤ i.toNat then true else if i.toNat ≤ 20 then false else Config.senseBetween s.now place i.toNat

/-- The class of a midpoint, of 0.1 % of the bank supply. -/
def midOf (m : BitVec 10) : Mid :=
  if m.toNat < 250 then .low
  else if 350 ≤ m.toNat ∧ m.toNat ≤ 650 then .mid
  else if 750 < m.toNat then .high
  else .between

/-- The conducting paths AB, BC and CA of a channel, as a lane senses them. -/
def State.pathsOf (s : State) (l : Lane) (n : Nat) (i : PathCurrents) : LaneSet :=
  let at_ (p : Nat) : Nat := (n * 4 + p) * 4 + l.code
  ⟨s.conducting (at_ 0) i.ab, s.conducting (at_ 1) i.bc, s.conducting (at_ 2) i.ca⟩

/-- A lane's view of a ladder. -/
def State.ladderOf (s : State) (l : Lane) (x : ChSense) : LadderSt :=
  let p := s.pathsOf l x.ch.toNat x.i
  { seen := true, iAB := p.a, iBC := p.b, iCA := p.c, midAB := midOf x.midAB, midBC := midOf x.midBC, midCA := midOf x.midCA,
    loadMa := x.loadMa.toNat }

/-- What a lane sensed on a ladder at the last freeze. -/
def LaneSt.ladder (L : LaneSt) (n : Nat) : LadderSt := getD {} L.field.sense n

/-- A sense of a ladder, voted (R263). -/
def State.voteSense (s : State) (n : Nat) (f : LadderSt → Bool) : Bool :=
  voteBit (s.voters n) (LaneVec.ofFn fun l => f ((s.lane.get l).ladder n))

/-- A path conducts: 0 AB, 1 BC, 2 CA. -/
def State.conducts (s : State) (n path : Nat) : Bool :=
  s.voteSense n fun x => match path with | 0 => x.iAB | 1 => x.iBC | _ => x.iCA

/-- Every path of a channel is not conducting. -/
def State.senseDark (s : State) (n : Nat) : Bool := !s.conducts n 0 && !s.conducts n 1 && !s.conducts n 2

/-- A channel works in wire-break mode: an INPUT so configured, not in STANDBY, where every channel uses the thresholds of
Type 1 (R252, R274). -/
def State.wireBreak (s : State) (n : Nat) : Bool := s.isInput n && (s.chanCfg n).itype == 2 && s.mstate != .standby

/-- The class of a reading (R252). A channel whose mode the reading does not fit gives none: a readback stage and an input of
Type 1 or Type 3 have the comparator's, wire-break mode has the current (R247, R248). -/
def State.classOfReading (s : State) (n : Nat) (r : Reading) : Option RClass :=
  match r with
  | .level on => if s.wireBreak n then none else some (if on then .on else .off)
  | .current ua =>
    if !s.wireBreak n then none
    else
      let i := ua.toNat
      some (if i < 350 then .broken else if 600 ≤ i ∧ i ≤ 1600 then .off else if 2200 ≤ i then .on else .gap)

/-- The sink of a channel is disconnected: at least two lanes command it (R255). -/
def State.sinkOpen (s : State) (n : Nat) : Bool :=
  decide (2 ≤ (LaneVec.ofFn fun l => (s.lane.get l).field.sinkOff.any fun e => e.1 == n && decide (s.now < e.2)).count)

/-- A test holds the filtered state of a channel: an input test its input filter, a switch test or a dark pulse the readback
(R247, R255). -/
def State.filterHeld (s : State) (n : Nat) : Bool := s.sinkOpen n || (s.runningOn n).isSome

/-! ### Filters and edges (R249 to R252) -/

/-- One bit of a channel map. -/
def chanBit (v : BitVec 256) (n : Nat) : Bool := v.toNat.testBit n

def chanPut (v : BitVec 256) (n : Nat) (b : Bool) : BitVec 256 :=
  if b then v ||| BitVec.ofNat 256 (2 ^ n) else v &&& ~~~(BitVec.ofNat 256 (2 ^ n))

/-- An entry of the edge FIFO; a full FIFO discards it (R250). -/
def State.pushEdge (s : State) (l : Lane) (e : Edge) : State :=
  if 1024 ≤ (s.lane.get l).field.fifo.length then
    (s.upd l fun L => L.addFld Reg.FS_EVENTS 16 16 1).report l (Blk.ofOff Base.fs) 0 e.ch
  else s.upd l fun L => { L with field := { L.field with fifo := L.field.fifo ++ [e] } }

/-- FILTER_CONFIRM: the filtered state of a channel changes in one lane. The stamp is the instant of the first sample of
the new level, truncated to 100 ns (R229); its uncertainty reaches to the start of the run that completed the filter,
20 µs more when an input test deferred the transition (R256), unbounded for a run that a lane began on entering
PROBATION (R50). A test of the channel holds its filter (R247, R255). -/
def execFilterConfirm (l : Lane) (ch : BitVec 8) (r : Reading) (first runStart : DWord) (deferred : Bool) (s : State) :
    Host.Outcome State Fault Refusal :=
  let n := ch.toNat
  let F := (s.lane.get l).field
  match (if (s.chanCfg n).mode = 0 ∨ s.filterHeld n then none else s.classOfReading n r) with
  | none => .next s
  | some k =>
    let on : Bool := k == .on
    let changed := chanBit F.filt n != on
    let seeded := chanBit F.seeded n
    let s := s.upd l fun L => { L with field := { L.field with
      raw := chanPut L.field.raw n on, filt := chanPut L.field.filt n on, broken := chanPut L.field.broken n (k == .broken),
      gap := chanPut L.field.gap n (k == .gap), seeded := chanPut L.field.seeded n false } }
    let unc := if seeded then 0xFFFFFFFF
      else (runStart.toNat - first.toNat) + (if deferred then 20000 else 0)
    .next (if changed then
      s.pushEdge l { ch := n, rise := on, stamp := first.toNat / 100 * 100, unc := min unc 0xFFFFFFFF, defer := deferred }
    else s)

/-! ### Banks (R244, R245) -/

/-- Each lane's measurement of a bank's supply, 10 mV (R283). -/
def State.noteVolts (s : State) (b : Nat) (v : LaneVec (BitVec 12)) : State :=
  s.updAll fun l L => L.setFld (Reg.BANK_SUPPLY b) 0 12 (v.get l).toNat

/-- What the lanes that count find of a measurement, by vote (DEDUCED, log 110). -/
def State.banksVote (s : State) (v : LaneVec (BitVec 12)) (f : Nat → Bool) : Bool :=
  voteBit s.counting (LaneVec.ofFn fun l => f (v.get l).toNat)

/-- SUPPLY: a supply below 19.2 V or above 30 V; every INPUT and OUTPUT channel of the bank takes code SUPPLY (R244). -/
def execSupply (bank : BitVec 4) (volts : LaneVec (BitVec 12)) (s : State) : Host.Outcome State Fault Refusal :=
  let b := bank.toNat
  let s := s.noteVolts b volts
  let low := s.banksVote volts fun v => decide (v < 1920)
  let high := s.banksVote volts fun v => decide (3000 < v)
  if !low && !high then .next s
  else
    let was : Bool := (s.bank b).low || (s.bank b).high
    let s := s.setBank b fun q => { q with low := low, high := high }
    let s := if was then s else s.reportAll (Base.bank b) 6 b
    .next ((bankChans b).foldl (fun s n => s.addCode n Code.supply 0 0) s)

/-- SUPPLY_RESTORED: within the range again; the code clears by itself, and the exit is recorded (R244). -/
def execSupplyRestored (bank : BitVec 4) (volts : LaneVec (BitVec 12)) (s : State) : Host.Outcome State Fault Refusal :=
  let b := bank.toNat
  let s := s.noteVolts b volts
  if s.banksVote volts fun v => decide (1920 ≤ v ∧ v ≤ 3000) then
    let s := s.setBank b fun q => { q with low := false, high := false }
    .next ((bankChans b).foldl (fun s n =>
      if (s.chan n).codes.contains Code.supply then (s.dropCode n Code.supply).chanEntry n 0 0 else s) s)
  else .next s

/-- BANK_OC: above 1.6 A the isolator opens and latches (R245). Bank current is not watched while the isolator is open
(R438). -/
def execBankOc (bank : BitVec 4) (ma : LaneVec (BitVec 12)) (s : State) : Host.Outcome State Fault Refusal :=
  let b := bank.toNat
  let s := s.updAll fun l L => L.setFld (Reg.BANK_SUPPLY b) 16 12 (ma.get l).toNat
  .next (if (s.bank b).closed && s.banksVote ma fun i => decide (1600 < i) then s.latchIsolator b else s)

/-! ### Tests -/

/-- A code or a reading waits for the next input agreement step (R255, R263). -/
def State.due (s : State) (n code switch partner : Nat) (lanes : LaneSet) : State :=
  { s with fld := { s.fld with due := s.fld.due ++ [{ ch := n, code, switch, partner, lanes }] } }

/-- A lane's readings of an input test are those that R255 expects: OFF (wire-break: BROKEN), in wire-break mode then OFF at
1.1 mA, and ON at 3 mA. -/
def State.testRead (s : State) (n : Nat) (r : InReadings) : Bool :=
  if s.wireBreak n then
    s.classOfReading n r.free == some .broken && s.classOfReading n r.low == some .off && s.classOfReading n r.high == some .on
  else s.classOfReading n r.free == some .off && s.classOfReading n r.high == some .on

/-- What an input test finds: among the lanes that count, one that reads wrongly gives SENSE_LANE, two or more
INPUT_TEST_FAIL. -/
def State.inputVerdict (s : State) (n : Nat) (r : LaneVec InReadings) : List PendCode :=
  let w : LaneSet := LaneVec.ofFn fun l => s.counting.get l && !s.testRead n (r.get l)
  match w.count with
  | 0 => []
  | 1 => [{ ch := n, code := Code.senseLane, switch := 0, partner := 0, lanes := w }]
  | _ => [{ ch := n, code := Code.inputTestFail, switch := 0, partner := 0, lanes := w }]

/-- INPUT_TEST: two lanes command the sink to disconnect, for 20 µs; what the test finds waits for the next input agreement step
(R255). -/
def execInputTest (ch : BitVec 8) (r : LaneVec InReadings) (s : State) : Host.Outcome State Fault Refusal :=
  let n := ch.toNat
  if !s.mstate.testsInputs || (s.chanCfg n).mode == 0 || decide (s.counting.count < 2) then .next s
  else
    let found := s.inputVerdict n r
    let s := s.setChan n fun c => { c with inAt := s.now }
    let s := s.updIn s.counting fun _ L => { L with field := { L.field with
      sinkOff := (n, s.now + 20000) :: L.field.sinkOff.filter fun e => e.1 != n && decide (s.now < e.2) } }
    .next { s with fld := { s.fld with due := s.fld.due ++ found } }

/-- OVERCURRENT: the ladder opens all six switches; a test of the energised output that runs has lost its other paths and ends
(R266); the third trip within 60 s puts the channel out of service (R260). -/
def execOvercurrent (ch : BitVec 8) (s : State) : Host.Outcome State Fault Refusal :=
  let n := ch.toNat
  if !s.isOutput n then .next s
  else
    let s := s.abortTests fun t => t.ch == n && t.on
    let trips := s.now :: (s.chan n).trips.filter fun t => decide (s.now < t + 60000000000)
    let s := (s.setChan n fun c => { c with trips := trips, heldOff := true, offTill := s.now + 100000000 }).tallyTrip n
    let s := if (s.chan n).codes.contains Code.overcurrent then s.reportAll (Base.bank (n / 16)) 5 n
      else s.addCode n Code.overcurrent 0 0
    .next (if 3 ≤ trips.length then s.addCode n Code.overcurrentLatched 0 0 else s)

/-- OVERCURRENT_CLEAR: 60 s without a trip clears OVERCURRENT and resets the count (R260). -/
def execOvercurrentClear (ch : BitVec 8) (s : State) : Host.Outcome State Fault Refusal :=
  .next ((s.dropCode ch.toNat Code.overcurrent).setChan ch.toNat fun c => { c with trips := [] })

/-- The readings of a switch test as the lanes vote them (R263). -/
def State.voteReadings (s : State) (n : Nat) (r : LaneVec SwReadings) : SwSeen :=
  let ls := s.voters n
  let mid (f : SwReadings → BitVec 10) : Mid := voteMid ls (r.map fun _ x => midOf (f x))
  let paths (f : SwReadings → PathCurrents) : LaneSet :=
    let p : LaneVec LaneSet := r.map fun l x => s.pathsOf l n (f x)
    ⟨voteBit ls (p.map fun _ x => x.a), voteBit ls (p.map fun _ x => x.b), voteBit ls (p.map fun _ x => x.c)⟩
  { before := mid fun x => x.before, mid20 := mid fun x => x.mid20, i20 := paths fun x => x.i20
    rb20 := voteBit ls (r.map fun _ x => x.rb20), mid45 := mid fun x => x.mid45, i45 := paths fun x => x.i45 }

/-- The readings of a switch test that R264 misses: the code and the switch it names. -/
def switchVerdict (energised : Bool) (sw : Nat) (r : SwSeen) : List (Nat × Nat) :=
  let path := sw / 2
  let upper := sw % 2 == 0
  let cond (v : LaneSet) (p : Nat) : Bool := match p with | 0 => v.a | 1 => v.b | _ => v.c
  let partner := if upper then sw + 1 else sw - 1
  if energised then
    let others := [0, 1, 2].all fun p => p == path || cond r.i20 p
    let ok20 := !cond r.i20 path && r.rb20 && (if upper then others else r.mid20 == .high)
    let ok45 := cond r.i45 path
    (if ok20 then [] else [(Code.stuckClosed, sw)]) ++ (if ok45 then [] else [(Code.stuckOpen, sw)])
  else match r.before with
    | .high => [(Code.stuckClosed, 2 * path)]
    | .low => [(Code.stuckClosed, 2 * path + 1)]
    | .between => []
    | .mid =>
      if cond r.i20 path then [(Code.stuckClosed, partner)]
      else
        let ok20 := !r.rb20 && (if upper then r.mid20 == .high else r.mid20 == .low)
        let ok45 := r.mid45 == .mid
        (if ok20 then [] else [(Code.stuckOpen, sw)]) ++ (if ok45 then [] else [(Code.stuckClosed, sw)])

/-- A switch test may run in the present state of the channel (R59, R243, R262, R263, R267). -/
def State.switchTestable (s : State) (n sw : Nat) : Bool :=
  let drv := switchLane sw
  let path := sw / 2
  s.mstate.testsSwitches && s.isOutput n && !s.chanOos n && decide (sw < 6)
    && (!s.mstate.voting || s.isActive drv || s.mode drv == .probation)
    && (!s.energised n
      || (!s.twoOfTwo && ([0, 1, 2].any fun p => p != path && s.conducts n p)
        && (Lane.list.all fun l => !s.isActive l || s.liveSignals.get l)))

/-- A dark pulse may run (R262, R268). -/
def State.darkTestable (s : State) (n : Nat) : Bool :=
  s.mstate.drives && s.isOutput n && (s.chanCfg n).dark && s.energised n && !s.chanOos n

/-- A switch test, or a dark pulse where no switch is named, may run. -/
def State.testable (s : State) (n : Nat) (sw : Option Nat) : Bool :=
  match sw with | some k => s.switchTestable n k | none => s.darkTestable n

/-- It is the turn of a test in its bank: no other runs, and one that waits to be repeated, where it may run, goes first and not
before an output instant (R263, R266). -/
def State.turnOf (s : State) (n : Nat) (sw : Option Nat) : Bool :=
  (s.bank (n / 16)).running.isNone &&
    match (s.bank (n / 16)).retry.find? fun r => s.testable r.ch r.sw with
    | some r => r.ready && r.ch == n && r.sw == sw
    | none => true

/-- A test begins: it is no longer waiting. -/
def State.beginTest (s : State) (t : RunTest) : State :=
  s.setBank (t.ch / 16) fun q => { q with
    running := some t, retry := q.retry.filter fun r => !(r.ch == t.ch && r.sw == t.sw) }

/-- Codes of a channel that wait, each with its switch. -/
def pendCodes (n : Nat) (v : List (Nat × Nat)) : List PendCode :=
  v.map fun e => { ch := n, code := e.1, switch := e.2, partner := 0, lanes := .all true }

/-- SWITCH_TEST: the voted readings against the table of R264. The test runs for 45 µs, or to the reading at 20 µs that shows the
partner closed; the codes then wait for the next input agreement step (R263). A midpoint that does not read MID before a
de-energised test starts none, and is itself the finding. -/
def execSwitchTest (ch : BitVec 8) (sw : BitVec 3) (r : LaneVec SwReadings) (s : State) : Host.Outcome State Fault Refusal :=
  let n := ch.toNat
  let s := s.settleTests
  if !(s.switchTestable n sw.toNat && s.turnOf n (some sw.toNat)) then .next s
  else
    let on := s.energised n
    let x := s.voteReadings n r
    let found := pendCodes n (switchVerdict on sw.toNat x)
    if !on && x.before != .mid then .next { s with fld := { s.fld with due := s.fld.due ++ found } }
    else
      let short : Bool := !on && (match sw.toNat / 2 with | 0 => x.i20.a | 1 => x.i20.b | _ => x.i20.c)
      .next (s.beginTest { ch := n, sw := some sw.toNat, on := on, at_ := s.now,
                           till := s.now + (if short then 20000 else 45000), codes := found })

/-- TEST_ABORT: a running test ends, its switches take their lanes' commands, and the test is queued again (R266); its
result is not used. -/
def execTestAbort (ch : BitVec 8) (s : State) : Host.Outcome State Fault Refusal :=
  .next (s.abortTests fun t => t.ch == ch.toNat)

/-- A channel is wired to the pulsed one (R269): an OUTPUT commanded OFF without a conducting path, whose comparator reads ON at
0 µs and OFF at 60 µs; or an INPUT that reads ON, OFF, and ON again at 80 µs. -/
def State.wiredTo (s : State) (n : Nat) (y : FollowObs) : Bool :=
  let m := y.ch.toNat
  let read (v : LaneSet) : Bool := voteBit (s.voters m) v
  m != n && read y.at0 && !read y.at60
    && ((s.isOutput m && !s.commanded m && s.senseDark m) || (s.isInput m && read y.at80))

/-- What a dark pulse finds (R268, R269). The reaction of `EXT_REACT` is the pulsed channel's alone. -/
def State.darkVerdict (s : State) (n : Nat) (rb60 rb80 : LaneSet) (follow : List FollowObs) : List PendCode :=
  let code (ch k partner : Nat) (acts : Bool) : PendCode :=
    { ch, code := k, switch := 0, partner, lanes := .all true, acts }
  (if voteBit (s.voters n) rb60 then [code n Code.darkFail 0 true] else [])
    ++ (if voteBit (s.voters n) rb80 then [] else [code n Code.readbackLow 0 true])
    ++ (follow.filter (s.wiredTo n)).flatMap fun y =>
      [code n Code.wiredTo y.ch.toNat true, code y.ch.toNat Code.wiredTo n false]

/-- DARK_PULSE: the readback at 60 µs and 80 µs, and the comparators of the other channels; after 80 µs the codes wait for the
next input agreement step. -/
def execDarkPulse (ch : BitVec 8) (rb60 rb80 : LaneSet) (follow : List FollowObs) (s : State) :
    Host.Outcome State Fault Refusal :=
  let n := ch.toNat
  let s := s.settleTests
  if !(s.darkTestable n && s.turnOf n none) then .next s
  else .next (s.beginTest { ch := n, sw := none, on := true, at_ := s.now, till := s.now + 80000,
                            codes := s.darkVerdict n rb60 rb80 follow })

/-- LISTEN_MISMATCH: in STANDBY a reading has differed from the copied image for F plus two cycles (R274). -/
def execListenMismatch (ch : BitVec 8) (s : State) : Host.Outcome State Fault Refusal :=
  if s.mstate = .standby ∧ s.isInput ch.toNat then .next (s.addCode ch.toNat Code.listenMismatch 0 0) else .next s

/-! ### BANK_CLEAR (R279, R245): its effect in the input agreement step -/

/-- The codes of the named channels are cleared; clearing SENSE_LANE or INPUT_TEST_FAIL returns the channel's sense paths
to the vote, clearing TEST_LATE restarts its deadlines (R279). -/
def State.clearChannels (s : State) (b mask : Nat) : State :=
  (List.range 16).foldl (fun s i =>
    if mask.testBit i then
      let n := 16 * b + i
      let c := s.chan n
      let sense := c.codes.contains Code.senseLane || c.codes.contains Code.inputTestFail
      let late := c.codes.contains Code.testLate
      let s := s.setChan n fun c => { c with
        codes := c.codes.filter (fun x => !codeCleared x), opens := [], shorts := [], partners := [], failed := false }
      let s := if sense then { s with fld := { s.fld with
          pathOut := s.fld.pathOut.filter fun e => decide (e.2 ≠ n)
          minority := s.fld.minority.filter fun e => decide (e.2.1 ≠ n) } } else s
      if late then s.setChan n fun c => { c with inFrom := s.now, dueFrom := s.now, onFrom := s.now } else s
    else s) s

/-- A latched isolator recloses where the module state closes it (R245); the reaction that explained the bank's reports has ended
(R439). -/
def State.clearIsolator (s : State) (b : Nat) : State :=
  if (s.bank b).latched then
    let s := (s.setBank b fun q => { q with latched := false }).refreshIsolators
    let s := s.updAll fun _ L => { L with explained := L.explained.filter fun d => decide (d.blk ≠ Blk.ofOff (Base.bank b)) }
    (bankChans b).foldl (fun s n => s.dropCode n Code.isolated) s
  else s

/-! ### The checks of a freeze (R259, R275) -/

/-- A channel's filtered state at the freeze, voted by the lanes that count on it (R30 to R33). -/
def State.frozenRead (s : State) (n : Nat) : Bool :=
  voteBit (s.voters n) (LaneVec.ofFn fun l => chanBit (s.lane.get l).field.frozen n)

/-- A run of consecutive freezes, up to 2. -/
def runOf (k : Nat) (hit : Bool) : Nat := if hit then min 2 (k + 1) else 0

/-- One OUTPUT channel in service states (R259): a second consecutive freeze gives the code, which waits for the input
agreement step. Readback is suspended in SAFE and explained by OVERCURRENT and an open isolator (R438). -/
def State.readbackCheck (s : State) (n : Nat) : State :=
  let rb := s.frozenRead n
  let on := s.commanded n
  let c := s.chan n
  let quiet := s.mstate == .safe || c.codes.contains Code.overcurrent || (s.bank (n / 16)).latched
  let low := on && !rb && !quiet
  let ext := !on && rb && s.senseDark n && s.mstate != .safe
  let s' := s.setChan n fun c => { c with lowRun := runOf c.lowRun low, extRun := runOf c.extRun ext }
  let s' := if low && decide (1 ≤ c.lowRun) then s'.due n Code.readbackLow 0 0 (.all true) else s'
  if ext && decide (1 ≤ c.extRun) then s'.due n Code.externalEnergised 0 0 (.all true) else s'

/-- A midpoint that reads HIGH or LOW with every switch open: STUCK_CLOSED of the upper or lower switch (R275). -/
def midVerdict (path : Nat) (m : Mid) : Option Nat :=
  match m with
  | .high => some (2 * path)
  | .low => some (2 * path + 1)
  | _ => none

/-- One OUTPUT channel in STANDBY (R275): its midpoints, and its readback against the mirrored command. -/
def State.passiveCheck (s : State) (mirror : BitVec 256) (n : Nat) : State :=
  let rb := s.frozenRead n
  let diff := rb != chanBit mirror n
  let c := s.chan n
  let s := s.setChan n fun c => { c with peerRun := runOf c.peerRun diff }
  let s := if diff && decide (1 ≤ c.peerRun) then s.due n Code.peerMismatch 0 0 (.all true) else s
  let mid (f : LadderSt → Mid) : Mid := voteMid (s.voters n) (LaneVec.ofFn fun l =>
    let x := (s.lane.get l).ladder n
    if x.seen then f x else .between)
  [midVerdict 0 (mid fun x => x.midAB), midVerdict 1 (mid fun x => x.midBC), midVerdict 2 (mid fun x => x.midCA)].foldl
    (fun s v => match v with
      | some sw => s.due n Code.stuckClosed sw 0 (.all true)
      | none => s) s

/-- What a lane's field sequencer finds at the freeze: comparators, ladders, banks, its schedule (R248, R258, R281, R283). -/
def State.senseLane (s : State) (l : Lane) (o : FieldObs) (L : LaneSt) : LaneSt :=
  let F := L.field
  let L := { L with field := { F with
    raw := o.raw.foldl (fun v e => chanPut v e.1.toNat e.2) F.raw
    sense := o.ladders.foldl (fun m x => SMap.put (fun _ => ({} : LadderSt)) m x.ch.toNat (s.ladderOf l x)) F.sense
    sched := o.sched
    brokenFrz := F.broken, gapFrz := F.gap } }
  o.banks.foldl (fun L b =>
    (L.setFld (Reg.BANK_SUPPLY b.bank.toNat) 0 12 b.volts.toNat).setFld (Reg.BANK_SUPPLY b.bank.toNat) 16 12 b.ma.toNat) L

/-- What is sensed in the field at the freeze, and the checks of every OUTPUT channel. -/
def State.fieldFreeze (s : State) (o : LaneVec FieldObs) (mirror : BitVec 256) : State :=
  let s := s.updAll fun l L => s.senseLane l (o.get l) L
  if s.mstate = .standby then s.outputs.foldl (fun s n => s.passiveCheck mirror n) s
  else if s.mstate.testsSwitches then s.outputs.foldl (fun s n => s.readbackCheck n) s
  else s

/-! ### Registers (R281 to R283) -/

/-- `BANK_STAT`. -/
def bankStat (f : FieldAg) (file : StationFile) (b : Nat) : Nat :=
  let q := getD ({} : BankSt) f.bank b
  let oos (n : Nat) : Bool := ((file.chans.lookup n).getD {}).mode == 0 || (getD ({} : ChanSt) f.chan n).oos
  q.closed.toNat + q.low.toNat * 2 + q.high.toNat * 4 + q.latched.toNat * 8 + (f.commonFault file b).toNat * 16
    + (List.range 16).foldl (fun m i => if oos (16 * b + i) then m + 2 ^ (16 + i) else m) 0

/-- `CH_CFG`. -/
def chCfgWord (c : ChanCfg) : Nat :=
  c.mode.toNat + c.itype.toNat * 4 + c.filter.toNat * 16 + c.dark.toNat * 0x1000 + c.react.toNat * 0x2000

/-- `CH_DIAG`. -/
def chDiagWord (cfg : ChanCfg) (c : ChanSt) (at_ : Nat) : Nat :=
  if cfg.mode = 0 then 0x120
  else
    let trips := (c.trips.filter fun t => decide (at_ < t + 60000000000)).length
    c.code + c.oos.toNat * 0x100 + (c.codes.any fun x => codeCleared x || x == Code.isolated).toNat * 0x200
      + (if c.code = Code.stuckOpen ∨ c.code = Code.stuckClosed then (if c.code = Code.stuckOpen then c.opens else c.shorts).headD 0 % 8 * 0x400 else 0)
      + (if c.code = Code.wiredTo then c.partners.headD 0 % 256 * 0x10000 else 0) + min 3 trips * 0x1000000

/-- A class of a midpoint as `CH_LIVE` shows it. -/
def Mid.code : Mid → Nat
  | .low => 0 | .mid => 1 | .high => 2 | .between => 3

/-- `CH_LIVE` of a lane; `CMD` is the lane's own command, whether or not its switches may follow it (R34, R262). -/
def State.chLive (s : State) (l : Lane) (n : Nat) : Nat :=
  let F := (s.lane.get l).field
  let x := (s.lane.get l).ladder n
  let sink : Bool := (s.chanCfg n).mode != 0 && !s.sinkOpen n
  (chanBit F.raw n).toNat + (chanBit F.filt n).toNat * 2 + (chanBit F.want n).toNat * 4 + x.iAB.toNat * 0x20
    + x.iBC.toNat * 0x40 + x.iCA.toNat * 0x80 + Mid.code x.midAB * 0x100 + Mid.code x.midBC * 0x400
    + Mid.code x.midCA * 0x1000 + sink.toNat * 0x4000 + (s.filterHeld n).toNat * 0x8000 + x.loadMa % 4096 * 0x10000

/-- A test of an energised output's switches is suspended (R59). -/
def State.suspended (s : State) (n : Nat) : Bool := s.twoOfTwo && s.energised n

/-- The instants from which the deadlines of a channel's switch tests run: each switch's latest test, not before the start of the
deadlines; none where the tests do not run (R59, R243, R262, R265). -/
def State.switchDates (s : State) (n : Nat) : List Nat :=
  if s.mstate.testsSwitches && s.isOutput n && !s.chanOos n && !s.suspended n then
    (List.range 6).map fun i => max ((s.chan n).swAt.getD i 0) (s.chan n).dueFrom
  else []

/-- Those of its complete set: with the input test, and the dark pulse of an energised output (R265). -/
def State.setDates (s : State) (n : Nat) : List Nat :=
  let c := s.chan n
  (if s.mstate.testsInputs then [max c.inAt c.inFrom] else []) ++ s.switchDates n
    ++ (if s.darkTestable n then [max c.darkAt (max c.onFrom c.dueFrom)] else [])

/-- The tests of a channel have not completed in time: its switch tests within 8 s, its complete set within 10 s (R265); a test that
is suspended does not count (R59). -/
def State.testsLate (s : State) (n : Nat) : Bool :=
  (s.switchDates n).any (fun t => decide (t + 8000000000 ≤ s.now))
    || ((s.chanCfg n).mode != 0 && (s.setDates n).any fun t => decide (t + 10000000000 ≤ s.now))

/-- TEST_LATE: the channel's tests have not all completed in time (R265). -/
def execTestLate (ch : BitVec 8) (s : State) : Host.Outcome State Fault Refusal :=
  .next (if s.testsLate ch.toNat then s.addCode ch.toNat Code.testLate 0 0 else s)

/-- The oldest of the instants of a set of tests, as an age in ms. -/
def ageMs (at_ : Nat) (w : Nat) (xs : List Nat) : Nat :=
  match xs with
  | [] => 0
  | x :: xs => min ((at_ - xs.foldl min x) / 1000000) (2 ^ w - 1)

/-- `FS_TEST`. -/
def State.fsTest (s : State) : Nat :=
  let used := (s.file.chans.filter fun e => e.2.mode != 0).map fun e => e.1
  ageMs s.now 13 (used.flatMap s.switchDates) + ageMs s.now 14 (used.flatMap s.setDates) * 0x10000

/-- The registers of Region 2 that are computed: from what the last publication showed, or live. -/
def State.viewField (s : State) (v : Seen) (l : Lane) (off : Nat) : Option Nat :=
  if off = Reg.FS_STAT then
    let m := (List.range 16).foldl (fun m b => if v.fld.commonFault v.file b then m + 2 ^ b else m) 0
    some (m + (if m ≠ 0 then 0x10000 else 0) + (if v.two then 0x20000 else 0))
  else if off = Reg.FS_TEST then some v.tests
  else if Base.bank 0 ≤ off ∧ off < Base.bank 16 then
    let b := (off - Base.bank 0) / 0x1000
    let o := off % 0x1000
    let n := 16 * b + o % 0x40 / 4
    let cfg := (v.file.chans.lookup n).getD {}
    if o = 0x40 then some (bankStat v.fld v.file b)
    else if 0x80 ≤ o ∧ o < 0xC0 then some (chCfgWord cfg)
    else if 0xC0 ≤ o ∧ o < 0x100 then some (chDiagWord cfg (getD {} v.fld.chan n) v.at_)
    else if 0x100 ≤ o ∧ o < 0x140 then some (s.chLive l n)
    else none
  else none

end Sys2Proof.Machine
end

