-- ==== Sys2Proof/Machine/Tick.lean ====
section
/-! DEFINITION. Machine/Tick.lean: the passing of time, and the place of a command in the queue. -/

namespace Sys2Proof.Machine

/-- The time with fewer than three ACTIVE lanes, and the time with three without interruption (R53). -/
def DegSt.advance (d : DegSt) (three : Bool) (dt : Nat) : DegSt :=
  if three then { d with clean := d.clean + dt } else { d with ns := d.ns + dt, clean := 0 }

/-- Nanoseconds pass outside the lanes' clocks: the model's own time, the clock of the keep-alive domain once it is set
(R579), the count of R53. -/
def State.advance (s : State) (dt : Nat) : State :=
  { s with
    now := s.now + dt
    power := { s.power with clkFor := if s.power.clkValid then s.power.clkFor + dt else s.power.clkFor }
    deg := if s.mstate.voting then s.deg.advance (s.activeCount == 3) dt else s.deg }

/-- A lane's crystal runs for `dt` ns: its Station Clock advances in steps of 10 ns, at the rate of the correction less the
slew (R222, R223). The slew is limited, so the clock never runs backwards. -/
def LaneSt.runClock (L : LaneSt) (dt : Nat) : LaneSt :=
  let o := L.osc
  let plain : Int := dt * (100000000 + o.rate)
  let t := ((o.frac : Int) + plain - dt * o.slew).toNat
  { L with
    clock := (L.clock + t / 1000000000 * 10) % 2 ^ 64
    osc := { o with frac := t % 1000000000, run := o.run + plain.toNat } }

/-- Ten nanoseconds pass (R222): the resolution of the Station Clock. The clock of every lane advances while the lanes
are supplied; with X1 absent the lanes are off. Everything else that happens at a date is a command of its own
(log 3). -/
def tick (s : State) : State :=
  let s := s.advance 10
  if s.mstate = .off then s else s.updAll fun _ L => L.runClock 10

/-- A command put at the front of the queue. -/
def State.withCommand (s : State) (i : Instr) : State := { s with pending := i :: s.pending }

end Sys2Proof.Machine
end

