-- ==== Sys2Proof/Machine/Clock.lean ====
section
/-! DEFINITION. Machine/Clock.lean: the Station Clock (R222 to R228): its source, its slew and checks at a freeze, and
the discipline by PTP (R378, R379). -/

namespace Sys2Proof.Machine

/-! ### Signed values -/

/-- A number as a signed 32-bit register shows it, saturating. -/
def satInt32 (x : Int) : Word := BitVec.ofInt 32 (max (-2147483648) (min 2147483647 x))

/-- The difference of two 64-bit instants, signed. -/
def diff64 (a b : Nat) : Int := (BitVec.ofNat 64 (a + (2 ^ 64 - b % 2 ^ 64))).toInt

/-! ### The source (R222, R239) -/

/-- `STC_CFG.SOURCE`: 0 FREE, 1 PTP on NET1, 2 PTP on NET2, 3 PLINK. -/
def State.source (s : State) : Nat := s.file.clockSrc.toNat

/-- A bit of `STC_STAT`, as the lanes agree it: 0 LOCKED, 1 HOLDOVER, 2 STEP_PENDING. -/
def State.stcBit (s : State) (n : Nat) : Bool := s.agreedFld Reg.STC_STAT n 1 == 1

def State.setStc (s : State) (n : Nat) (b : Bool) : State :=
  s.updAll fun _ L => if b then L.setBits Reg.STC_STAT (2 ^ n) else L.clearBits Reg.STC_STAT (2 ^ n)

/-- The agreed offset of the agreed time from the source, as `STC_SRC` shows it. -/
def State.srcOffset (s : State) : Int := (s.agreedReg Reg.STC_SRC).toInt

def State.setSrcOffset (s : State) (x : Int) : State := s.updAll fun _ L => L.setReg Reg.STC_SRC (satInt32 x)

/-- The module slews towards a source: the duty module in STANDBY (R227); otherwise the source that is named, unless it is in
holdover or a step is pending (R223, R226). -/
def State.followsSource (s : State) : Bool :=
  s.mstate == .standby || (s.source != 0 && !s.stcBit 1 && !s.stcBit 2)

/-! ### Slew (R223), decided at a freeze for the cycle that follows -/

/-- One eighth of a sum of offsets in ns, spread evenly over a cycle, as a rate in 0.01 ppm, limited to 200 ppm (R223). -/
def slewOf (sum : Int) (cycle : Nat) : Int := max (-20000) (min 20000 (sum * 100000000 / (8 * cycle : Nat)))

/-- A free value as a deviation of at most `n`, in 0.01 ppm. -/
def within (n : Nat) (w : Word) : Int := (w.toNat % (2 * n + 1) : Nat) - n

/-- The time of the last 1,024 cycles on a lane's clock without slew, once that many have passed (R225). -/
def OscSt.window (o : OscSt) : Option Nat := if o.runs.length = 1024 then some (o.runs.foldl (· + ·) 0) else none

/-- The mean of two numbers and the median of three. -/
def median3 (a b c : Int) : Int := max (min a b) (min (max a b) c)

/-- The median of the offsets of three lanes, the mean of two (R379). -/
def agreedOffset (ls : LaneSet) (v : LaneVec Int) : Int :=
  match ls.a, ls.b, ls.c with
  | true, true, true => median3 v.a v.b v.c
  | true, true, false => (v.a + v.b) / 2
  | true, false, true => (v.a + v.c) / 2
  | false, true, true => (v.b + v.c) / 2
  | true, false, false => v.a
  | false, true, false => v.b
  | false, false, true => v.c
  | false, false, false => 0

/-- A lane's rate against the median of the lanes `ls` over the last 1,024 cycles, in 0.01 ppm (R225); 0 until so many have
passed (DESIGN CHOICE, log 106). -/
def State.rateDev (s : State) (ls : LaneSet) (l : Lane) : Int :=
  match (s.lane.get l).osc.window with
  | none => 0
  | some x =>
    let full : LaneSet := LaneVec.ofFn fun y => ls.get y && (s.lane.get y).osc.window.isSome
    let m := agreedOffset full (LaneVec.ofFn fun y => (((s.lane.get y).osc.window.getD 0 : Nat) : Int))
    ((x : Int) - m) * 100000000 / m

/-- The agreed offset of the agreed time from the source at the freeze whose agreed time is `t0`: as it was last, and what the
agreed time has moved against the lanes' clocks without slew (R223; DEDUCED, log 107). -/
def State.offsetAt (s : State) (t0 : Nat) : Int :=
  if s.cyc.t0 = 0 then s.srcOffset
  else
    let run := agreedOffset s.counting (LaneVec.ofFn fun l => (((s.lane.get l).osc.run / 100000000 : Nat) : Int))
    s.srcOffset + diff64 t0 s.cyc.t0 - run

/-- The lanes whose measurements count: the ACTIVE ones while the module votes. -/
def State.measuring (s : State) : LaneSet := if s.mstate.voting then s.active else .all true

/-! ### Loss and return of the source (R226) -/

/-- HOLDOVER, once the source has been lost for 10 s: the flag, a NOTE under SRC_LOST; the last rate correction stays. -/
def execHoldover (s : State) : Host.Outcome State Fault Refusal :=
  match s.srcLost with
  | some t =>
    if s.source ≠ 0 ∧ t + 10000000000 ≤ s.now then .next (((s.setStc 1 true).setStc 0 false).reportAll Base.stc 2 0) else .next s
  | none => .next s

/-- SOURCE_RETURN: the module slews towards the source, or leaves a step pending where the offset exceeds 1 s. A standby goes on
following its duty module (R227). -/
def execSourceReturn (offset : DWord) (s : State) : Host.Outcome State Fault Refusal :=
  if s.source = 0 then .next s
  else
    let x := offset.toInt
    let s := ({ s with srcLost := none }).setStc 1 false
    let s := if s.mstate = .standby then s else s.setSrcOffset x
    .next (if x < -1000000000 ∨ 1000000000 < x then
      (s.setStc 2 true).event Base.stc 0x016 0
    else s)

/-- The source is lost from now (R226). -/
def State.loseSource (s : State) : State :=
  { s with srcLost := match s.srcLost with | some t => some t | none => some s.now }

/-! ### PTP (R378, R379) -/

/-- The number of a NET port: 0 NET1, 1 NET2. -/
def netIdx : Net → Nat
  | .net1 => 0 | .net2 => 1

def State.netCfg (s : State) (n : Net) : NetCfg := match n with | .net1 => s.file.net1 | .net2 => s.file.net2

def State.ptp (s : State) (n : Net) : PtpSt := match n with | .net1 => s.ptp1 | .net2 => s.ptp2

def State.setPtp (s : State) (n : Net) (f : PtpSt → PtpSt) : State :=
  match n with
  | .net1 => { s with ptp1 := f s.ptp1 }
  | .net2 => { s with ptp2 := f s.ptp2 }

/-- The module runs PTP on a port: `STC_CFG.SOURCE` names it. -/
def State.runsPtp (s : State) (n : Net) : Bool := s.source == netIdx n + 1

/-- The place of a clock in the acceptable master table. -/
def State.masterIdx (s : State) (n : Net) (m : DWord) : Option Nat :=
  ((s.netCfg n).masters.take 4).findIdx? fun x => x == m

/-- What a NET port sends besides Tablet telegrams. -/
def State.say (s : State) (n : Net) (m : NetMsg) : State :=
  match n with
  | .net1 => { s with said1 := some m }
  | .net2 => { s with said2 := some m }

/-- A frame has come in: the link is up (R384; DEDUCED, log 148). -/
def State.netHeard (s : State) (n : Net) (ls : LaneSet) : State := s.updIn ls fun _ L => L.setBits (Reg.NET_STAT (netIdx n)) 1

/-- A PTP message that no rule takes: counted FOREIGN where PTP runs (R378), otherwise with the protocols of R373. -/
def State.foreign (s : State) (n : Net) : State :=
  if s.runsPtp n then s.updAll fun _ L => L.addFld (Reg.PTP_CNT (netIdx n)) 0 16 1
  else s.updAll fun _ L => L.addFld (Reg.NET_DROP (netIdx n)) 16 16 1

/-- A PTP message that the port takes: over its protocol and in its domain, from a clock of the table (R378). -/
def State.takesPtp (s : State) (n : Net) (h : PtpHead) : Bool :=
  s.runsPtp n && h.v6 == (s.netCfg n).ptpV6 && decide (h.domain.toNat = (s.netCfg n).domain.toNat) && (s.masterIdx n h.master).isSome

/-- A message from the chosen master. -/
def State.fromMaster (s : State) (n : Net) (h : PtpHead) : Bool :=
  s.takesPtp n h && s.masterIdx n h.master == (s.ptp n).master

/-- The first list of numbers comes before the second, position by position. -/
def lexLt : List Nat → List Nat → Bool
  | x :: xs, y :: ys => if x = y then lexLt xs ys else decide (x < y)
  | _, _ => false

/-- The data set comparison of IEEE 1588-2019 (R378; PRESUMED, log 149): of one grandmaster the fewer steps, then the lower sender; of
two their priorities, qualities and identities. -/
def betterClock (a b : Announce) (ma mb : DWord) : Bool :=
  if a.gm = b.gm then lexLt [a.steps.toNat, ma.toNat] [b.steps.toNat, mb.toNat]
  else lexLt [a.prio1.toNat, a.cls.toNat, a.acc.toNat, a.var.toNat, a.prio2.toNat, a.gm.toNat]
    [b.prio1.toNat, b.cls.toNat, b.acc.toNat, b.var.toNat, b.prio2.toNat, b.gm.toNat]

/-- PTP_ANNOUNCE: the best master among those of the table (R378). A change of master begins uncalibrated. -/
def execPtpAnnounce (net : Net) (h : PtpHead) (a : Announce) (s : State) : Host.Outcome State Fault Refusal :=
  let s := s.netHeard net (.all true)
  match s.masterIdx net h.master with
  | some i =>
    if !s.takesPtp net h then .next (s.foreign net)
    else
      let q := s.ptp net
      let wins : Bool := match q.master with
        | none => true
        | some j => j != i && betterClock a q.best h.master ((s.netCfg net).masters.getD j 0)
      .next (if wins then s.setPtp net fun _ => { st := 2, master := some i, best := a }
        else if q.master = some i then s.setPtp net fun q => { q with best := a } else s)
  | none => .next (s.foreign net)

/-- What the module knows of the offset from its own source when it takes the role: that of a locked PTP port, 0 until it
measures one (R227; DESIGN CHOICE, log 108). -/
def State.ownOffset (s : State) : Int :=
  let of_ (q : PtpSt) : Int := if q.locked then agreedOffset s.measuring q.off else 0
  match s.source with
  | 1 => of_ s.ptp1
  | 2 => of_ s.ptp2
  | _ => 0

/-- The source of a port counts as lost (R379). -/
def State.losePtp (s : State) (n : Net) : State :=
  let s := s.setPtp n fun q => { q with
    st := if q.master.isSome then 2 else 1, locked := false, run := 0, waitFu := false, gotPair := false, noResp := 0 }
  (s.setStc 0 false).loseSource.reportAll (Base.net (netIdx n)) 1 0

/-- `k` further Sync intervals without a valid pair: counted, no run towards lock goes on, and the fourth in a row loses the source
(R379, R384). -/
def State.missPair (s : State) (n : Net) (k : Nat) : State :=
  let was := (s.ptp n).missed
  let s := s.updAll fun _ L => L.addFld (Reg.PTP_CNT (netIdx n)) 16 16 k
  let s := s.setPtp n fun q => { q with missed := q.missed + k, run := 0, waitFu := false }
  if was < 4 ∧ 4 ≤ was + k then s.losePtp n else s

/-- A Sync pair is complete: each lane's offset, the agreed one, the count towards lock; a Delay_Req goes out, and the fourth pair in a
row since the last Delay_Resp loses the source (R378, R379). -/
def State.ptpPair (s : State) (n : Net) (t1 : Nat) (t2 : LaneVec Nat) : State :=
  let s := s.setPtp n fun q => { q with
    t1 := t1, t2 := t2, gotPair := true, waitFu := false, missed := 0, reqSeq := q.reqSeq + 1, noResp := q.noResp + 1 }
  let s := s.say n (.delayReq (s.netCfg n).ptpV6 (s.netCfg n).domain (s.ptp n).reqSeq)
  if (s.ptp n).st ≠ 3 then s
  else if 4 < (s.ptp n).noResp then s.losePtp n
  else
    let off : LaneVec Int := LaneVec.ofFn fun l => diff64 (t2.get l) t1 - (s.ptp n).delay.get l
    let x := agreedOffset s.measuring off
    let run := if -10000 ≤ x ∧ x ≤ 10000 then min 16 ((s.ptp n).run + 1) else 0
    let locks : Bool := (s.ptp n).locked || run == 16
    let s := s.setPtp n fun q => { q with off := off, run := run, locked := locks }
    let s := s.updAll fun l L => L.setReg (Reg.PTP_OFFSET (netIdx n)) (satInt32 (off.get l))
    let s := if s.mstate = .standby then s else s.setSrcOffset x
    if locks then s.setStc 0 true else s

/-- The Sync interval lies from 2^−7 s to 2 s (R378). -/
def syncInRate (h : PtpHead) : Bool := decide (-7 ≤ h.interval.toInt) && decide (h.interval.toInt ≤ 1)

/-- PTP_SYNC: stamped in each lane; complete at once from a one-step master. One that finds another still waiting for its Follow_Up ends
an interval without a pair (R379). -/
def execPtpSync (net : Net) (h : PtpHead) (seq : Half) (twoStep : Bool) (t1 : DWord) (t2 : LaneVec DWord) (s : State) :
    Host.Outcome State Fault Refusal :=
  let v : LaneVec Nat := LaneVec.ofFn fun l => (t2.get l).toNat
  let s := s.netHeard net (.all true)
  if !s.fromMaster net h || !syncInRate h then .next (s.foreign net)
  else
    let s := if (s.ptp net).waitFu then s.missPair net 1 else s
    if twoStep then .next (s.setPtp net fun q => { q with seq := seq, wait2 := v, waitFu := true })
    else .next (s.ptpPair net t1.toNat v)

/-- PTP_FOLLOW_UP: completes the Sync of its sequence number. -/
def execPtpFollowUp (net : Net) (h : PtpHead) (seq : Half) (t1 : DWord) (s : State) : Host.Outcome State Fault Refusal :=
  let s := s.netHeard net (.all true)
  let q := s.ptp net
  if !s.fromMaster net h || !q.waitFu || q.seq != seq then .next (s.foreign net)
  else .next (s.ptpPair net t1.toNat q.wait2)

/-- PTP_DELAY_RESP to the latest Delay_Req: each lane's mean path delay from the latest pair; the port is a slave from its first. -/
def execPtpDelayResp (net : Net) (h : PtpHead) (seq : Half) (t3 : LaneVec DWord) (t4 : DWord) (s : State) :
    Host.Outcome State Fault Refusal :=
  let s := s.netHeard net (.all true)
  let q := s.ptp net
  if !s.fromMaster net h || !q.gotPair || q.reqSeq != seq then .next (s.foreign net)
  else .next (s.setPtp net fun q => { q with
      st := 3, noResp := 0
      delay := LaneVec.ofFn fun l => (diff64 (q.t2.get l) q.t1 + diff64 t4.toNat (t3.get l).toNat) / 2 })

/-- PTP_LOST: four Sync intervals in a row without a valid pair, those that earlier Syncs have told among them; the source counts as lost
(R379). Four further ones count again. -/
def execPtpLost (net : Net) (s : State) : Host.Outcome State Fault Refusal :=
  if !s.runsPtp net then .next s
  else .next (s.missPair net (if (s.ptp net).missed < 4 then 4 - (s.ptp net).missed else 4))

/-! ### Registers (R239, R384) -/

/-- `PTP_STAT`. -/
def State.ptpStat (s : State) (n : Net) : Nat :=
  let q := s.ptp n
  if s.runsPtp n then
    (if q.st = 0 then 1 else q.st.toNat) + q.locked.toNat * 4 + (q.master.getD 0xFF) * 0x100
      + (s.netCfg n).domain.toNat * 0x10000
  else 0xFF00

/-- `STC_CFG`. -/
def State.stcCfg (s : State) (file : StationFile) : Nat :=
  file.clockSrc.toNat + (if s.mstate = .standby then 8 else 0)

/-- The registers of the Station Clock and of PTP that are computed. -/
def State.viewClock (s : State) (v : Seen) (l : Lane) (off : Nat) : Option Nat :=
  if off = Reg.STC_NOW_LO then some ((s.lane.get l).clock % 2 ^ 32)
  else if off = Reg.STC_NOW_HI then some ((s.lane.get l).clock / 2 ^ 32)
  else if off = Reg.STC_CFG then some (s.stcCfg v.file)
  else if off = Reg.PTP_STAT 0 then some (s.ptpStat .net1)
  else if off = Reg.PTP_STAT 1 then some (s.ptpStat .net2)
  else none

end Sys2Proof.Machine
end

