-- ==== Sys2Proof/Machine/Booking.lean ====
section
/-! DEFINITION. Machine/Booking.lean: the Booking Office (R205 to R221): request and answer records, admission, route
states and transaction slots. It works on the working buffer of one lane. -/

namespace Sys2Proof.Machine

/-! ### Codes (R210, R217) -/

namespace Booking
abbrev alreadySet : Nat := 0x01
abbrev conflict : Nat := 0x02
abbrev notRunning : Nat := 0x03
abbrev inPossession : Nat := 0x04
abbrev unknownRoute : Nat := 0x05
abbrev slotsFull : Nat := 0x06
abbrev busy : Nat := 0x07
abbrev notSet : Nat := 0x08
abbrev barred : Nat := 0x09
abbrev notAuthorised : Nat := 0x0A
abbrev pointsFailed : Nat := 0x0B
abbrev badRecord : Nat := 0x0C
abbrev trainInRoute : Nat := 0x0D
abbrev cancelled : Nat := 0x20
abbrev released : Nat := 0x21
end Booking

namespace Route
abbrev idle : Nat := 0
abbrev requested : Nat := 1
abbrev occupied : Nat := 7
abbrev releasing : Nat := 8
abbrev cancelling : Nat := 9
/-- A slot that has CLOSED (R215). -/
abbrev closedSlot : Nat := 0x0F
end Route

/-- The transitions that cells may make (R217), with the outcome of those to FREE. -/
def cellMove (s0 s1 : Nat) : Option (Option Nat) :=
  match s0, s1 with
  | 1, 2 => some none
  | 1, 0 => some (some Booking.conflict)
  | 2, 3 => some none
  | 3, 4 => some none
  | 3, 0 => some (some Booking.pointsFailed)
  | 4, 5 => some none
  | 5, 6 => some none
  | 6, 4 => some none
  | 6, 7 => some none
  | 7, 8 => some none
  | 8, 0 => some (some Booking.released)
  | 2, 9 => some none
  | 3, 9 => some none
  | 4, 9 => some none
  | 5, 9 => some none
  | 6, 9 => some none
  | 9, 0 => some (some Booking.cancelled)
  | 9, 7 => some none
  | _, _ => none

/-- A commit of a route's `STATE` and `OUTCOME` that R218 accepts. -/
def moveLegal (s0 o0 s1 o1 : Nat) : Bool :=
  if s0 = s1 then o0 == o1
  else match cellMove s0 s1 with
    | some (some o) => o1 == o
    | some none => o1 == o0
    | none => false

/-! ### A change of a route's state (R204, R214, R216) -/

/-- What the Booking Office keeps with a route whose `STATE` has changed to `st`: the time, the slot's mirror, the
flags. -/
def LaneSt.routeMoved (L : LaneSt) (s : State) (r st : Nat) : LaneSt :=
  let cf := L.routeCflags r
  let sl := Img.slot (L.routeSlot r)
  let L := L.imgPutLe (Img.route r + 12) 4 (s.cyc.t0 / 1000)
  let L := if cf.testBit 2 then
      let L := L.imgPutLe (sl + 0x1C) 4 s.cyc.num
      if st = Route.idle then (L.imgPutLe sl 1 Route.closedSlot).imgPutLe (sl + 1) 1 (L.routeOutcome r)
      else L.imgPutLe sl 1 st
    else L
  if st = Route.idle then (L.imgPutLe (Img.route r + 3) 1 (setBitOf (setBitOf cf 0 false) 2 false)).imgPutLe (Img.route r + 4) 2 0xFFFF
  else if st = Route.occupied then L.imgPutLe (Img.route r + 3) 1 (setBitOf cf 0 false)
  else L

/-! ### Admission and refusal -/

/-- A refusal: counted, kept in `BO_LAST`, recorded as a NOTE (R221); a SET refused with FULL raises an interrupt. -/
def LaneSt.bookRefuse (L : LaneSt) (l : Lane) (code session ident cycle : Nat) : LaneSt :=
  let L := (L.addFld Reg.BO_CNT 16 16 1).setReg Reg.BO_LAST (BitVec.ofNat 32 (code + session * 256 + ident * 65536))
  let k := Blk.ofOff Base.bo
  let L := L.record (obPath l k.region.toNat k.block.toNat 0x1F) (obCode 7 code) 0 0 cycle (obData (session + ident * 65536))
  if code = Booking.slotsFull then L.setBits (Base.bo + 0x18) 1 else L

/-- The lowest-numbered EMPTY slot. -/
def LaneSt.emptySlot (L : LaneSt) : Option Nat := (List.range 512).find? fun n => L.slotState n == 0

/-- A slot that is not EMPTY and whose route identity and tag, at offset `at_`, are given (R211). -/
def LaneSt.tagSlot (L : LaneSt) (ident tag at_ : Nat) (session : Option Nat) : Option Nat :=
  (List.range 512).find? fun n =>
    L.slotState n != 0 && L.imgLe (Img.slot n + 6) 2 == ident && L.imgLe (Img.slot n + at_) 4 == tag
      && (match session with | some x => L.imgByte (Img.slot n + 3) == x | none => true)

/-- The count of generations since a slot closed ends (R216). -/
def LaneSt.forgetClosed (L : LaneSt) (slot : Nat) : LaneSt :=
  { L with logic := { L.logic with closedAt := L.logic.closedAt.filter fun e => e.1 != slot } }

/-- An accepted SET takes a slot (R216). -/
def LaneSt.admitRoute (L : LaneSt) (s : State) (rc : RouteCfg) (slot origin session tag : Nat) : LaneSt :=
  let a := Img.slot slot
  let r := Img.route rc.num
  let L := L.imgPut a ([byteOf Route.requested, 0, byteOf origin, byteOf session] ++ toLe 2 rc.num ++ toLe 2 rc.id
    ++ toLe 4 tag ++ toLe 4 0 ++ toLe 8 s.cyc.t0 ++ toLe 4 s.cyc.num ++ toLe 4 s.cyc.num)
  let cf := L.routeCflags rc.num
  let L := ((L.imgPutLe r 1 Route.requested).imgPutLe (r + 1) 1 0).imgPutLe (r + 3) 1 (setBitOf (setBitOf cf 0 false) 2 true)
  let L := (L.imgPutLe (r + 4) 2 slot).imgPutLe (r + 12) 4 (s.cyc.t0 / 1000)
  (L.addFld Reg.BO_CNT 0 16 1).forgetClosed slot

/-- Steps 7 to 10 of a SET (R209): the refusal, or 0. -/
def LaneSt.setBar (L : LaneSt) (r : Nat) : Nat :=
  if L.routeState r ≠ Route.idle then Booking.alreadySet
  else if (L.routeLflags r).testBit 2 then Booking.barred
  else if (L.routeCflags r).testBit 1 then Booking.inPossession
  else if L.emptySlot.isNone then Booking.slotsFull
  else 0

/-- The module decides requests (R209 step 3). -/
def MState.running : MState → Bool
  | .run => true | .duty => true
  | _ => false

/-- The slot that an answer names: 0xFFFF when none. -/
def LaneSt.answerSlot (L : LaneSt) (r : Nat) : Nat := if (L.routeCflags r).testBit 2 then L.routeSlot r else 0xFFFF

/-- The answer record (R206). -/
def answerRecord (op result ident tag slot state gen : Nat) : Bytes :=
  [byteOf op, byteOf result] ++ toBe 2 ident ++ toBe 4 tag ++ toBe 2 slot ++ [byteOf state, 0] ++ toBe 4 gen

/-- What a decision leaves and answers: the lane, the result, the slot, the route's state. -/
structure Decision where
  lane   : LaneSt
  result : Nat
  slot   : Nat
  state  : Nat

/-- A refused record. -/
def LaneSt.decline (L : LaneSt) (l : Lane) (s : State) (code session ident state : Nat) : Decision :=
  ⟨L.bookRefuse l code session ident s.cyc.num, code, 0xFFFF, state⟩

/-- Step 2 of R209. -/
def badRec (r : ReqRec) (withTag : Bool) : Bool :=
  r.rsv != 0 || r.rsv2 != 0 || (withTag && r.tag == 0)

/-- A SET record (R209, R211, R216). -/
def LaneSt.decideSet (L : LaneSt) (l : Lane) (s : State) (session : Nat) (r : ReqRec) : Decision :=
  let id := r.routeId.toNat
  match s.routeById id with
  | none => if !s.mstate.running then L.decline l s Booking.notRunning session id 0
    else L.decline l s Booking.unknownRoute session id 0
  | some rc =>
    let st := L.routeState rc.num
    if !s.mstate.running then L.decline l s Booking.notRunning session id st
    else if !rc.setBy.contains session then L.decline l s Booking.notAuthorised session id st
    else match L.tagSlot id r.tag.toNat 8 (some session) with
      | some n => ⟨L, 0, n, st⟩
      | none =>
        let bar := L.setBar rc.num
        if bar ≠ 0 then L.decline l s bar session id st
        else
          let n := (L.emptySlot).getD 0
          ⟨L.admitRoute s rc n 1 session r.tag.toNat, 0, n, Route.requested⟩

/-- An accepted CANCEL (R214, R215). -/
def LaneSt.acceptCancel (L : LaneSt) (s : State) (r tag : Nat) : LaneSt :=
  let st := L.routeState r
  if st = Route.cancelling then L
  else
    let L := if (L.routeCflags r).testBit 2 then L.imgPutLe (Img.slot (L.routeSlot r) + 12) 4 tag else L
    if st = Route.requested then
      ((L.imgPutLe (Img.route r) 1 Route.idle).imgPutLe (Img.route r + 1) 1 Booking.cancelled).routeMoved s r Route.idle
    else L.imgPutLe (Img.route r + 3) 1 (setBitOf (L.routeCflags r) 0 true)

/-- A CANCEL record (R209, R211, R214). -/
def LaneSt.decideCancel (L : LaneSt) (l : Lane) (s : State) (session : Nat) (r : ReqRec) : Decision :=
  let id := r.routeId.toNat
  match s.routeById id with
  | none => if !s.mstate.running then L.decline l s Booking.notRunning session id 0
    else L.decline l s Booking.unknownRoute session id 0
  | some rc =>
    let st := L.routeState rc.num
    if !s.mstate.running then L.decline l s Booking.notRunning session id st
    else if !rc.cancBy.contains session then L.decline l s Booking.notAuthorised session id st
    else match L.tagSlot id r.tag.toNat 12 none with
      | some n => ⟨L, 0, n, st⟩
      | none =>
        if st = Route.idle then L.decline l s Booking.notSet session id st
        else if st = Route.occupied ∨ st = Route.releasing then L.decline l s Booking.trainInRoute session id st
        else
          let slot := L.answerSlot rc.num
          let L := L.acceptCancel s rc.num r.tag.toNat
          ⟨L, 0, slot, L.routeState rc.num⟩

/-- A QUERY record (R209). -/
def LaneSt.decideQuery (L : LaneSt) (l : Lane) (s : State) (session : Nat) (r : ReqRec) : Decision :=
  let id := r.routeId.toNat
  match s.routeById id with
  | none => L.decline l s Booking.unknownRoute session id 0
  | some rc => ⟨L, 0, L.answerSlot rc.num, L.routeState rc.num⟩

/-- Which decision a record asks for. -/
def LaneSt.decideOp (L : LaneSt) (l : Lane) (s : State) (session : Nat) (r : ReqRec) : Decision :=
  let id := r.routeId.toNat
  let st := match s.routeById id with | some rc => L.routeState rc.num | none => 0
  if 64 ≤ L.logic.decided then L.decline l s Booking.busy session id st
  else
    let L := { L with logic := { L.logic with decided := L.logic.decided + 1 } }
    let L := L.setFld Reg.BO_CYCLE 0 7 L.logic.decided
    let L := L.maxFld Reg.BO_CYCLE 16 7 L.logic.decided
    match r.op.toNat with
    | 1 => if badRec r true then L.decline l s Booking.badRecord session id st else L.decideSet l s session r
    | 2 => if badRec r true then L.decline l s Booking.badRecord session id st else L.decideCancel l s session r
    | 3 => if badRec r false then L.decline l s Booking.badRecord session id st else L.decideQuery l s session r
    | _ => L.decline l s Booking.badRecord session id st

/-- One record decided and answered (R206 to R209); padding is skipped. -/
def LaneSt.bookOne (L : LaneSt) (l : Lane) (s : State) (session : Nat) (r : ReqRec) : LaneSt :=
  if r.op = 0 then L
  else
    let d := L.decideOp l s session r
    { d.lane with logic := { d.lane.logic with
        answers := d.lane.logic.answers ++
          [(session, answerRecord r.op.toNat d.result r.routeId.toNat r.tag.toNat d.slot d.state s.nextGen)] } }

/-- The 16 bytes of a request record as fields (R205). -/
def recordOf (bs : Bytes) : ReqRec :=
  ⟨bs.getD 0 0, bs.getD 1 0, BitVec.ofNat 16 (beAt bs 2 2), BitVec.ofNat 32 (beAt bs 4 4), BitVec.ofNat 64 (beAt bs 8 8)⟩

/-- The records of a telegram's payload. -/
def recordsOf (payload : Bytes) : List ReqRec :=
  (List.range (payload.length / 16)).map fun i => recordOf (slice payload (16 * i) 16)

/-- The records of the agreed input image, in the order of R207. -/
def LaneSt.takenRecords (L : LaneSt) : List (Nat × ReqRec) :=
  (List.range 64).flatMap fun n => ((L.session n).reqs.flatMap recordsOf).map fun r => (n, r)

/-- A route put into a list by its record number. -/
def insertRoute (rc : RouteCfg) : List RouteCfg → List RouteCfg
  | [] => [rc]
  | x :: xs => if rc.num ≤ x.num then rc :: x :: xs else x :: insertRoute rc xs

/-- The routes whose `AUTO_REQ` has risen since the last published generation, ascending (R212). -/
def LaneSt.autoRisen (L : LaneSt) (s : State) : List RouteCfg :=
  let up := s.routes.filter fun rc =>
    (L.routeLflags rc.num).testBit 3 && !((memGet L.image.published (Img.route rc.num + 2)).toNat.testBit 3)
  up.foldl (fun xs rc => insertRoute rc xs) []

/-- A SET of origin LOGIC (R212): steps 3 and 7 to 10. -/
def LaneSt.decideAuto (L : LaneSt) (l : Lane) (s : State) (rc : RouteCfg) : LaneSt :=
  if !s.mstate.running then L.bookRefuse l Booking.notRunning 0xFF rc.id s.cyc.num
  else
    let bar := L.setBar rc.num
    if bar ≠ 0 then L.bookRefuse l bar 0xFF rc.id s.cyc.num
    else L.admitRoute s rc ((L.emptySlot).getD 0) 2 0xFF 0

/-- The Booking Office's part of the last commit (R207, R208, R212), and the clocks it takes. -/
def LaneSt.bookingOffice (L : LaneSt) (l : Lane) (s : State) : LaneSt × Nat :=
  let recs := (L.takenRecords).filter fun e => e.2.op != 0
  let L0 := L.setFld Reg.BO_CYCLE 0 7 0
  let L1 := recs.foldl (fun L e => L.bookOne l s e.1 e.2) L0
  let autos := L1.autoRisen s
  let L2 := autos.foldl (fun L rc => L.decideAuto l s rc) L1
  let n := min 64 recs.length
  (L2, 16 + 2 * n + (recs.length - n) + 2 * autos.length)

/-! ### Slots that close (R216) -/

/-- Counts the generations published since each slot closed: a slot CLOSED in the published image for the first time
counts 1. -/
def LaneSt.ageClosed (L : LaneSt) : LaneSt :=
  let shut := (List.range 512).filter fun n => (memGet L.image.published (Img.slot n)).toNat == Route.closedSlot
  { L with logic := { L.logic with
      closedAt := shut.map fun n => (n, ((L.logic.closedAt.lookup n).getD 0) + 1) } }

/-- SLOT_EMPTIED: a CLOSED slot becomes EMPTY for the fourth generation after the one in which it closed. -/
def execSlotEmptied (slot : BitVec 9) (s : State) : Host.Outcome State Fault Refusal :=
  let n := slot.toNat
  .next (s.updIn s.inStep fun _ L =>
    if L.slotState n = Route.closedSlot ∧ 4 ≤ (L.logic.closedAt.lookup n).getD 0 then
      ((L.imgPutLe (Img.slot n) 1 0).imgPutLe (Img.slot n + 0x1C) 4 s.cyc.num).forgetClosed n
    else L)

/-! ### Single records, as the table lists them (log 13) -/

/-- One record decided in every lane that evaluates. -/
def State.bookRecord (s : State) (session : Nat) (r : ReqRec) : State :=
  if s.mstate.evaluates then s.updIn s.inStep fun l L => L.bookOne l s session r else s

/-- ROUTE_SET: a SET record is admitted to a slot or refused, and answered. -/
def execRouteSet (session : BitVec 6) (r : ReqRec) (s : State) : Host.Outcome State Fault Refusal :=
  .next (s.bookRecord session.toNat { r with op := 1 })

/-- ROUTE_CANCEL: a CANCEL record is admitted or refused, and answered. -/
def execRouteCancel (session : BitVec 6) (r : ReqRec) (s : State) : Host.Outcome State Fault Refusal :=
  .next (s.bookRecord session.toNat { r with op := 2 })

/-- ROUTE_QUERY: answered with the route's state and slot. -/
def execRouteQuery (session : BitVec 6) (r : ReqRec) (s : State) : Host.Outcome State Fault Refusal :=
  .next (s.bookRecord session.toNat { r with op := 3 })

/-! ### Transitions (R218) -/

/-- The routes among those of a list whose commit R218 refuses are put back; the others take effect. The lane, and the
routes refused. -/
def LaneSt.checkRoutes (L : LaneSt) (s : State) (before : LaneSt) (routes : List Nat) : LaneSt × List Nat :=
  routes.foldl (fun p r =>
    let s0 := before.routeState r
    let o0 := before.routeOutcome r
    let s1 := p.1.routeState r
    let o1 := p.1.routeOutcome r
    if s0 = s1 ∧ o0 = o1 then p
    else if moveLegal s0 o0 s1 o1 then (p.1.routeMoved s r s1, p.2)
    else ((p.1.imgPutLe (Img.route r) 1 s0).imgPutLe (Img.route r + 1) 1 o0, p.2 ++ [r])) (L, [])

end Sys2Proof.Machine
end

