-- ==== Sys2Proof/Machine/Crypto.lean ====
section
/-! DEFINITION. Machine/Crypto.lean: the algorithms that R362 to R367 name by their standards, as those standards define them:
SHA-256 (FIPS 180), HMAC (RFC 2104) and HKDF-SHA-256 (RFC 5869), AES-128 (FIPS 197) and its CMAC (SP 800-38B), ECDH and ECDSA
on P-256 (FIPS 186, SEC 1), X.509 v3 certificates in DER (RFC 5280). PRESUMED: the standards, which are not in the spec
(log 144). -/

namespace Sys2Proof.Machine

/-! ### SHA-256 -/

namespace Sha

/-- The 64 round constants. -/
def k : List Nat :=
  [0x428a2f98, 0x71374491, 0xb5c0fbcf, 0xe9b5dba5, 0x3956c25b, 0x59f111f1, 0x923f82a4, 0xab1c5ed5] ++
  [0xd807aa98, 0x12835b01, 0x243185be, 0x550c7dc3, 0x72be5d74, 0x80deb1fe, 0x9bdc06a7, 0xc19bf174] ++
  [0xe49b69c1, 0xefbe4786, 0x0fc19dc6, 0x240ca1cc, 0x2de92c6f, 0x4a7484aa, 0x5cb0a9dc, 0x76f988da] ++
  [0x983e5152, 0xa831c66d, 0xb00327c8, 0xbf597fc7, 0xc6e00bf3, 0xd5a79147, 0x06ca6351, 0x14292967] ++
  [0x27b70a85, 0x2e1b2138, 0x4d2c6dfc, 0x53380d13, 0x650a7354, 0x766a0abb, 0x81c2c92e, 0x92722c85] ++
  [0xa2bfe8a1, 0xa81a664b, 0xc24b8b70, 0xc76c51a3, 0xd192e819, 0xd6990624, 0xf40e3585, 0x106aa070] ++
  [0x19a4c116, 0x1e376c08, 0x2748774c, 0x34b0bcb5, 0x391c0cb3, 0x4ed8aa4a, 0x5b9cca4f, 0x682e6ff3] ++
  [0x748f82ee, 0x78a5636f, 0x84c87814, 0x8cc70208, 0x90befffa, 0xa4506ceb, 0xbef9a3f7, 0xc67178f2]

/-- The initial hash value. -/
def h0 : List Nat :=
  [0x6a09e667, 0xbb67ae85, 0x3c6ef372, 0xa54ff53a, 0x510e527f, 0x9b05688c, 0x1f83d9ab, 0x5be0cd19]

def add (a b : Nat) : Nat := (a + b) % 2 ^ 32

def rotr (n x : Nat) : Nat := (x >>> n) ||| ((x <<< (32 - n)) % 2 ^ 32)

/-- The next word of a message schedule, kept latest first. -/
def next (w : List Nat) : Nat :=
  let x := w.getD 14 0
  let y := w.getD 1 0
  let s0 := rotr 7 x ^^^ rotr 18 x ^^^ (x >>> 3)
  let s1 := rotr 17 y ^^^ rotr 19 y ^^^ (y >>> 10)
  add (add (w.getD 15 0) s0) (add (w.getD 6 0) s1)

/-- `n` further words. -/
def extend : Nat → List Nat → List Nat
  | 0, w => w
  | n + 1, w => extend n (next w :: w)

/-- One round on the eight working variables with a round constant and a word. -/
def round (v : List Nat) (kw : Nat × Nat) : List Nat :=
  match v with
  | [a, b, c, d, e, f, g, h] =>
    let t1 := add (add h (rotr 6 e ^^^ rotr 11 e ^^^ rotr 25 e))
      (add ((e &&& f) ^^^ ((2 ^ 32 - 1 - e) &&& g)) (add kw.1 kw.2))
    let t2 := add (rotr 2 a ^^^ rotr 13 a ^^^ rotr 22 a) ((a &&& b) ^^^ (a &&& c) ^^^ (b &&& c))
    [add t1 t2, a, b, c, add d t1, e, f, g]
  | v => v

/-- The hash value after a block of 64 bytes. -/
def block (h : List Nat) (bs : Bytes) : List Nat :=
  let w := (extend 48 ((List.range 16).map fun i => beAt bs (4 * i) 4).reverse).reverse
  List.zipWith add h ((k.zip w).foldl round h)

/-- A message padded to whole blocks. -/
def pad (bs : Bytes) : Bytes :=
  bs ++ [0x80] ++ List.replicate ((119 - bs.length % 64) % 64) 0 ++ toBe 8 (8 * bs.length)

end Sha

/-- The SHA-256 digest, 32 bytes. -/
def sha256 (bs : Bytes) : Bytes :=
  let p := Sha.pad bs
  ((List.range (p.length / 64)).foldl (fun h i => Sha.block h ((p.drop (64 * i)).take 64)) Sha.h0).flatMap (toBe 4)

/-- HMAC-SHA-256 with a key of at most 64 bytes. -/
def hmac (key bs : Bytes) : Bytes :=
  let k := key ++ List.replicate (64 - key.length) 0
  sha256 ((k.map fun x => x ^^^ 0x5C) ++ sha256 ((k.map fun x => x ^^^ 0x36) ++ bs))

/-- The blocks of HKDF's expansion: what is left to form, the number of the next, the one before. -/
def hkdfBlocks (prk info : Bytes) : Nat → Nat → Bytes → Bytes
  | 0, _, _ => []
  | n + 1, i, t =>
    let t := hmac prk (t ++ info ++ [byteOf i])
    t ++ hkdfBlocks prk info n (i + 1) t

/-- HKDF-SHA-256: `n` bytes. -/
def hkdf (salt ikm info : Bytes) (n : Nat) : Bytes := (hkdfBlocks (hmac salt ikm) info ((n + 31) / 32) 1 []).take n

/-! ### AES-128 and CMAC -/

namespace Aes

/-- A product in the field of 256 elements: the bits of `y`, most significant first, one for each step. -/
def mulBits : Nat → Nat → Nat → Nat
  | 0, _, _ => 0
  | n + 1, x, y =>
    let r := 2 * mulBits n x (y / 2)
    (if r < 256 then r else r ^^^ 0x11B) ^^^ (if y % 2 = 1 then x else 0)

def mul (x y : Nat) : Nat := mulBits 8 x y

/-- The inverse, the power 254; of 0 it is 0. -/
def inv (x : Nat) : Nat :=
  let x2 := mul x x
  let x4 := mul x2 x2
  let x8 := mul x4 x4
  let x16 := mul x8 x8
  let x32 := mul x16 x16
  let x64 := mul x32 x32
  let x128 := mul x64 x64
  mul x2 (mul x4 (mul x8 (mul x16 (mul x32 (mul x64 x128)))))

/-- The S-box: the inverse and the affine map. -/
def sbox (x : Nat) : Nat :=
  let y := inv x
  let rotl (n : Nat) : Nat := (y * 2 ^ n + y / 2 ^ (8 - n)) % 256
  y ^^^ rotl 1 ^^^ rotl 2 ^^^ rotl 3 ^^^ rotl 4 ^^^ 0x63

/-- The next round key from the one before, 16 bytes, with the round constant. -/
def nextKey (rcon : Nat) (k : List Nat) : List Nat :=
  let t := [sbox (k.getD 13 0) ^^^ rcon, sbox (k.getD 14 0), sbox (k.getD 15 0), sbox (k.getD 12 0)]
  let w0 := List.zipWith (· ^^^ ·) t (k.take 4)
  let w1 := List.zipWith (· ^^^ ·) w0 ((k.drop 4).take 4)
  let w2 := List.zipWith (· ^^^ ·) w1 ((k.drop 8).take 4)
  w0 ++ w1 ++ w2 ++ List.zipWith (· ^^^ ·) w2 (k.drop 12)

/-- Row `r` of the 16 bytes, held by columns, moves left by `r`. -/
def shiftRows (s : List Nat) : List Nat := (List.range 16).map fun i => s.getD ((i + 4 * (i % 4)) % 16) 0

/-- Each column by the matrix. -/
def mixColumns (s : List Nat) : List Nat :=
  (List.range 16).map fun i =>
    let at_ (j : Nat) : Nat := s.getD (i / 4 * 4 + (i + j) % 4) 0
    mul 2 (at_ 0) ^^^ mul 3 (at_ 1) ^^^ at_ 2 ^^^ at_ 3

/-- The rounds from `n` left on, with the key and the round constant of the round before. -/
def rounds : Nat → Nat → List Nat → List Nat → List Nat
  | 0, _, _, s => s
  | n + 1, rcon, k, s =>
    let k := nextKey rcon k
    let t := shiftRows (s.map sbox)
    rounds n (mul 2 rcon) k (List.zipWith (· ^^^ ·) (if n = 0 then t else mixColumns t) k)

/-- One block of 16 bytes. -/
def block (key : BitVec 128) (bs : Bytes) : Bytes :=
  let k := (toBe 16 key.toNat).map BitVec.toNat
  (rounds 10 1 k (List.zipWith (· ^^^ ·) (bs.map BitVec.toNat) k)).map byteOf

/-- A block doubled, for the subkeys of CMAC. -/
def dbl (x : Nat) : Nat := (if x < 2 ^ 127 then 2 * x else (2 * x) ^^^ 0x87) % 2 ^ 128

end Aes

/-- The last block as CMAC takes it: whole with the first subkey, otherwise padded with the second. -/
def cmacLast (l : Nat) (bs : Bytes) : Nat :=
  if bs.length = 16 then ofBe bs ^^^ Aes.dbl l
  else ofBe (slice (bs ++ [0x80]) 0 16) ^^^ Aes.dbl (Aes.dbl l)

/-- The 16 bytes of AES-128-CMAC. -/
def aesCmac (key : BitVec 128) (bs : Bytes) : Bytes :=
  let n := max 1 ((bs.length + 15) / 16)
  let c := (List.range (n - 1)).foldl
    (fun c i => ofBe (Aes.block key (toBe 16 (c ^^^ beAt bs (16 * i) 16)))) 0
  let l := ofBe (Aes.block key (List.replicate 16 0))
  Aes.block key (toBe 16 (c ^^^ cmacLast l (bs.drop (16 * (n - 1)))))

/-- `MAC` of a telegram: the first 8 bytes (R362). -/
def tgMac (key : BitVec 128) (bs : Bytes) : Bytes := (aesCmac key bs).take 8

/-! ### P-256 -/

namespace P256

def p : Nat := 0xffffffff00000001000000000000000000000000ffffffffffffffffffffffff
def n : Nat := 0xffffffff00000000ffffffffffffffffbce6faada7179e84f3b9cac2fc632551
def b : Nat := 0x5ac635d8aa3a93e7b3ebbd55769886bc651d06b0cc53b0f63bce3c3e27d2604b
def gx : Nat := 0x6b17d1f2e12c4247f8bce6e563a440f277037d812deb33a0f4a13945d898c296
def gy : Nat := 0x4fe342e2fe1a7f9b8ee7eb4a7c0f9e162bce33576b315ececbb6406837bf51f5

/-- A power modulo `m`, over `f` bits of the exponent. -/
def powMod (m : Nat) : Nat → Nat → Nat → Nat
  | 0, _, _ => 1 % m
  | f + 1, x, e => (if e % 2 = 1 then x else 1) * powMod m f (x * x % m) (e / 2) % m

/-- The inverse modulo a prime. -/
def inv (m x : Nat) : Nat := powMod m 256 x (m - 2)

def sub (x y : Nat) : Nat := (x + (p - y % p)) % p

/-- A point in Jacobian coordinates; the point at infinity where `z` is 0. -/
structure Jac where
  x : Nat
  y : Nat
  z : Nat

def Jac.dbl (a : Jac) : Jac :=
  let d := a.z * a.z % p
  let g := a.y * a.y % p
  let be := a.x * g % p
  let al := 3 * (sub a.x d * ((a.x + d) % p)) % p
  let x := sub (al * al) (8 * be)
  ⟨x, sub (al * sub (4 * be) x) (8 * (g * g)), 2 * (a.y * a.z) % p⟩

def Jac.add (a c : Jac) : Jac :=
  if a.z = 0 then c else if c.z = 0 then a
  else
    let za := a.z * a.z % p
    let zc := c.z * c.z % p
    let u := a.x * zc % p
    let s := a.y * (zc * c.z % p) % p
    let h := sub (c.x * za) u
    let r := sub (c.y * (za * a.z % p)) s
    if h = 0 then (if r = 0 then a.dbl else ⟨1, 1, 0⟩)
    else
      let h2 := h * h % p
      let h3 := h2 * h % p
      let v := u * h2 % p
      let x := sub (sub (r * r) h3) (2 * v)
      ⟨x, sub (r * sub v x) (s * h3), h * (a.z * c.z % p) % p⟩

/-- A multiple, over `f` bits of the factor. -/
def Jac.mul : Nat → Nat → Jac → Jac
  | 0, _, _ => ⟨1, 1, 0⟩
  | f + 1, k, a =>
    let r := Jac.mul f (k / 2) a.dbl
    if k % 2 = 1 then a.add r else r

/-- The affine point, none at infinity. -/
def Jac.affine (a : Jac) : Option (Nat × Nat) :=
  if a.z = 0 then none
  else
    let i := inv p a.z
    let i2 := i * i % p
    some (a.x * i2 % p, a.y * (i2 * i % p) % p)

def g : Jac := ⟨gx, gy, 1⟩

/-- A point of the curve. -/
def onCurve (q : Nat × Nat) : Bool :=
  decide (q.1 < p ∧ q.2 < p) && decide ((q.2 * q.2 + 3 * q.1) % p = (q.1 * q.1 * q.1 + b) % p)

/-- An uncompressed point of SEC 1: 65 bytes that name a point of the curve. -/
def ofSec1 (bs : Bytes) : Option (Nat × Nat) :=
  let q := (beAt bs 1 32, beAt bs 33 32)
  if bs.length = 65 ∧ byteAt bs 0 = 4 ∧ onCurve q then some q else none

def toSec1 (q : Nat × Nat) : Bytes := [4] ++ toBe 32 q.1 ++ toBe 32 q.2

/-- The factor of a key, 1 to n − 1, from any number. -/
def scalar (x : Nat) : Nat := x % (n - 1) + 1

/-- The public key of a factor. -/
def publicKey (d : Nat) : Nat × Nat := ((Jac.mul 256 d g).affine).getD (0, 0)

/-- ECDH: the x-coordinate that both ends share, 32 bytes (R367). -/
def ecdh (d : Nat) (q : Nat × Nat) : Bytes := toBe 32 (((Jac.mul 256 d ⟨q.1, q.2, 1⟩).affine).getD (0, 0)).1

/-- ECDSA with SHA-256: the signature r‖s by the key `d` with the random factor `k`. -/
def sign (d k : Nat) (bs : Bytes) : Bytes :=
  let r := (publicKey k).1 % n
  toBe 32 r ++ toBe 32 (inv n k * ((ofBe (sha256 bs) + r * d) % n) % n)

/-- A signature r, s over bytes holds under a public key. -/
def verify (q : Nat × Nat) (bs : Bytes) (r s : Nat) : Bool :=
  if r = 0 ∨ s = 0 ∨ n ≤ r ∨ n ≤ s then false
  else
    let w := inv n s
    let c := (Jac.mul 256 (ofBe (sha256 bs) % n * w % n) g).add (Jac.mul 256 (r * w % n) ⟨q.1, q.2, 1⟩)
    match c.affine with
    | some (x, _) => x % n == r
    | none => false

end P256

/-! ### Certificates -/

/-- An element of DER: its tag, the whole of it, its contents. -/
structure Der where
  tag   : Nat
  whole : Bytes
  body  : Bytes

/-- The lengths of the header and of the contents of the element that begins a byte string. -/
def derLen (bs : Bytes) : Nat × Nat :=
  match byteAt bs 1 with
  | 0x81 => (3, byteAt bs 2)
  | 0x82 => (4, beAt bs 2 2)
  | l => (2, l)

/-- The elements that a byte string holds, one after another; none where it is not made of whole elements. -/
def derList : Nat → Bytes → Option (List Der)
  | 0, bs => if bs.isEmpty then some [] else none
  | f + 1, bs =>
    if bs.isEmpty then some []
    else
      let q := derLen bs
      if bs.length < q.1 + q.2 ∨ (q.1 = 2 ∧ 128 ≤ q.2) then none
      else (derList f (bs.drop (q.1 + q.2))).map fun xs => ⟨byteAt bs 0, bs.take (q.1 + q.2), (bs.drop q.1).take q.2⟩ :: xs

/-- The elements of a constructed element's contents; none of them where the contents are malformed. -/
def derItems (bs : Bytes) : List Der := (derList bs.length bs).getD []

/-- Every element two levels down. -/
def derPairs (bs : Bytes) : List Der := (derItems bs).flatMap fun x => derItems x.body

/-- A certificate as R364 and R366 read it. -/
structure Cert where
  tbs     : Bytes
  issuer  : Bytes
  subject : Bytes
  since   : Nat
  till    : Nat
  key     : Option (Nat × Nat)
  exts    : List Der
  r       : Nat
  s       : Nat

/-- Seconds since 1970 of a date. -/
def dateSecs (year month day secs : Nat) : Nat :=
  let y := if month ≤ 2 then year - 1 else year
  (365 * y + y / 4 - y / 100 + y / 400 + (153 * ((month + 9) % 12) + 2) / 5 + day - 719469) * 86400 + secs

/-- The number that `n` decimal digits from `i` spell. -/
def decAt (bs : Bytes) (i n : Nat) : Nat := ((bs.drop i).take n).foldl (fun x d => 10 * x + (d.toNat - 48)) 0

/-- UTCTime or GeneralizedTime. -/
def derTime (e : Der) : Nat :=
  let k := if e.tag = 0x17 then 2 else 4
  let y := decAt e.body 0 k
  let year := if k = 4 then y else if y < 50 then 2000 + y else 1900 + y
  dateSecs year (decAt e.body k 2) (decAt e.body (k + 2) 2)
    (decAt e.body (k + 4) 2 * 3600 + decAt e.body (k + 6) 2 * 60 + decAt e.body (k + 8) 2)

/-- ecPublicKey with prime256v1; ecdsa-with-SHA256. -/
def oidKey : Bytes := toBe 19 0x06072A8648CE3D020106082A8648CE3D030107
def oidSign : Bytes := toBe 10 0x06082A8648CE3D040302

/-- A certificate from its DER bytes: an X.509 v3 certificate with a P-256 key and an ECDSA signature with SHA-256. -/
def certOf (bs : Bytes) : Option Cert :=
  match derItems bs with
  | [c] =>
    match derItems c.body with
    | [tbs, alg, sig] =>
      match derItems tbs.body, derPairs (sig.body.drop 1) with
      | _ :: _ :: _ :: issuer :: valid :: subject :: spki :: rest, [r, s] =>
        match derItems valid.body, derItems spki.body with
        | [since, till], [kind, point] =>
          if alg.body = oidSign ∧ kind.body = oidKey then
            some {
              tbs := tbs.whole, issuer := issuer.whole, subject := subject.whole, since := derTime since, till := derTime till
              key := P256.ofSec1 (point.body.drop 1), exts := (rest.filter fun e => e.tag == 0xA3).flatMap fun e => derPairs e.body
              r := ofBe r.body, s := ofBe s.body }
          else none
        | _, _ => none
      | _, _ => none
    | _ => none
  | _ => none

/-- A certificate was issued by another: its issuer is that one's subject, and the signature holds under its key. -/
def Cert.issuedBy (c d : Cert) : Bool :=
  c.issuer == d.subject && (match d.key with | some q => P256.verify q c.tbs c.r c.s | none => false)

/-- The certificate permits digitalSignature: its keyUsage has that bit, or it has no keyUsage. -/
def Cert.signs (c : Cert) : Bool :=
  match c.exts.filterMap fun e => match derItems e.body with
      | oid :: xs => if oid.body = [0x55, 0x1D, 0x0F] then xs.getLast? else none
      | [] => none with
  | u :: _ => match derItems u.body with
    | [bits] => (byteAt bits.body 1).testBit 7
    | _ => false
  | [] => true

/-- A hexadecimal digit's value. -/
def hexDigit (x : Byte) : Option Nat :=
  let n := x.toNat
  if 48 ≤ n ∧ n ≤ 57 then some (n - 48) else if 65 ≤ n ∧ n ≤ 70 then some (n - 55) else if 97 ≤ n ∧ n ≤ 102 then some (n - 87)
  else none

/-- The number that hexadecimal digits spell. -/
def hexNum : Bytes → Nat → Option Nat
  | [], n => some n
  | x :: xs, n => match hexDigit x with | some d => hexNum xs (16 * n + d) | none => none

/-- The subject's attributes of a type (an object identifier's contents), as their bytes. -/
def Cert.attrs (c : Cert) (oid : Bytes) : List Bytes :=
  (derPairs c.subject).flatMap fun rdn => (derItems rdn.body).filterMap fun e => match derItems e.body with
    | [o, v] => if o.body = oid then some v.body else none
    | _ => none

/-- The subject serialNumber, where it is eight hexadecimal digits (R366). -/
def Cert.serial (c : Cert) : Option Nat :=
  (c.attrs [0x55, 0x04, 0x05]).findSome? fun v => if v.length = 8 then hexNum v 0 else none

/-- The validity period contains an instant, in seconds since 1970. -/
def Cert.dated (c : Cert) (secs : Nat) : Bool := decide (c.since ≤ secs) && decide (secs ≤ c.till)

end Sys2Proof.Machine
end

