-- ==== Sys2Proof/Machine/Keys.lean ====
section
/-! DEFINITION. Machine/Keys.lean: the key store and what is computed from it (R363 to R367, R381): the module's key pair, the objects,
chains of certificates and their checks, signatures, session keys and link keys. -/

namespace Sys2Proof.Machine

/-! ### The key pair (R363) -/

/-- The module's public key. The key pair is the same in every lane; no rule gives it (log 145). -/
def moduleKey : Nat × Nat := P256.publicKey (P256.scalar Config.secretKey)

/-- The ephemeral key that the lane draws with a nonce (R368). -/
def ephemeralOf (nonce : BitVec 256) : Nat := P256.scalar (Config.ephemeral nonce)

/-- The signature r‖s of the module over SHA-256 of a byte string (R365). -/
def moduleSign (bs : Bytes) : Bytes := P256.sign (P256.scalar Config.secretKey) (P256.scalar (Config.signNonce bs)) bs

/-! ### Objects (R364) -/

/-- An object by its code. The public key and the manufacturing certificate stand from manufacture on (R363). -/
def KeySt.object (k : KeySt) : Nat → Bytes
  | 0 => if k.hasKey then P256.toSec1 moduleKey else []
  | 1 => if k.hasKey then Config.mfgCert else []
  | 2 => k.op | 3 => k.chain0 | 4 => k.chain1 | 5 => k.chain2 | 6 => k.revoked | _ => k.link

def KeySt.put (k : KeySt) (n : Nat) (bs : Bytes) : KeySt :=
  match n with
  | 2 => { k with op := bs }
  | 3 => { k with chain0 := bs }
  | 4 => { k with chain1 := bs }
  | 5 => { k with chain2 := bs }
  | 6 => { k with revoked := bs }
  | 7 => { k with link := bs }
  | _ => k

/-- The certificate that the maintenance port presents: the operational one where one is installed, otherwise the manufacturing
certificate (R364). -/
def KeySt.presented (k : KeySt) : Bytes := if k.op.isEmpty then Config.mfgCert else k.op

/-! ### Chains (R364, R366) -/

/-- As many of the certificates as verify, each by the one before; the first by itself where none is before it. -/
def chainFrom : Option Cert → List Bytes → List (Bytes × Cert)
  | _, [] => []
  | up, b :: bs =>
    match certOf b with
    | some c => if c.issuedBy (up.getD c) then (b, c) :: chainFrom (some c) bs else []
    | none => []

/-- The operator chain: from a self-signed root on, as far as it verifies. -/
def KeySt.chain (k : KeySt) : List (Bytes × Cert) := chainFrom none [k.chain0, k.chain1, k.chain2]

/-- The certificates of a chain from its root to the one that issued a certificate. -/
def pathIn (c : Cert) : List (Bytes × Cert) → Option (List Bytes)
  | [] => none
  | (b, d) :: ds =>
    match pathIn c ds with
    | some bs => some (b :: bs)
    | none => if c.issuedBy d then some [b] else none

/-- The chain of a certificate in the installed operator chain; none where it does not chain to it. -/
def KeySt.pathOf (k : KeySt) (cert : Bytes) : Option (List Bytes) := (certOf cert).bind fun c => pathIn c k.chain

/-- A certificate chains to the installed operator chain (R106, R364, R366). -/
def KeySt.chainsTo (k : KeySt) (cert : Bytes) : Bool := (k.pathOf cert).isSome

/-- A certificate is on the revocation list: its entries are the first 16 bytes of the SHA-256 of what is revoked (R364). -/
def KeySt.revokes (k : KeySt) (cert : Bytes) : Bool :=
  (List.range (k.revoked.length / 16)).any fun i => slice k.revoked (16 * i) 16 == (sha256 cert).take 16

/-- The object passes R364: an operational certificate of at most 860 bytes that carries the module's public key and chains to the
operator chain; a chain certificate that verifies from a self-signed root with those before it; a revocation list of at most 64 whole
entries; a link key of 16 bytes. -/
def KeySt.objectOk (k : KeySt) (n : Nat) (bs : Bytes) : Bool :=
  match n with
  | 2 => decide (bs.length ≤ 860) && k.chainsTo bs && ((certOf bs).bind fun c => c.key) == some moduleKey
  | 3 => decide ((chainFrom none [bs]).length = 1)
  | 4 => decide ((chainFrom none [k.chain0, bs]).length = 2)
  | 5 => decide ((chainFrom none [k.chain0, k.chain1, bs]).length = 3)
  | 6 => bs.length % 16 == 0 && decide (bs.length ≤ 1024)
  | _ => bs.length == 16

/-! ### A peer's certificate and signature (R365, R366) -/

/-- The check of a peer's certificate but for its date (R366). -/
def KeySt.certPasses (k : KeySt) (peer : Nat) (cert : Bytes) : Bool :=
  match certOf cert, k.pathOf cert with
  | some c, some path => !((cert :: path).any k.revokes) && c.signs && c.serial == some peer
  | _, _ => false

/-- The validity period of a certificate contains the date of a Station Clock reading; from which date the clock counts, the spec does
not say (log 146). -/
def certDated (cert : Bytes) (clock : Nat) : Bool :=
  match certOf cert with
  | some c => c.dated (Config.clockEpoch + clock / 1000000000)
  | none => false

/-- A signature of 64 bytes over SHA-256 of a byte string holds under a certificate's key (R365). -/
def signedBy (cert bs sig : Bytes) : Bool :=
  match (certOf cert).bind fun c => c.key with
  | some q => P256.verify q bs (beAt sig 0 32) (beAt sig 32 32)
  | none => false

/-! ### Session keys and link keys (R367, R381) -/

/-- The info of R367: "TABLET1", both identities, the epoch. -/
def hsInfo (initiator responder epoch : Nat) : Bytes :=
  toBe 7 0x5441424C455431 ++ toBe 4 initiator ++ toBe 4 responder ++ [byteOf epoch]

/-- K_IR, K_RI, SALT_IR, SALT_RI of a handshake (R367), as the initiator uses them: from the own ephemeral key, the peer's point, and
the nonces N_I and N_R. -/
def hsSecret (own : Nat) (peer : Nat × Nat) (ni nr : Bytes) (initiator responder epoch : Nat) : SessKeys :=
  let bs := hkdf (ni ++ nr) (P256.ecdh own peer) (hsInfo initiator responder epoch) 40
  { keyTx := BitVec.ofNat 128 (beAt bs 0 16), keyRx := BitVec.ofNat 128 (beAt bs 16 16)
    saltTx := BitVec.ofNat 32 (beAt bs 32 4), saltRx := BitVec.ofNat 32 (beAt bs 36 4) }

/-- The same keys as the responder uses them. -/
def turnKeys (k : SessKeys) : SessKeys := ⟨k.keyRx, k.keyTx, k.saltRx, k.saltTx⟩

/-- The category 3 key of a Platform Link direction: 16 bytes of HKDF-SHA-256 of the link key with a salt of 32 zero bytes (R381). -/
def linkKey (link : Bytes) (src dst epoch day : Nat) : BitVec 128 :=
  BitVec.ofNat 128 (ofBe (hkdf (List.replicate 32 0) link
    (toBe 7 0x5441424C45544C ++ toBe 4 src ++ toBe 4 dst ++ [byteOf epoch] ++ toBe 4 day) 16))

/-! ### Clients of the maintenance port (R106, R486) -/

/-- The role that the subject's organisational unit names (R106): 0 VIEW, 1 MAINTAIN, 2 CONFIGURE. -/
def certRole (cert : Bytes) : Option Nat :=
  ((certOf cert).map fun c => c.attrs [0x55, 0x04, 0x0B]).getD [] |>.findSome? fun u =>
    if u = toBe 4 0x56494557 then some 0
    else if u = toBe 8 0x4D41494E5441494E then some 1
    else if u = toBe 9 0x434F4E464947555245 then some 2 else none

/-- A maintenance certificate: organisational unit CONFIGURE and title POSSESSION (R486). -/
def certPossession (cert : Bytes) : Bool :=
  certRole cert == some 2
    && (((certOf cert).map fun c => c.attrs [0x55, 0x04, 0x0C]).getD []).contains (toBe 10 0x504F5353455353494F4E)

/-- The first four bytes of the SHA-256 digest of a certificate (R490). -/
def certHash (cert : Bytes) : Word := BitVec.ofNat 32 (beAt (sha256 cert) 0 4)

end Sys2Proof.Machine
end

