-- ==== Sys2Proof/Machine/Tablet.lean ====
section
/-! DEFINITION. Machine/Tablet.lean: the Tablet safety layer (R344 to R372): the telegram, its lane codes, the checks of
a receiver, sessions, handshakes, release of telegrams with acknowledge-after-copy (R144 to R147), and the commands of
the station network. -/

namespace Sys2Proof.Machine

/-! ### Types and states (R345) -/

namespace Tg
abbrev plCommand : Nat := 0x01
abbrev plResponse : Nat := 0x02
abbrev data : Nat := 0x10
abbrev routeRequest : Nat := 0x11
abbrev routeAnswer : Nat := 0x12
abbrev restartAuth : Nat := 0x13
abbrev restartResult : Nat := 0x14
abbrev canData : Nat := 0x18
abbrev hsHello : Nat := 0x20
abbrev hsKey : Nat := 0x21
abbrev hsFinish : Nat := 0x22
abbrev close : Nat := 0x23
end Tg

/-- The limits of `LEN` by type (R345, R477). -/
def tgLenOk (type len : Nat) : Bool :=
  match type with
  | 0x01 => len == 40
  | 0x02 => len == 336
  | 0x10 => decide (len ≤ 1024)
  | 0x11 => decide (16 ≤ len ∧ len ≤ 1024) && len % 16 == 0
  | 0x13 => len == 32
  | 0x18 => decide (len ≤ 24)
  | 0x20 => decide (100 ≤ len ∧ len ≤ 960)
  | 0x21 => decide (164 ≤ len ∧ len ≤ 1024)
  | 0x22 => len == 64
  | 0x23 => len == 4
  | _ => false

/-! ### Lane codes (R350, R351) -/

/-- LANE_CONST. -/
def laneConst : Lane → Nat
  | .A => 0xA5C30001 | .B => 0xA5C30002 | .C => 0xA5C30003

/-- The lane code of covered bytes under a lane's constant and a salt. -/
def laneCode (l : Lane) (salt src dst seq : Nat) (covered : Bytes) : Nat :=
  crc32cSeed (laneConst l ^^^ salt) (toBe 4 src ++ toBe 4 dst ++ toBe 4 seq ++ covered)

/-- Both codes of a pair (R36): 0 AB, 1 AC, 2 BC. -/
def pairCodes (pair salt src dst seq : Nat) (covered : Bytes) : Option (Nat × Nat) :=
  match pairLanes pair with
  | some (x, y) => some (laneCode x salt src dst seq covered, laneCode y salt src dst seq covered)
  | none => none

/-! ### The fields of a telegram (R344) -/

def tgLen (t : Bytes) : Nat := beAt t 28 2
def tgType (t : Bytes) : Nat := byteAt t 1
def tgFlags (t : Bytes) : Nat := byteAt t 2
def tgEpoch (t : Bytes) : Nat := byteAt t 3
def tgSrc (t : Bytes) : Nat := beAt t 4 4
def tgDst (t : Bytes) : Nat := beAt t 8 4
def tgSeq (t : Bytes) : Nat := beAt t 12 4
def tgTime (t : Bytes) : Nat := beAt t 16 6
def tgEcho (t : Bytes) : Nat := beAt t 22 6
def tgPayload (t : Bytes) : Bytes := slice t 32 (tgLen t)

/-- A telegram. -/
def tgBytes (cat type flags epoch src dst seq time echo pair salt : Nat) (key : BitVec 128) (payload : Bytes) : Bytes :=
  let head := [byteOf (1 + cat * 16), byteOf type, byteOf (flags + pair * 16), byteOf epoch] ++ toBe 4 src ++ toBe 4 dst
    ++ toBe 4 seq ++ toBe 6 time ++ toBe 6 echo ++ toBe 2 payload.length ++ [0, 0]
  let body := head ++ payload
  let coded := match pairCodes pair salt src dst seq body with
    | some (a, b) => body ++ toBe 4 a ++ toBe 4 b
    | none => body ++ toBe 4 0 ++ toBe 4 0
  if cat = 3 then coded ++ tgMac key coded else coded

/-! ### The checks of a receiver (R358) -/

/-- What a session's configuration gives the checks: `types` by R604; T_EXP in µs; the salt of an epoch, and the key of an epoch (R351,
R363). -/
structure TbCtx where
  cat    : Nat
  own    : Nat
  peers  : List Nat
  types  : List Nat
  report : Bool
  testOk : Bool
  tExp   : Nat
  window : Nat
  saltOf : Nat → Option Nat
  keyOf  : Nat → Option (BitVec 128)

/-- The outcome of the checks. -/
inductive Verdict where
  | accepted | dup | form | ident | seq | aged | code | mac
  deriving DecidableEq, Repr

/-- The Station Clock in µs, 48 bits. -/
def LaneSt.micros (L : LaneSt) : Nat := L.clock / 1000 % 2 ^ 48

def sub48 (a b : Nat) : Nat := (a + (2 ^ 48 - b % 2 ^ 48)) % 2 ^ 48

/-- Steps 1 and 2, with R349. -/
def tgForm (c : TbCtx) (t : Bytes) : Option Verdict :=
  let n := tgLen t
  let fl := tgFlags t
  if t.length < 40 ∨ byteAt t 0 ≠ 1 + c.cat * 16 ∨ !c.types.contains (tgType t) ∨ !tgLenOk (tgType t) n
      ∨ t.length ≠ 40 + n + (if c.cat = 3 then 8 else 0) then some .form
  else if (fl.testBit 2 ∧ !c.report) ∨ (fl.testBit 3 ∧ !c.testOk) then some .form
  else if !c.peers.contains (tgSrc t) ∨ tgDst t ≠ c.own then some .ident
  else none

/-- Steps 3 and 4. -/
def tgFresh (c : TbCtx) (S : SessSt) (now : Nat) (t : Bytes) : Option Verdict :=
  let d := (tgSeq t + (2 ^ 32 - S.last % 2 ^ 32)) % 2 ^ 32
  let a := sub48 now (tgEcho t)
  if d = 0 ∧ S.bytes = t then some .dup
  else if d = 0 ∨ 2 ^ 31 ≤ d ∨ c.window < d then some .seq
  else if tgEcho t = 0 ∨ 2 ^ 47 ≤ a ∨ c.tExp < a ∨ 2 ^ 47 ≤ sub48 (tgEcho t) S.echo then some .aged
  else none

/-- Step 5; `plain` for handshake telegrams, whose salt is 0 (R351). -/
def tgCodes (c : TbCtx) (plain : Bool) (t : Bytes) : Option Verdict :=
  let n := tgLen t
  match (if plain then some 0 else c.saltOf (tgEpoch t)) with
  | none => some .code
  | some salt =>
    match pairCodes (tgFlags t / 16 % 4) salt (tgSrc t) (tgDst t) (tgSeq t) (t.take (32 + n)) with
    | none => some .code
    | some (a, b) => if beAt t (32 + n) 4 ≠ a ∨ beAt t (36 + n) 4 ≠ b then some .code else none

/-- Step 6; no key covers a handshake telegram yet. -/
def tgSealed (c : TbCtx) (plain : Bool) (t : Bytes) : Option Verdict :=
  let n := tgLen t
  if c.cat ≠ 3 ∨ plain then none
  else match c.keyOf (tgEpoch t) with
    | none => some .mac
    | some key => if slice t (40 + n) 8 ≠ tgMac key (t.take (40 + n)) then some .mac else none

/-- The first verdict of a list of checks. -/
def firstVerdict : List (Option Verdict) → Verdict
  | [] => .accepted
  | some v :: _ => v
  | none :: vs => firstVerdict vs

/-- A rejection counted in its session (R358, R383). -/
def SessSt.reject (S : SessSt) : Verdict → SessSt
  | .accepted => S
  | .dup => { S with dups := satAdd 8 S.dups 1 }
  | .form => { S with rejForm := satAdd 8 S.rejForm 1 }
  | .ident => { S with rejIdent := satAdd 8 S.rejIdent 1 }
  | .seq => { S with rejSeq := satAdd 8 S.rejSeq 1 }
  | .aged => { S with rejAge := satAdd 8 S.rejAge 1 }
  | .code => { S with rejCode := satAdd 8 S.rejCode 1 }
  | .mac => { S with rejMac := satAdd 8 S.rejMac 1 }

/-- A copy that passed every step (R359). -/
def SessSt.accept (S : SessSt) (clock : Nat) (t : Bytes) : SessSt :=
  { S with
    last := tgSeq t, bytes := t, heard := true, echo := tgEcho t, toEcho := tgTime t, accAt := clock
    age := sub48 (clock / 1000 % 2 ^ 48) (tgEcho t)
    dataEcho := if tgType t = Tg.data ∨ tgType t = Tg.canData then tgEcho t else S.dataEcho }

/-- A handshake telegram that passed every step (R359): steps 3 and 4 are not its. -/
def SessSt.acceptHs (S : SessSt) (clock : Nat) (t : Bytes) : SessSt :=
  { S with last := tgSeq t, bytes := t, echo := tgEcho t, toEcho := tgTime t, accAt := clock }

/-- OPEN, or RENEWING while the keys are renewed (R370, R383). -/
def SessSt.openState (S : SessSt) : SessState := if S.renew then .renewing else .opened

/-- The session receives: it is OPENING, OPEN or RENEWING. -/
def SessState.receives : SessState → Bool
  | .opening => true | .opened => true | .renewing => true
  | _ => false

/-- What the checks of R358 and R360 make of a copy at a session as it stands. -/
def SessSt.judge (S : SessSt) (c : TbCtx) (clock : Nat) (t : Bytes) : Verdict :=
  let full := firstVerdict [tgForm c t, tgFresh c S (clock / 1000 % 2 ^ 48) t, tgCodes c false t, tgSealed c false t]
  if S.st = .opening then
    if S.heard ∧ full = .accepted then .accepted else firstVerdict [tgForm c t, tgCodes c false t, tgSealed c false t]
  else if S.st.receives then full
  else match firstVerdict [tgForm c t] with
    | .accepted => .code
    | v => v

/-- A copy at a session (R358 to R360): the session, and whether its payload is handed on. -/
def SessSt.receive (S : SessSt) (c : TbCtx) (clock : Nat) (t : Bytes) : SessSt × Bool :=
  let now := clock / 1000 % 2 ^ 48
  let full := firstVerdict [tgForm c t, tgFresh c S now t, tgCodes c false t, tgSealed c false t]
  if S.st = .opening then
    if S.heard ∧ full = .accepted then ({ S.accept clock t with st := S.openState }, true)
    else match firstVerdict [tgForm c t, tgCodes c false t, tgSealed c false t] with
      | .accepted => ({ S with last := tgSeq t, bytes := t, heard := true, toEcho := tgTime t, accAt := clock }, false)
      | v => (S.reject v, false)
  else if S.st.receives then
    match full with
    | .accepted => (S.accept clock t, true)
    | v => (S.reject v, false)
  else
    match firstVerdict [tgForm c t] with
    | .accepted => (S.reject .code, false)
    | v => (S.reject v, false)

/-- The session opens anew (R354, R360): counters and echoes begin again; the counts of rejections stand, and VALID as the
last freeze found it (R383). -/
def SessSt.reopen (S : SessSt) (st : SessState) : SessSt :=
  { st := st, valid := S.valid, hsAt := S.hsAt, rejIdent := S.rejIdent, rejSeq := S.rejSeq, rejAge := S.rejAge, rejCode := S.rejCode, rejMac := S.rejMac,
    rejForm := S.rejForm, dups := S.dups, hsFail := S.hsFail, fails := S.fails, waiting := S.waiting }

/-- R360: an OPEN session in which nothing was accepted for 4 × T_EXP. -/
def SessSt.lapses (S : SessSt) (clock tExpUs : Nat) : Bool :=
  (S.st == .opened || S.st == .renewing) && decide (S.accAt + 4 * tExpUs * 1000 ≤ clock)

/-! ### Station network sessions -/

/-- The identity under which the module stands in a session (R346, R348). -/
def State.sessIdent (s : State) (c : SessCfg) : Nat := if c.report then s.file.reportId else s.file.stationId

/-- What R604 lets a peer send. -/
def netTypes (c : SessCfg) : List Nat :=
  [Tg.data, Tg.routeRequest, Tg.restartAuth] ++
    (if c.cat = 3 then (if c.initiator then [Tg.hsKey, Tg.close] else [Tg.hsHello, Tg.hsFinish, Tg.close]) else [])

/-- The salt of the receiving direction by epoch: that of the file at category 1 and 2, of the session keys at category 3 (R351). -/
def sessSalt (c : SessCfg) (S : SessSt) (epoch : Nat) : Option Nat :=
  if c.cat ≠ 3 then some c.saltRx.toNat
  else if epoch = S.epoch then some S.saltRx.toNat
  else if S.oldEpoch = some epoch then some S.oldSaltRx.toNat
  else none

/-- The key of the receiving direction by epoch (R363, R370). -/
def sessKey (c : SessCfg) (S : SessSt) (epoch : Nat) : Option (BitVec 128) :=
  if c.cat ≠ 3 then some 0
  else if epoch = S.epoch then some S.keyRx
  else if S.oldEpoch = some epoch then some S.oldKeyRx
  else none

def State.netCtx (s : State) (c : SessCfg) (S : SessSt) : TbCtx :=
  { cat := c.cat, own := s.sessIdent c, peers := [c.peer], types := netTypes c, report := c.report, testOk := c.testOk,
    tExp := c.tExp * 1000, window := c.window, saltOf := sessSalt c S, keyOf := sessKey c S }

/-- The states in which a session receives (R348). -/
def State.receiving (s : State) (c : SessCfg) : Bool :=
  match s.mstate with
  | .run => true | .duty => true | .restartLocked => true
  | .standby => c.report
  | _ => false

/-- The states in which the module sends on a session (R348). -/
def State.sending (s : State) (c : SessCfg) : Bool :=
  match s.mstate with
  | .run => !c.report | .duty => !c.report | .restartLocked => !c.report
  | .standby => c.report
  | _ => false

def SessCfg.onNet (c : SessCfg) (n : Net) : Bool := match n with | .net1 => c.net1 | .net2 => c.net2

def SessCfg.addr (c : SessCfg) (n : Net) : BitVec 128 := match n with | .net1 => c.addr1 | .net2 => c.addr2

/-- The session a datagram is delivered to (R375). -/
def State.netSession (s : State) (g : Dgram) : Option SessCfg :=
  if g.srcPort ≠ 5381 then none
  else s.file.sessions.find? fun c => c.onNet g.net && c.addr g.net == g.srcAddr && c.peer == tgSrc g.bytes

/-- `NET_STAT.SERVICE`: the port holds the service address (R374). -/
def State.holdsService (s : State) : Bool := s.mstate == .run || s.mstate == .duty || s.mstate == .restartLocked

/-- The address that a port holds: the service address on duty, in RUN and in RESTART_LOCKED, the standby address in STANDBY (R374). No
rule names one for another state: the port then answers nothing (DEDUCED, log 120). -/
def State.heldAddr (s : State) (n : Net) : Option (BitVec 128) :=
  if s.holdsService then some (s.netCfg n).service
  else if s.mstate = .standby then some (s.netCfg n).standby else none

/-- A datagram is addressed to the module: to the address that the port holds; where it holds none, to either of its two, since R348
counts what comes to a module in SYNC or SAFE (DEDUCED, log 120). -/
def State.addressed (s : State) (g : Dgram) : Bool :=
  match s.heldAddr g.net with
  | some a => g.dstAddr == a
  | none => g.dstAddr == (s.netCfg g.net).service || g.dstAddr == (s.netCfg g.net).standby

/-- Delivery of a datagram (R348, R373, R375, R384): the session, and the state with the counts of the lanes it reached. Other protocols
and ports are discarded and counted; what is addressed elsewhere is not the module's. -/
def State.deliver (s : State) (g : Dgram) : Option SessCfg × State :=
  let s := s.netHeard g.net g.lanes
  let other : State := s.updIn g.lanes fun _ L => L.addFld (Reg.NET_DROP (netIdx g.net)) 16 16 1
  if !s.addressed g then (none, s)
  else if !g.udp ∨ g.dstPort ≠ 5381 then (none, other)
  else match s.netSession g with
    | none => (none, s.updIn g.lanes fun _ L => L.addFld (Reg.NET_DROP (netIdx g.net)) 0 16 1)
    | some c =>
      if s.receiving c then (some c, s.updIn g.lanes fun _ L => L.addFld (Reg.NET_RX (netIdx g.net)) 0 32 1) else (none, other)

/-- The lanes that check what they receive: in step while the module votes (R50). -/
def State.checking (s : State) (ls : LaneSet) : LaneSet := LaneVec.ofFn fun l => ls.get l && s.parts.get l

/-- The states in which the NET ports serve the station network. -/
def MState.netUp : MState → Bool
  | .sync => true | .restartLocked => true | .run => true | .duty => true | .standby => true | .safe => true
  | _ => false

/-- A telegram with a type of its row: each lane that received it checks it; `hand` is what an accepted one does in the
lane. A telegram of another type that the session accepts is no matter of this row. -/
def State.netTelegram (s : State) (g : Dgram) (type : Nat) (hand : SessCfg → Lane → LaneSt → LaneSt) : State :=
  if !s.mstate.netUp then s
  else match s.deliver g with
    | (none, s) => s
    | (some c, s) =>
      if tgType g.bytes ≠ type ∧ (netTypes c).contains (tgType g.bytes) then s
      else s.updIn (s.checking g.lanes) fun l L =>
        let S := L.session c.num
        let r := S.receive (s.netCtx c S) L.clock g.bytes
        let L := L.setSession c.num fun _ => r.1
        if r.2 then hand c l L else L

/-- The 32 sources of a session's payload (R161, R345), without their VALID bits. -/
def payloadSources (session : Nat) (payload : Bytes) : List (Nat × BitVec 512) :=
  (List.range 32).map fun i => (0x1000 + 32 * session + i, BitVec.ofNat 512 (ofLe (slice payload (32 * i) 32)))

/-- Received data put in place, as a whole (R359, R122). -/
def LaneSt.putRx (L : LaneSt) (xs : List (Nat × BitVec 512)) : LaneSt :=
  { L with rx := SMap.puts (fun _ => 0) L.rx xs }

/-- DATA: the payload replaces the session's source (R345, R359). -/
def execData (g : Dgram) (s : State) : Host.Outcome State Fault Refusal :=
  .next (s.netTelegram g Tg.data fun c _ L => L.putRx (payloadSources c.num (tgPayload g.bytes)))

/-- A ROUTE_REQUEST payload waits for the freeze or in the queue of four; beyond that it is discarded (R208). -/
def LaneSt.queueRequest (L : LaneSt) (session : Nat) (payload : Bytes) : LaneSt :=
  let S := L.session session
  if S.waiting.isEmpty ∧ S.nextReq.isNone then L.setSession session fun S => { S with nextReq := some payload }
  else if S.waiting.length < 4 then L.setSession session fun S => { S with waiting := S.waiting ++ [payload] }
  else L.addFld Reg.BO_CYCLE 8 8 1

/-- ROUTE_REQUEST (R208). -/
def execRouteRequest (g : Dgram) (s : State) : Host.Outcome State Fault Refusal :=
  .next (s.netTelegram g Tg.routeRequest fun c _ L => L.queueRequest c.num (tgPayload g.bytes))

/-- An OPEN session in which nothing was accepted for 4 × T_EXP returns to OPENING, recorded SESSION_LOST (R360). -/
def State.lapse (s : State) (k tExpUs : Nat) : State :=
  let L := s.lane.get s.leadLane
  if (L.session k).lapses L.clock tExpUs then
    let s := s.updAll fun _ L => L.setSession k fun S => { S with st := .opening, heard := false }
    (s.reportAll Base.tb 1 k).irq Base.tb 1
  else s

/-- SESSION_LOST (R360). -/
def execSessionLost (n : BitVec 6) (s : State) : Host.Outcome State Fault Refusal :=
  match s.sessCfg n.toNat with
  | some c => .next (if s.receiving c then s.lapse n.toNat (c.tExp * 1000) else s)
  | none => .next s

/-! ### Sending (R347, R373 to R376) and acknowledge-after-copy (R144 to R147) -/

/-- Bits of the published header's `HDR_STATE` (R138). -/
def State.hdrState (s : State) : Nat := memLe (s.lane.get s.leadLane).image.published 0x18 4

/-- FORCED, STANDBY_ORIGIN and TEST as the sender's generation sets them (R344). -/
def State.tgFlagsNow (s : State) : Nat :=
  let h := s.hdrState
  (if h.testBit 6 || h.testBit 7 then 1 else 0) + (if s.mstate = .standby then 4 else 0) + (if h.testBit 8 then 8 else 0)

/-- DEGRADED (R37). -/
def State.degFlag (s : State) : Nat := if s.activeCount < 3 then 2 else 0

/-- The lanes of the transmitting pair read their clocks within 2 µs of one another (R347). -/
def State.pairTime (s : State) : Option Nat :=
  match pairLanes s.txPair with
  | some (x, y) =>
    let a := (s.lane.get x).clock / 1000
    let b := (s.lane.get y).clock / 1000
    if a ≤ b + 2 ∧ b ≤ a + 2 then some (a % 2 ^ 48) else none
  | none => none

/-- TX_LATE: a frame is abandoned and counted (R39). That of a pair with a lane outside the vote is explained by the lane's exclusion:
recorded once, and not counted (R438, R439). -/
def State.countTxLate (s : State) (pair : Nat) : State :=
  let whole : Bool := match pairLanes pair with | some (x, y) => s.isActive x && s.isActive y | none => true
  if whole then (s.count Reg.TX_ERR_CNT 16 16 1).event Base.vote 0x007 0
  else Lane.list.foldl (fun s l => if s.inStep.get l then s.echo l Base.vote 0x007 0 else s) s

/-- The second copies of `n` frames that the present pair withholds: each transmitter abandons its own (R39, R347). -/
def State.withheld : Nat → State → State
  | 0, s => s
  | n + 1, s => State.withheld n (s.countTxLate s.txPair)

/-- A handshake telegram: its salt is 0 (R351), it carries the epoch that it opens. -/
def isHs (type : Nat) : Bool := type == Tg.hsHello || type == Tg.hsKey || type == Tg.hsFinish

/-- The session keys in place (R367, R370): a renewal switches the epoch and keeps the old one for a second, whatever state the session
is in; from the start the session is OPENING with its counters begun again (R354, R360), and echoes the handshake (R359). -/
def SessSt.install (S : SessSt) (clock : Nat) (k : SessKeys) : SessSt :=
  if S.renew then
    { S with
      st := if S.st = .renewing then .opened else S.st, oldEpoch := some S.epoch, oldKeyRx := S.keyRx, oldSaltRx := S.saltRx
      epoch := S.newEpoch, keyTx := k.keyTx, keyRx := k.keyRx, saltTx := k.saltTx, saltRx := k.saltRx, keyAt := clock, sent := 0
      rxBase := S.last, newKeys := none, hs := .none, fails := 0, renew := false }
  else
    { S.reopen .opening with
      epoch := S.newEpoch, keyTx := k.keyTx, keyRx := k.keyRx, saltTx := k.saltTx, saltRx := k.saltRx, keyAt := clock, fails := 0
      echo := S.echo, toEcho := S.toEcho }

/-- The initiator switches to the new keys when HS_FINISH leaves: its first telegram after it goes under the new epoch (R370). -/
def State.finishLeft (s : State) (session type : Nat) : State :=
  if type ≠ Tg.hsFinish then s
  else s.updAll fun _ L => L.setSession session fun S => match S.newKeys with
    | some k => S.install L.clock k
    | none => S

/-- What a telegram of a session is coded with (R351, R365, R370): a handshake telegram with salt 0 under the epoch that it opens, every
other with what the session stands at. -/
def SessSt.codeOf (S : SessSt) (c : SessCfg) (type : Nat) : TgCode :=
  if isHs type then ⟨S.newEpoch, 0, 0, S.toEcho⟩
  else if c.cat ≠ 3 then ⟨0, c.saltTx.toNat, 0, S.toEcho⟩
  else ⟨S.epoch, S.saltTx.toNat, S.keyTx, S.toEcho⟩

/-- The own address of a session at a port: the standby address for a report session, otherwise the service address (R374). -/
def State.sessAddr (s : State) (c : SessCfg) (n : Net) : BitVec 128 :=
  if c.report then (s.netCfg n).standby else (s.netCfg n).service

/-- What a telegram of a session travels under (R373, R374). -/
def State.ipHead (s : State) (c : SessCfg) (n : Net) : IpHead :=
  ⟨(s.netCfg n).v6, s.sessAddr c n, c.addr n, 5381, 5381, (s.netCfg n).dscp⟩

/-- A telegram to the paired transmitter of a port, counted sent. -/
def State.sendNet (s : State) (c : SessCfg) (n : Net) (ch : TxChan) (bs : Bytes) : State :=
  (s.count (Reg.NET_TX (netIdx n)) 0 32 1).putFrame ch bs (some (s.ipHead c n))

/-- A telegram of a station network session completed by the transmitting pair and given to the ports of its path; a
withheld second copy loses it (R347, R39). `code` is what a CLOSE kept; any other telegram of a session closed since has nothing to be
coded with and is not sent (DEDUCED, log 147). -/
def State.completeTelegram (s : State) (session type seq flags : Nat) (payload : Bytes) (code : Option TgCode) : State :=
  match s.sessCfg session, pairLanes s.txPair with
  | some c, some (x, _) =>
    let S := (s.lane.get x).session session
    if code.isNone && !isHs type && !S.st.receives then s
    else match s.pairTime with
      | none => (State.withheld (c.net1.toNat + c.net2.toNat) s).finishLeft session type
      | some time =>
        let k := code.getD (S.codeOf c type)
        let bs := tgBytes c.cat type (flags + s.degFlag) k.epoch (s.sessIdent c) c.peer seq time k.echo s.txPair k.salt k.key payload
        let s := if c.net1 then s.sendNet c .net1 .net1 bs else s
        let s := if c.net2 then s.sendNet c .net2 .net2 bs else s
        let s := if isHs type then s else s.updAll fun _ L => L.setSession session fun S => { S with sent := S.sent + 1 }
        s.finishLeft session type
  | _, _ => s

/-- The longest hold, µs (R153). -/
def State.noteHold (s : State) (at_ : Nat) : State :=
  s.updAll fun _ L => L.maxFld Reg.ACK_LAT_MAX 0 32 ((s.now - at_) / 1000)

/-- One held item released (R146). -/
def State.releaseItem (s : State) (i : HeldItem) : State :=
  match i with
  | .telegram _ at_ n type seq flags payload code => (s.noteHold at_).completeTelegram n type seq flags payload code
  | .done _ at_ ring => (s.noteHold at_).setMfld (Reg.ACC_WRRES ring) 16 3 3

/-- `ACK_HOLD` as a confirmation or a release leaves it (R153, R154): the items held, the age of the oldest in µs. -/
def State.noteHeld (s : State) : State :=
  let ages := s.held.map fun i => match i with
    | .telegram _ t _ _ _ _ _ _ => (s.now - t) / 1000
    | .done _ t _ => (s.now - t) / 1000
  let v := min s.held.length 0xFFFF + min (ages.foldl max 0) 0xFFFF * 65536
  s.updAll fun _ L => L.setReg Reg.ACK_HOLD (BitVec.ofNat 32 v)

/-- Every held item of a generation up to `gen` released, in order (R145, R146). -/
def State.releaseUpTo (s : State) (gen : Nat) : State :=
  let covered (i : HeldItem) : Bool := match i with
    | .telegram g _ _ _ _ _ _ _ => decide (g ≤ gen)
    | .done g _ _ => decide (g ≤ gen)
  let out := s.held.filter covered
  (out.foldl State.releaseItem { s with held := s.held.filter fun i => !covered i }).noteHeld

/-- ACK_FLUSH: the standby ceases to be synchronised, and every held item leaves at once (R147). -/
def State.flushHeld (s : State) : State :=
  if s.held.isEmpty then s
  else
    let out := s.held
    let s := (out.foldl State.releaseItem { s with held := [] }).noteHeld
    (s.updAll fun _ L => L.addFld Reg.ACK_FLUSH 0 32 1).event Base.cyc 0x011 0

/-- The present cycle has not come to its release step: what is formed now leaves there at the earliest (R120). -/
def State.beforeRelease (s : State) : Bool :=
  match s.cyc.step with
  | .frozen | .agreed | .voted | .output => true
  | .idle | .released => false

/-- A telegram formed: it takes its session's next SEQ in every lane, waits for the release step of its cycle, and is held
while a synchronised standby exists (R120, R144, R347, R354). -/
def State.formNow (s : State) (session type : Nat) (payload : Bytes) (gen : Nat) (code : Option TgCode) : State :=
  let seq := ((s.lane.get s.leadLane).session session).seqTx + 1
  let s := s.updAll fun _ L => L.setSession session fun S => { S with seqTx := seq % 2 ^ 32 }
  let s := { s with formed := s.formed ++ [session] }
  let fl := s.tgFlagsNow
  if s.hasStandby || s.beforeRelease then
    { s with held := s.held ++ [.telegram gen s.now session type (seq % 2 ^ 32) fl payload code] }
  else s.completeTelegram session type (seq % 2 ^ 32) fl payload code

/-- A telegram to be formed: at most four of a session in one cycle; a further one waits for a later cycle (R407; DESIGN CHOICE,
log 123). -/
def State.formTelegram (s : State) (session type : Nat) (payload : Bytes) (gen : Nat) (code : Option TgCode := none) : State :=
  if 4 ≤ s.formed.count session then { s with formWait := s.formWait ++ [⟨session, type, payload, code⟩] }
  else s.formNow session type payload gen code

/-- A new cycle: the telegrams that waited are formed, as many as it admits (R407). -/
def State.formWaiting (s : State) : State :=
  if s.xo.hoPaused then { s with formed := [] }
  else s.formWait.foldl (fun s t => s.formTelegram t.session t.type t.payload s.nextGen t.code) { s with formed := [], formWait := [] }

/-- The telegrams of this cycle leave at its release step when no synchronised standby exists. -/
def State.releaseFormed (s : State) : State :=
  if s.hasStandby then s
  else s.held.foldl (fun s i => match i with
    | .telegram _ _ n type seq flags payload code => s.completeTelegram n type seq flags payload code
    | .done _ _ ring => s.setMfld (Reg.ACC_WRRES ring) 16 3 3) { s with held := [] }

/-! ### Handshakes (R365 to R371) -/

/-- The generation that contains what is formed now: the one to be published next. -/
def State.formGen (s : State) : Nat := s.nextGen

/-- The first part of HS_HELLO and HS_KEY (R365): the nonce, the ephemeral key, the operational certificate of the lane that draws
them (R368). -/
def State.helloPayload (s : State) (nonce : BitVec 256) : Bytes :=
  let cert := (s.lane.get s.leadLane).keys.op
  toBe 32 nonce.toNat ++ P256.toSec1 (P256.publicKey (ephemeralOf nonce)) ++ [0] ++ toBe 2 cert.length ++ cert

/-- A session on which the module sends (R348) sends HS_HELLO with a nonce, for epoch 0 from the start, for the next one to renew its
keys (R367, R370). The handshake keeps the key store as it finds it (R385). -/
def State.sendHello (s : State) (c : SessCfg) (renew : Bool) (nonce : BitVec 256) : State :=
  if !s.sending c then s
  else
    let p := s.helloPayload nonce
    let s := s.updAll fun _ L => L.setSession c.num fun S =>
      { S with
        st := if !renew then .handshake else if S.st = .opened then .renewing else S.st
        renew := renew, hs := .helloSent, hsAt := L.clock, hello := p, key := [], nonce := nonce
        newEpoch := if renew then (S.epoch + 1) % 256 else 0, newKeys := none, store := L.keys }
    s.formTelegram c.num Tg.hsHello p s.formGen

/-- A nonce that no command names: a free value. -/
def State.freshNonce (s : State) : BitVec 256 × State :=
  (BitVec.ofNat 256 ((List.range 8).foldl (fun n i => n * 2 ^ 32 + (Config.freeWord (s.freeCtr + i)).toNat) 0),
    { s with freeCtr := s.freeCtr + 8 })

/-- A session opens from the start (R354, R360, R365): at category 1 and 2 it is OPENING; at category 3 the initiator
sends HS_HELLO and the responder waits. -/
def State.openSession (s : State) (c : SessCfg) (nonce : BitVec 256) : State :=
  let s := s.updAll fun _ L => L.setSession c.num fun S => S.reopen (if c.cat = 3 then .closed else .opening)
  if c.cat = 3 ∧ c.initiator then s.sendHello c false nonce else s

/-- The sessions of the module's present state open; those that its state does not serve are CLOSED (R348, R360). -/
def State.openSessions (s : State) : State :=
  s.file.sessions.foldl (fun s c =>
    if s.sending c then
      let q := s.freshNonce
      q.2.openSession c q.1
    else s.updAll fun _ L => L.setSession c.num fun S => S.reopen .closed) s

/-- A handshake has failed: counted; the fifth in a row is recorded HS_FAIL (R369). -/
def State.hsFailed (s : State) (n : Nat) : State :=
  let fails := ((s.lane.get s.leadLane).session n).fails + 1
  let s := s.updAll fun _ L => L.setSession n fun S => { S with fails := fails, hsFail := satAdd 8 S.hsFail 1, hs := .none }
  if fails = 5 then s.reportAll Base.tb 0 n else s

/-- What a CLOSE is coded with (R351): the session's keys, or as a handshake telegram while none stand. -/
def SessSt.closeCode (S : SessSt) (c : SessCfg) : TgCode :=
  if S.st.receives then S.codeOf c Tg.close else ⟨S.epoch, 0, 0, S.toEcho⟩

/-- CLOSE sent with a reason, and the session treated as closed (R369). -/
def State.sendClose (s : State) (c : SessCfg) (reason : Nat) : State :=
  let S := (s.lane.get s.leadLane).session c.num
  let s := s.formTelegram c.num Tg.close (toBe 4 reason) s.formGen (some (S.closeCode c))
  let s := s.updAll fun _ L => L.setSession c.num fun S =>
    { S.reopen .closed with seqTx := S.seqTx, fails := S.fails }
  s.hsFailed c.num

/-- The ephemeral public key of HS_HELLO and HS_KEY (R365). -/
def helloPoint (p : Bytes) : Option (Nat × Nat) := P256.ofSec1 (slice p 0x20 65)

/-- The handshake payload's certificate length and form (R365); its key is a point of the curve (PRESUMED of ECDH, log 144). -/
def helloOk (p : Bytes) (fixed : Nat) : Bool :=
  byteAt p 0x61 == 0 && decide (beAt p 0x62 2 ≤ 860) && p.length == fixed + beAt p 0x62 2 && (helloPoint p).isSome

/-- The certificate in a payload of HS_HELLO or HS_KEY (R365). -/
def helloCert (p : Bytes) : Bytes := slice p 0x64 (beAt p 0x62 2)

/-- The date of a certificate is checked (R366). -/
def State.datesCerts (s : State) : Bool := s.stcBit 0

/-- A lane's check of the peer's certificate (R366), with the chain and the certificates as the handshake found them (R385). -/
def LaneSt.certFinds (L : LaneSt) (store : KeySt) (dates : Bool) (peer : Nat) (cert : Bytes) : Bool :=
  { store with revoked := L.keys.revoked }.certPasses peer cert && (!dates || certDated cert L.clock)

/-- CERT_UNDATED where the date was not checked (R366). -/
def State.undated (s : State) (n : Nat) : State := if s.datesCerts then s else s.reportAll Base.tb 3 n

/-- What both lanes of the transmitting pair find of a telegram that both received; an answer needs both codes, so that where they
differ none leaves (R36, R368; DEDUCED, log 150). -/
def State.pairVote (s : State) (ls : LaneSet) (f : Lane → Nat) : Option Nat :=
  match pairLanes s.txPair with
  | some (x, y) => if ls.get x && ls.get y && decide (f x = f y) then some (f x) else none
  | none => none

/-- The lanes of a set in which a check holds. -/
def State.lanesWhere (s : State) (ls : LaneSet) (f : LaneSt → Bool) : LaneSet := LaneVec.ofFn fun l => ls.get l && f (s.lane.get l)

/-- Steps 1, 2 and 5 for a handshake telegram (R358). -/
def State.hsVerdict (s : State) (c : SessCfg) (t : Bytes) : Verdict :=
  firstVerdict [tgForm (s.netCtx c {}) t, tgCodes (s.netCtx c {}) true t]

/-- A handshake telegram of category 1 or 2 that is sound but for its category, at a session of category 3 (R369). -/
def State.otherCat (s : State) (c : SessCfg) (t : Bytes) : Bool :=
  let k := byteAt t 0 / 16 % 4
  c.cat == 3 && (k == 1 || k == 2)
    && firstVerdict [tgForm { s.netCtx c {} with cat := k } t, tgCodes { s.netCtx c {} with cat := k } true t] == .accepted

/-- A handshake telegram at its session, in each lane that received it: what fails a step is counted; a category that differs closes the
session (R369). `go` is what the lanes that accept it do, on a session on which the module sends (R348). -/
def State.hsTelegram (s : State) (g : Dgram) (type : Nat) (go : SessCfg → LaneSet → State → State) : State :=
  if !s.mstate.netUp then s
  else match s.deliver g with
    | (none, s) => s
    | (some c, s) =>
      let ls := s.checking g.lanes
      if tgType g.bytes ≠ type then s
      else match s.hsVerdict c g.bytes with
        | .accepted => if s.sending c then go c ls s else s
        | v =>
          let s := s.updIn ls fun _ L => L.setSession c.num fun S => S.reject v
          if s.sending c && s.otherCat c g.bytes && (s.pairVote ls fun _ => 0).isSome then s.sendClose c 3 else s

/-- A handshake telegram whose payload does not fit the handshake in progress: counted with the failures of form (DESIGN CHOICE,
log 150). -/
def State.rejectForm (s : State) (ls : LaneSet) (n : Nat) : State := s.updIn ls fun _ L => L.setSession n fun S => S.reject .form

/-- A handshake telegram accepted in the lanes of a set (R359). -/
def State.acceptHs (s : State) (ls : LaneSet) (n : Nat) (t : Bytes) : State :=
  s.updIn ls fun _ L => L.setSession n fun S => S.acceptHs L.clock t

/-- The lanes of a set that are not in another. -/
def lessLanes (x y : LaneSet) : LaneSet := LaneVec.ofFn fun l => x.get l && !y.get l

/-- An HS_HELLO renews the keys: the session receives, and the epoch is its next (R370). -/
def renews (S : SessSt) (epoch : Nat) : Bool := S.st.receives && epoch == (S.epoch + 1) % 256

/-- A responder's session with a half-open handshake (R365, R370). -/
def SessSt.answerHello (S : SessSt) (L : LaneSt) (hello key : Bytes) (nonce : BitVec 256) (epoch : Nat) : SessSt :=
  let r := renews S epoch
  { S with
    st := if !S.st.receives then .handshake else if r ∧ S.st = .opened then .renewing else S.st
    renew := r, hs := .finishDue, hsAt := L.clock, hello := hello, key := key, nonce := nonce, newEpoch := epoch, store := L.keys }

/-- HS_HELLO at a responder (R365, R366, R368, R369): each lane checks the certificate on its own. -/
def execHsHello (g : Dgram) (nonce : BitVec 256) (s : State) : Host.Outcome State Fault Refusal :=
  .next (s.hsTelegram g Tg.hsHello fun c ls s =>
    let p := tgPayload g.bytes
    let epoch := tgEpoch g.bytes
    let fits := s.lanesWhere ls fun L => helloOk p 100 && (epoch == 0 || renews (L.session c.num) epoch)
    let good := s.lanesWhere fits fun L => L.certFinds L.keys s.datesCerts c.peer (helloCert p)
    let mine := s.helloPayload nonce
    let key := mine ++ moduleSign (p ++ mine)
    let s := (s.rejectForm (lessLanes ls fits) c.num).acceptHs fits c.num g.bytes
    let s := s.updIn good fun _ L => L.setSession c.num fun S => S.answerHello L p key nonce epoch
    match s.pairVote fits fun l => if good.get l then 0 else 1 with
    | some 0 => (s.undated c.num).formTelegram c.num Tg.hsKey key s.formGen
    | some _ => s.sendClose c 1
    | none => s)

/-- What an initiator finds of an HS_KEY payload: 0 sound, otherwise the reason of R369. -/
def LaneSt.keyFinds (L : LaneSt) (c : SessCfg) (dates : Bool) (p : Bytes) : Nat :=
  let S := L.session c.num
  let n := 0x64 + beAt p 0x62 2
  if !L.certFinds S.store dates c.peer (helloCert p) then 1
  else if !signedBy (helloCert p) (S.hello ++ p.take n) (slice p n 64) then 2 else 0

/-- The keys of a handshake as a lane derives them: from its ephemeral key and the peer's payload, with the nonces of HS_HELLO and
HS_KEY (R367, R368). -/
def SessSt.derive (S : SessSt) (peer hello key : Bytes) (initiator responder : Nat) : SessKeys :=
  hsSecret (ephemeralOf S.nonce) ((helloPoint peer).getD (0, 0)) (slice hello 0 32) (slice key 0 32) initiator responder S.newEpoch

/-- HS_KEY at an initiator (R365 to R370): each lane checks it and derives the keys on its own; HS_FINISH is formed, and the keys are
installed when it leaves. -/
def execHsKey (g : Dgram) (s : State) : Host.Outcome State Fault Refusal :=
  .next (s.hsTelegram g Tg.hsKey fun c ls s =>
    let p := tgPayload g.bytes
    let due := s.lanesWhere ls fun L => (L.session c.num).hs == .helloSent
    let fits := s.lanesWhere due fun L => helloOk p 164 && tgEpoch g.bytes == (L.session c.num).newEpoch
    let find : LaneVec Nat := s.lane.map fun _ L => L.keyFinds c s.datesCerts p
    let hello := ((s.lane.get s.leadLane).session c.num).hello
    let s := (s.rejectForm (lessLanes due fits) c.num).acceptHs fits c.num g.bytes
    match s.pairVote fits find.get with
    | some 0 =>
      let s := s.updIn (LaneVec.ofFn fun l => fits.get l && find.get l == 0) fun _ L => L.setSession c.num fun S =>
        { S with hs := .none, key := p, newKeys := some (S.derive p S.hello p (s.sessIdent c) c.peer) }
      (s.undated c.num).formTelegram c.num Tg.hsFinish (moduleSign (hello ++ p)) s.formGen
    | some r => s.sendClose c r
    | none => s)

/-- HS_FINISH at a responder (R365, R367, R370): a lane that finds the signature sound takes the keys. -/
def execHsFinish (g : Dgram) (s : State) : Host.Outcome State Fault Refusal :=
  .next (s.hsTelegram g Tg.hsFinish fun c ls s =>
    let due := s.lanesWhere ls fun L => (L.session c.num).hs == .finishDue
    let good := s.lanesWhere due fun L =>
      signedBy (helloCert (L.session c.num).hello) ((L.session c.num).hello ++ (L.session c.num).key) (tgPayload g.bytes)
    let s := s.acceptHs due c.num g.bytes
    let s := s.updIn good fun _ L => L.setSession c.num fun S =>
      S.install L.clock (turnKeys (S.derive S.hello S.hello S.key c.peer (s.sessIdent c)))
    match s.pairVote due fun l => if good.get l then 0 else 2 with
    | some 2 => s.sendClose c 2
    | _ => s)

/-- A session that a CLOSE has closed. -/
def SessSt.shut (S : SessSt) : SessSt := { S.reopen .closed with seqTx := S.seqTx, fails := S.fails }

/-- A CLOSE that has ended a handshake is a failure of it (R369; DEDUCED, log 119). -/
def State.closedHs (before after : State) (n : Nat) : State :=
  let l := before.leadLane
  if ((before.lane.get l).session n).hs ≠ .none ∧ ((after.lane.get l).session n).hs = .none then after.hsFailed n else after

/-- CLOSE: the session is closed (R369). While no keys stand it is a handshake telegram. -/
def execClose (g : Dgram) (s : State) : Host.Outcome State Fault Refusal :=
  let n := match s.netSession g with | some c => c.num | none => 0
  if ((s.lane.get s.leadLane).session n).st.receives then
    .next (s.closedHs (s.netTelegram g Tg.close fun c _ L => L.setSession c.num SessSt.shut) n)
  else .next (s.closedHs (s.hsTelegram g Tg.close fun c ls s => s.updIn ls fun _ L => L.setSession c.num SessSt.shut) n)

/-- When the initiator tries next: 1 s after the last HS_HELLO, 10 s after it once five handshakes in a row have failed (R369). A
handshake that CLOSE has ended is tried again as one without an answer is (DEDUCED, log 119). -/
def SessSt.retryAt (S : SessSt) : Nat := S.hsAt + (if 5 ≤ S.fails then 10000000000 else 1000000000)

/-- HS_KEY_TIMEOUT: without a valid HS_KEY for 1 s the initiator counts a failure and sends a new HS_HELLO; after five failures every
10 s (R369). -/
def execHsKeyTimeout (n : BitVec 6) (nonce : BitVec 256) (s : State) : Host.Outcome State Fault Refusal :=
  let k := n.toNat
  match s.sessCfg k with
  | some c =>
    if !(c.cat == 3 && c.initiator && s.sending c) then .next s
    else
      let S := (s.lane.get s.leadLane).session k
      let clock := (s.lane.get s.leadLane).clock
      let s := if S.hs = .helloSent ∧ S.hsAt + 1000000000 ≤ clock then s.hsFailed k else s
      let T := (s.lane.get s.leadLane).session k
      if T.hs = .helloSent ∨ T.newKeys.isSome ∨ clock < T.retryAt then .next s
      else if S.renew then .next (s.sendHello c true nonce)
      else if S.st = .handshake ∨ S.st = .closed then .next (s.sendHello c false nonce)
      else .next s
  | none => .next s

/-- HS_FINISH_TIMEOUT: without a valid HS_FINISH for 1 s the responder discards the half-open handshake (R369). -/
def execHsFinishTimeout (n : BitVec 6) (s : State) : Host.Outcome State Fault Refusal :=
  let k := n.toNat
  let L := s.lane.get s.leadLane
  let ours : Bool := match s.sessCfg k with | some c => s.sending c | none => false
  if ours ∧ (L.session k).hs = .finishDue ∧ (L.session k).hsAt + 1000000000 ≤ L.clock then
    .next ((s.hsFailed k).updAll fun _ L => L.setSession k fun S =>
      { S with st := if S.st = .handshake then .closed else if S.st = .renewing then .opened else S.st, renew := false })
  else .next s

/-- Renewal begins at the initiator of an OPEN category 3 session (R370). -/
def State.renewSession (s : State) (k : Nat) (nonce : BitVec 256) : State :=
  match s.sessCfg k with
  | some c =>
    if c.cat = 3 ∧ c.initiator ∧ ((s.lane.get s.leadLane).session k).st = .opened then s.sendHello c true nonce else s
  | none => s

/-- The telegrams that the peer has sent under the keys, by its SEQ (R370). -/
def SessSt.peerSent (S : SessSt) : Nat := (S.last + 2 ^ 32 - S.rxBase % 2 ^ 32) % 2 ^ 32

/-- The keys have been in use for a time, or for a number of telegrams in a direction (R370, R371). -/
def SessSt.keyWorn (S : SessSt) (clock age telegrams : Nat) : Bool :=
  decide (S.keyAt + age ≤ clock) || decide (telegrams ≤ S.sent) || decide (telegrams ≤ S.peerSent)

/-- KEY_RENEWAL, after 24 h or 2^32 − 2^24 telegrams (R370). -/
def execKeyRenewal (n : BitVec 6) (nonce : BitVec 256) (s : State) : Host.Outcome State Fault Refusal :=
  let L := s.lane.get s.leadLane
  if (L.session n.toNat).keyWorn L.clock 86400000000000 (2 ^ 32 - 2 ^ 24) then .next (s.renewSession n.toNat nonce) else .next s

/-- EPOCH_OVERLAP_END, 1 s after a lane switched: it accepts the old epoch no longer (R370). -/
def execEpochOverlapEnd (n : BitVec 6) (s : State) : Host.Outcome State Fault Refusal :=
  .next (s.updAll fun _ L => L.setSession n.toNat fun S =>
    if S.keyAt + 1000000000 ≤ L.clock then { S with oldEpoch := none, oldKeyRx := 0, oldSaltRx := 0 } else S)

/-- A session closed and opened again from the start. -/
def State.reopenSession (s : State) (k : Nat) : State :=
  match s.sessCfg k with
  | some c =>
    if s.sending c then
      let q := s.freshNonce
      q.2.openSession c q.1
    else s.updAll fun _ L => L.setSession k fun S => S.reopen .closed
  | none => s

/-- KEY_LIMIT, where the renewal has not come after 24 h and 60 s, or the next telegram of a direction would be the 2^32nd under the
keys: the session is closed and opened again; recorded (R371). -/
def execKeyLimit (n : BitVec 6) (s : State) : Host.Outcome State Fault Refusal :=
  match s.sessCfg n.toNat with
  | some c =>
    let L := s.lane.get s.leadLane
    if c.cat = 3 ∧ s.sending c ∧ (L.session n.toNat).st.receives ∧ (L.session n.toNat).keyWorn L.clock 86460000000000 (2 ^ 32 - 1) then
      .next ((s.reportAll Base.tb 2 n.toNat).reopenSession n.toNat)
    else .next s
  | none => .next s

/-- A module that takes duty claims the service address on both ports (R374). -/
def State.claimAddrs (s : State) : State :=
  (s.say .net1 (.claim s.file.net1.v6 s.file.net1.service)).say .net2 (.claim s.file.net2.v6 s.file.net2.service)

/-- The echoes answered in the present second (R373). -/
def echoCount (sec : Nat) (p : Nat × Nat) : Nat := if p.1 = sec then p.2 else 0

/-- The answer to an ARP request over IPv4, a solicitation over IPv6, an echo request of the port's protocol (R373), sent from the
address asked for. -/
def netAnswer (v6 : Bool) (own : BitVec 128) : NetAsk → Option NetMsg
  | .arp peer target => if !v6 && target == own then some (.arpReply own peer) else none
  | .solicit peer target => if v6 && target == own then some (.advert own peer) else none
  | .echo w peer target data => if w == v6 && target == own then some (.echoReply v6 own peer data) else none

/-- An echo request. -/
def asksEcho : NetAsk → Bool
  | .echo _ _ _ _ => true
  | _ => false

/-- ARP_ND_ICMP_ECHO: ARP and neighbour discovery are answered; ICMP echoes at most ten times a second (R373). -/
def execArpNdIcmpEcho (net : Net) (ask : NetAsk) (s : State) : Host.Outcome State Fault Refusal :=
  let s := s.netHeard net (.all true)
  match (s.heldAddr net).bind fun a => netAnswer (s.netCfg net).v6 a ask with
  | none => .next s
  | some m =>
    let sec := s.now / 1000000000
    let n := echoCount sec (match net with | .net1 => s.echo1 | .net2 => s.echo2)
    if !asksEcho ask then .next (s.say net m)
    else if 10 ≤ n then .next s
    else match net with
      | .net1 => .next { s.say .net1 m with echo1 := (sec, n + 1) }
      | .net2 => .next { s.say .net2 m with echo2 := (sec, n + 1) }

/-- LINK_DOWN: LINK falls (R384). -/
def execLinkDown (net : Net) (s : State) : Host.Outcome State Fault Refusal :=
  let k := netIdx net
  if s.agreedFld (Reg.NET_STAT k) 0 1 = 0 then .next s
  else .next ((s.updAll fun _ L => L.clearBits (Reg.NET_STAT k) 1).reportAll (Base.net k) 0 0)

/-! ### What RELEASE forms (R376, R206) -/

/-- The outgoing payload of a session: the OUT sources, as long as the file sets. -/
def LaneSt.outPayload (L : LaneSt) (c : SessCfg) : Bytes :=
  ((List.range 32).flatMap fun i => toLe 32 (L.outSrc (0x1000 + 32 * c.num + i)).toNat).take c.len

/-- The DATA and ROUTE_ANSWER telegrams of a cycle, in session order (R206, R376). -/
def State.formTelegrams (s : State) : State :=
  s.file.sessions.foldl (fun s c =>
    let L := s.lane.get s.leadLane
    let S := L.session c.num
    if !(s.sending c && S.st.receives) then s
    else
      let out := L.outPayload c
      let due := decide (s.cyc.num % c.period = 0) || decide (out ≠ S.lastOut)
      let s := if due then
          (s.formTelegram c.num Tg.data out s.gen).updAll fun _ L => L.setSession c.num fun S => { S with lastOut := out }
        else s
      let ans := (L.logic.answers.filter fun e => decide (e.1 = c.num)).flatMap fun e => e.2
      if ans.isEmpty then s else s.formTelegram c.num Tg.routeAnswer ans s.gen) s

/-! ### Registers (R383, R384) -/

/-- The session that a port has selected. -/
def LaneSt.selSession (L : LaneSt) (p : Port) : Nat := (L.sel p Reg.TB_SEL).toNat % 64

/-- The bits of the OPEN sessions of 32. -/
def LaneSt.openMask (L : LaneSt) (lo : Nat) : Nat :=
  (List.range 32).foldl (fun m i =>
    let st := (L.session (lo + i)).st
    if st = .opened ∨ st = .renewing then m + 2 ^ i else m) 0

/-- The Tablet engine page, computed. -/
def State.viewTablet (_s : State) (v : Seen) (L : LaneSt) (p : Port) (off : Nat) : Option Nat :=
  let n := L.selSession p
  let S := L.session n
  let c := v.file.sessions.find? fun c => c.num == n
  if off = Reg.TB_OPEN_LO then some (L.openMask 0)
  else if off = Reg.TB_OPEN_HI then some (L.openMask 32)
  else if off = Reg.TB_S_CFG then some (match c with
    | some c => c.cat + c.net1.toNat * 4 + c.net2.toNat * 8 + c.initiator.toNat * 16 + c.report.toNat * 32 + c.testOk.toNat * 64
    | none => 0)
  else if off = Reg.TB_S_LIM then some (match c with | some c => c.tExp + c.window * 65536 | none => 0)
  else if off = Reg.TB_S_PEER then some (match c with | some c => c.peer | none => 0)
  else if off = Reg.TB_S_STATE then some (S.st.code + S.valid.toNat * 8 + S.epoch * 256)
  else if off = Reg.TB_S_AGE then some (min S.age (2 ^ 32 - 1))
  else if off = Reg.TB_S_REJ then some (S.rejIdent + S.rejSeq * 0x100 + S.rejAge * 0x10000 + S.rejCode * 0x1000000)
  else if off = Reg.TB_S_REJ2 then some (S.rejMac + S.rejForm * 0x100 + S.dups * 0x10000 + S.hsFail * 0x1000000)
  else if off = Reg.TB_S_KEY then some (match c with
    | some c => if c.cat = 3 ∧ S.st.receives then
        min ((L.clock - S.keyAt) / 60000000000) 0xFFFF + min (S.sent / 65536) 0xFFFF * 65536 else 0
    | none => 0)
  else none

/-- `NET_STAT`: the link bit is stored. -/
def State.viewNet (s : State) (L : LaneSt) (off : Nat) : Option Nat :=
  if off = Reg.NET_STAT 0 then
    some ((L.reg off).toNat % 2 + s.holdsService.toNat * 2 + (s.runsPtp .net1).toNat * 4)
  else if off = Reg.NET_STAT 1 then
    some ((L.reg off).toNat % 2 + s.holdsService.toNat * 2 + (s.runsPtp .net2).toNat * 4)
  else none

end Sys2Proof.Machine
end

