-- ==== Sys2Proof/Machine/Link.lean ====
section
/-! DEFINITION. Machine/Link.lean: the Platform Link (R284 to R343): frames and their checks, the Timetable, the master
with its polls and invitations, cold start, integration, the lineside unit, mode change, ageing, and the commands of the
link. -/

namespace Sys2Proof.Machine

/-! ### Entering a module state -/

/-- An accepted PREPARE is open: a CONFIRM may still follow it (R478, R509). -/
def State.prepared (s : State) : Bool :=
  match s.prepare with
  | some q => decide (s.now ≤ q.at_ + 30000000000)
  | none => false

/-- `SV_STATE` (R509). -/
def State.svState (s : State) : Nat :=
  s.mstate.code + s.comm.toNat * 16 + (s.hdrState.testBit 6).toNat * 32 + (s.hdrState.testBit 7).toNat * 64
    + s.prepared.toNat * 128 + s.stuck.toNat * 256

/-- The REVERT window is open (R504). -/
def ChgSt.reverts (c : ChgSt) : Bool := c.st == .swapped || (c.st == .armed && c.revert)

/-- Seconds left in the REVERT window, by the lanes' Station Clock. -/
def State.revertLeft (s : State) : Nat :=
  if s.chg.reverts then (s.chg.endAt - (s.lane.get s.leadLane).clock) / 1000000000 else 0

/-- The module's data behind RV registers as shown from now on. -/
def State.noteSeen (s : State) : State :=
  { s with seen := {
      fld := s.fld, file := s.file, link := s.link, adm := s.adm, xo := s.xo, at_ := s.now, degNs := s.deg.ns, two := s.twoOfTwo
      central := s.role == .central, tests := s.fsTest, classes := s.classes, chg := s.chg, sv := s.svState, left := s.revertLeft } }

/-- A module that begins to publish or to follow copies shows what it shows now until the first publication (R73; DEDUCED,
log 126). -/
def State.showNow (s : State) : State :=
  if s.mstate.evaluates ∨ s.mstate = .standby then s
  else (s.updAll fun _ L => L.noteShown s.power.tamper).noteSeen

/-- The module enters a state of R467: filters and tests as it asks (R243, R276), the isolators follow (R243), a module that takes
duty claims its service addresses (R374), a MODULE entry is recorded (R456). -/
def State.enter (s : State) (m : MState) : State :=
  let held := s.holdsService
  -- the start-up ends with SYNC: `SV_START` (R468, R509)
  let ms := min ((s.now - s.startAt) / 1000000) 0xFFFF
  let s := if s.mstate = .sync then
      s.updAll fun _ L => L.setReg Reg.SV_START (BitVec.ofNat 32 (ms + s.repaired.toNat * 0x10000))
    else s
  let s := if m = .standby then s else s.leaveStandby
  let s := s.showNow
  let s := s.startTests { s with drv := { s.drv with mstate := m } }
  let s := s.setIsolators
  let s := if !held && s.file.paired && s.holdsService then s.claimAddrs else s
  s.updIn s.parts fun l L => L.record (obPath l 5 0 0x1F) (obCode 5 m.hdr) 0 0 s.cyc.num (obData 3)

/-- The module leaves SYNC for a first state of service: its sessions open (R348, R360). -/
def State.firstService (s : State) (m : MState) : State := (s.enter m).openSessions

/-! ### Identities (R290) -/

/-- The module's own node identity, and the other master-capable one. -/
def State.nodeId (s : State) : Nat :=
  match s.role with
  | .central => if s.pref || !s.file.paired then s.file.baseM else s.file.baseM + 1
  | .lineside => s.file.unitId

def State.otherNode (s : State) : Nat := if s.nodeId = s.file.baseM then s.file.baseM + 1 else s.file.baseM

def State.isMasterId (s : State) (n : Nat) : Bool := n == s.file.baseM || n == s.file.baseM + 1

/-- BC, ns (R308). -/
def State.bcNs (s : State) : Nat := s.file.bcUnits * 250000

/-! ### Timetables (R309) -/

def tableOf (f : StationFile) (mode : Nat) : Option Timetable := f.tables.find? fun t => t.mode == mode

/-- The slot starts, ascending. -/
def Timetable.starts (t : Timetable) : List Nat := t.entries.foldl (fun xs e => insertNat e.start xs) []

/-- The entry of a slot that applies at a position of the Timetable cycle. -/
def Timetable.entryAt (t : Timetable) (slot pos : Nat) : Option TtEntry :=
  match t.starts[slot]? with
  | some st => t.entries.find? fun e => e.start == st && pos % 2 ^ e.period == e.phase
  | none => none

/-- A unit is listed. -/
def Timetable.lists (t : Timetable) (u : Nat) : Bool := t.entries.any fun e => e.kind == 2 && e.unit == u

/-- The listed units, ascending. -/
def Timetable.units (t : Timetable) : List Nat :=
  (t.entries.filter fun e => e.kind == 2).foldl (fun xs e => insertNat e.unit xs) []

def State.table (s : State) : Option Timetable := tableOf s.file s.link.mode

def State.listed (s : State) (u : Nat) : Bool := match s.table with | some t => t.lists u | none => false

/-- N of the current Timetable, at least 1. -/
def State.ttLen (s : State) : Nat := match s.table with | some t => max 1 t.n | none => 1

/-! ### Frames (R291 to R304) -/

/-- The first 14 bytes of a header. -/
def linkHead (type vflags src dst slot bc len : Nat) : Bytes :=
  [byteOf type, byteOf vflags] ++ toBe 2 src ++ toBe 2 dst ++ toBe 2 slot ++ toBe 4 bc ++ toBe 2 len

/-- A whole frame. -/
def linkFrame (head body : Bytes) : Bytes :=
  let b := head ++ toBe 2 (crc16 head) ++ body
  b ++ toBe 4 (crc32 b)

/-- A body with the two lane codes of a pair (R296). -/
def linkCoded (pair salt src seq : Nat) (head body : Bytes) : Bytes :=
  match pairCodes pair salt src 0xFFFF seq (head ++ body) with
  | some (a, b) => body ++ toBe 4 a ++ toBe 4 b
  | none => body ++ toBe 4 0 ++ toBe 4 0

def lkType (t : Bytes) : Nat := byteAt t 0
def lkInvite (t : Bytes) : Bool := (byteAt t 1).testBit 4
def lkSrc (t : Bytes) : Nat := beAt t 2 2
def lkDst (t : Bytes) : Nat := beAt t 4 2
def lkSlot (t : Bytes) : Nat := beAt t 6 2
def lkBc (t : Bytes) : Nat := beAt t 8 4
def lkLen (t : Bytes) : Nat := beAt t 12 2
def lkBody (t : Bytes) : Bytes := slice t 16 (lkLen t)

/-- `LEN` by type (R293); `extra` is 8 at category 3. -/
def lkLenOk (t : Bytes) (extra : Nat) : Bool :=
  match lkType t with
  | 1 => lkLen t == 48
  | 2 => lkLen t == (if lkInvite t then 0 else 80 + extra)
  | 3 => lkLen t == 376 + extra
  | 4 => lkLen t == 16
  | 5 => lkLen t == 48
  | 6 => lkLen t == 32
  | _ => false

/-- Steps 2 and 3 of R305. -/
def linkSound (f : StationFile) (t : Bytes) : Bool :=
  decide (20 ≤ t.length) && t.length == 20 + lkLen t && byteAt t 1 % 16 == 1
    && lkLenOk t (if f.linkCat = 3 then 8 else 0)
    && beAt t 14 2 == crc16 (t.take 14) && beAt t (t.length - 4) 4 == crc32 (t.take (t.length - 4))

/-- The lane codes of a frame that is no Tablet telegram check under a pair's constants (R296, R352). -/
def linkCodesOk (salt : Nat) (t : Bytes) : Bool :=
  let body := lkBody t
  let n := lkLen t - 8
  let seq := if lkType t = 5 then beAt body 12 4 else lkBc t
  [0, 1, 2].any fun p => match pairCodes p salt (lkSrc t) 0xFFFF seq (t.take 14 ++ body.take n) with
    | some (a, b) => beAt body n 4 == a && beAt body (n + 4) 4 == b
    | none => false

/-- Bursts, ns (R287). -/
def burstNs (bytes : Nat) : Nat := 1048 + 8 * bytes

/-! ### Counts of a channel (R341) -/

def chIdx : PlCh → Nat
  | .chA => 0 | .chB => 1

def plTx : PlCh → TxChan
  | .chA => .plA | .chB => .plB

/-- The lanes that check a received frame. -/
def State.linkLanes (s : State) (x : LinkRx) : LaneSet := s.checking x.lanes

/-- A burst came in on a channel; a lane without a code-group error was synchronised to it. -/
def LinkSt.lit (k : LinkSt) (ch : PlCh) (sync : Bool) : LinkSt :=
  match ch with
  | .chA => { k with litA := true, syncA := k.syncA || sync }
  | .chB => { k with litB := true, syncB := k.syncB || sync }

/-- `PLC_STAT` of a channel at the start of a basic cycle: PRESENT and TX_FAULT as the cage shows them, LOS and SYNC from what came in
during the last. LOS rising in an integrated node is reported (R341). -/
def State.channelStat (s : State) (ch : PlCh) (o : SfpObs) (lit sync : Bool) : State :=
  let off := Reg.PLC_STAT (chIdx ch)
  let was : Bool := (Lane.list.filter s.parts.get).any fun l => (s.lane.get l).bit off 1
  let s := s.updIn s.parts fun _ L =>
    (L.setFld off 0 3 (o.present.toNat + (!lit).toNat * 2 + o.txFault.toNat * 4)).setFld off 3 1 sync.toNat
  if !lit ∧ !was ∧ s.link.node.inside then s.reportAll (Base.plc (chIdx ch)) 1 0 else s

/-- Both channels at the start of a basic cycle. -/
def State.linkCycle (s : State) (a b : SfpObs) : State :=
  let k := s.link
  let s := (s.channelStat .chA a k.litA k.syncA).channelStat .chB b k.litB k.syncB
  { s with link := { s.link with litA := false, litB := false, syncA := false, syncB := false } }

/-- Steps 1 to 3 (R305): lanes with a code-group error count it; a frame that fails a check counts in the others. -/
def State.linkArrive (s : State) (x : LinkRx) : State :=
  let s := { s with link := s.link.lit x.ch (decide (0 < (s.linkLanes x).count)) }
  let bad : LaneSet := LaneVec.ofFn fun l => s.parts.get l && !x.lanes.get l
  let s := s.updIn bad fun _ L => L.addFld (Reg.PLC_ERR (chIdx x.ch)) 0 16 1
  if linkSound s.file x.bytes then s
  else s.updIn (s.linkLanes x) fun _ L => L.addFld (Reg.PLC_ERR (chIdx x.ch)) 16 16 1

/-- Step 4 (R305, R314): /S/ and the last code-group inside a window, with its counts. -/
def State.linkWindow (s : State) (x : LinkRx) (opens closes : Nat) : Bool × State :=
  if x.sAt.toNat < opens then
    (false, s.updIn (s.linkLanes x) fun _ L => L.addFld (Reg.PLC_EDGE (chIdx x.ch)) 0 16 1)
  else if closes < x.endAt.toNat then
    (false, s.updIn (s.linkLanes x) fun _ L => L.addFld (Reg.PLC_EDGE (chIdx x.ch)) 16 16 1)
  else (true, s)

/-- Step 5 failed. -/
def State.linkForeign (s : State) (x : LinkRx) : State :=
  s.updIn (s.linkLanes x) fun _ L => L.addFld (Reg.PLC_MISC (chIdx x.ch)) 0 16 1

/-- Step 5 is not made in LISTEN and BACKOFF. -/
def NodeState.loose : NodeState → Bool
  | .listen => true | .backoff => true
  | _ => false

/-- Steps 1 to 5 of R305, for a frame of one type: whether it gets through them, and the counts. A node that is off has no
receiver. `win` is the window of a frame that answers a slot of this receiver. -/
def State.linkFive (s : State) (x : LinkRx) (type : Nat) (win : Option (Nat × Nat)) (placed : Bool) : Bool × State :=
  if s.link.node = .off then (false, s)
  else
    let s := s.linkArrive x
    if !linkSound s.file x.bytes ∨ lkType x.bytes ≠ type then (false, s)
    else
      let w : Bool × State := match win with | some q => s.linkWindow x q.1 q.2 | none => (true, s)
      if !w.1 then w
      else if !placed && !w.2.link.node.loose then (false, w.2.linkForeign x)
      else w

/-! ### Copies of one frame (R306, R307) -/

/-- The bytes that copies of a frame must have alike: without `PD_THIS` and the codes. -/
def copyBytes (t : Bytes) : Bytes :=
  match lkType t with
  | 2 => if lkInvite t then t.take 14 else (t.take 16 ++ slice t 16 32) ++ slice t 48 34 ++ slice t 84 4
  | 3 => t.take (16 + 32 + 336)
  | _ => t.take (16 + (lkLen t - 8))

/-- The frames of a window in which a channel was missed. -/
def missedOn (w : List (Bool × Bool)) (ch : PlCh) : Nat :=
  (w.filter fun e => match ch with | .chA => !e.1 | .chB => !e.2).length

/-- `PLC_STAT.ALARM` of a channel in a lane, set or cleared by the lane's count of R307. -/
def State.linkAlarm (s : State) (ch : PlCh) (l : Lane) : State :=
  let on : Bool := decide (10 < missedOn (s.link.windows.get l) ch)
  let off := Reg.PLC_STAT (chIdx ch)
  if on = (s.lane.get l).bit off 4 then s
  else if on then (s.upd l fun L => L.setBits off 16).report l (Blk.ofOff (Base.plc (chIdx ch))) 0 0
  else s.upd l fun L => L.clearBits off 16

/-- A lane's copies settled: a frame valid on one channel only counts there. -/
def LaneSt.settleCopy (L : LaneSt) (c : LaneCopy) : LaneSt :=
  if c.a && !c.b then L.addFld (Reg.PLC_DISC 0) 0 16 1
  else if c.b && !c.a then L.addFld (Reg.PLC_DISC 1) 0 16 1 else L

/-- A poll that two lanes at least found valid on one channel only (`ONLY_A`, `ONLY_B` of R299). -/
def LinkCopy.pollOnly (c : LinkCopy) (f : LaneCopy → Bool) : Bool :=
  c.type == 2 && decide (2 ≤ (LaneVec.ofFn fun l => match c.lane.get l with | some y => f y | none => false).count)

/-- The frames held for comparison are settled, in each lane: those valid on one channel only count there (R306), all of them
enter the window of R307. -/
def State.settleCopies (s : State) : State :=
  if s.link.copies.isEmpty then s
  else
    let cs := s.link.copies
    let mine (l : Lane) : List LaneCopy := cs.filterMap fun c => c.lane.get l
    let s := s.updAll fun l L => (mine l).foldl LaneSt.settleCopy L
    let k := s.link
    let s := { s with link := { k with
      copies := []
      windows := k.windows.map fun l w =>
        let w := w ++ (mine l).map fun y => (y.a, y.b)
        w.drop (w.length - 1024)
      onlyA := (cs.filter fun c => c.pollOnly fun y => y.a && !y.b).foldl (fun n _ => satAdd 16 n 1) k.onlyA
      onlyB := (cs.filter fun c => c.pollOnly fun y => y.b && !y.a).foldl (fun n _ => satAdd 16 n 1) k.onlyB } }
    Lane.list.foldl (fun s l => (s.linkAlarm .chA l).linkAlarm .chB l) s

/-- Two frames are copies of one. -/
def LinkCopy.sameAs (c : LinkCopy) (t : Bytes) : Bool :=
  c.type == lkType t && c.bc == lkBc t && c.slot == lkSlot t && c.src == lkSrc t

/-- The copy of a frame that a lane has used, if there is one. -/
def State.copyIn (s : State) (t : Bytes) (l : Lane) : Option LaneCopy :=
  match s.link.copies.find? fun c => c.sameAs t with
  | some c => c.lane.get l
  | none => none

/-- The lanes that have used a copy of a frame. -/
def State.usedBy (s : State) (t : Bytes) : Nat := (LaneVec.ofFn fun l => (s.copyIn t l).isSome).count

/-- The lanes whose sessions handed its payload on. -/
def State.tookBy (s : State) (t : Bytes) : Nat :=
  (LaneVec.ofFn fun l => (match s.copyIn t l with | some y => y.took | none => false) : LaneSet).count

/-- A copy in a lane that found it valid: the first is used, a later one is marked on its channel. -/
def LinkCopy.enter (c : LinkCopy) (x : LinkRx) (ok : LaneSet) (sess : Lane → SessSt) (took : LaneSet) : LinkCopy :=
  let a : Bool := x.ch == .chA
  { c with lane := c.lane.map fun l y =>
      if !ok.get l then y
      else match y with
        | some y => some { y with a := y.a || a, b := y.b || !a }
        | none => some ⟨copyBytes x.bytes, a, !a, sess l, took.get l⟩ }

/-- A frame that passed every check in some lanes is entered there: counted; the first copy is used, a later one is compared byte for
byte (R306). `sess` is each lane's Tablet session before the frame, `took` the lanes whose sessions hand its payload on. -/
def State.enterCopy (s : State) (x : LinkRx) (ok : LaneSet) (sess : Lane → SessSt) (took : LaneSet := .all false) : State :=
  let t := x.bytes
  let s := s.updIn ok fun _ L => L.addFld (Reg.PLC_RX (chIdx x.ch)) 0 32 1
  let differs : LaneSet := LaneVec.ofFn fun l => ok.get l &&
    (match s.copyIn t l with | some y => y.bytes != copyBytes t | none => false)
  let s := (s.updIn differs fun _ L => L.addFld (Reg.PLC_DISC (chIdx x.ch)) 16 16 1).recordIn differs
    (Blk.ofOff (Base.plc (chIdx x.ch))) (obCode 6 0x015) .note 0
  let s := if s.link.copies.any (fun c => c.bc != lkBc t || c.slot != lkSlot t) then s.settleCopies else s
  let cs := s.link.copies
  let cs := if cs.any fun c => c.sameAs t then cs else cs ++ [⟨lkType t, lkBc t, lkSlot t, lkSrc t, .all none⟩]
  { s with link := { s.link with copies := cs.map fun c => if c.sameAs t then c.enter x ok sess took else c } }

/-- What has become of a frame: the state; whether two lanes have now used it and had not before; whether two lanes found this copy
valid; whether two lanes have now handed its payload on and had not before. -/
structure Taken where
  s     : State
  fresh : Bool
  heard : Bool
  took  : Bool

/-- A copy entered, with what follows for the module. -/
def State.takeCopyOf (s : State) (x : LinkRx) (ok : LaneSet) (sess : Lane → SessSt) (took : LaneSet := .all false) : Taken :=
  let n := s.usedBy x.bytes
  let m := s.tookBy x.bytes
  let t := s.enterCopy x ok sess took
  ⟨t, decide (n < 2 ∧ 2 ≤ t.usedBy x.bytes), decide (2 ≤ ok.count), decide (m < 2 ∧ 2 ≤ t.tookBy x.bytes)⟩

/-! ### Keys and sessions of the link (R346, R380, R381) -/

/-- The key of a direction by epoch, from the link key and the day (R381); the previous day's epoch is taken during the
first 10 s of a day. -/
def linkKeyOf (f : StationFile) (key : Bytes) (stime src dst epoch : Nat) : Option (BitVec 128) :=
  let day := stime / (86400 * 1000000000)
  if f.linkCat ≠ 3 then some 0
  else if epoch = day % 256 then some (linkKey key src dst epoch day)
  else if 0 < day ∧ epoch = (day - 1) % 256 ∧ stime % (86400 * 1000000000) < 10000000000 then
    some (linkKey key src dst epoch (day - 1))
  else none

/-- The session of a unit at the master, and of the unit itself, among the sessions of a lane. -/
def unitSess (u : Nat) : Nat := 64 + u
def ownSess : Nat := 64

/-- T_EXP of a unit, µs: given in the file; by default 1 ms at the master and (MAX_AGE + 1) × BC at the unit (R381). -/
def unitTExp (s : State) (c : UnitCfg) (master : Bool) : Nat :=
  if c.tExp ≠ 0 then c.tExp * 1000
  else if master then 1000 else (c.maxAge + 1) * s.bcNs / 1000

def unitWindow (c : UnitCfg) : Nat := if c.window ≠ 0 then c.window else 64

/-- What the checks of a telegram on the link need. -/
def State.linkCtx (s : State) (L : LaneSt) (c : UnitCfg) (master : Bool) (src : Nat) : TbCtx :=
  { cat := s.file.linkCat, own := s.nodeId,
    peers := if master then [c.unit] else [s.file.baseM, s.file.baseM + 1],
    types := [if master then Tg.plResponse else Tg.plCommand], report := false, testOk := false,
    tExp := unitTExp s c master, window := unitWindow c,
    saltOf := fun _ => some s.file.linkSalt.toNat, keyOf := fun e => linkKeyOf s.file L.keys.link s.link.stime src s.nodeId e }

/-- A telegram of the link in its session, coded by the transmitting pair. -/
def State.linkTelegram (s : State) (sess dst type seq : Nat) (payload : Bytes) : Option Bytes :=
  match pairLanes s.txPair, s.pairTime with
  | some (x, _), some time =>
    let L := s.lane.get x
    let S := L.session sess
    let epoch := if s.file.linkCat = 3 then s.link.stime / (86400 * 1000000000) % 256 else 0
    let key := (linkKeyOf s.file L.keys.link s.link.stime s.nodeId dst epoch).getD 0
    some (tgBytes s.file.linkCat type (s.tgFlagsNow + s.degFlag) epoch s.nodeId dst seq time S.toEcho s.txPair
      s.file.linkSalt.toNat key payload)
  | _, _ => none

/-- A frame to a channel. -/
def State.sendLink (s : State) (ch : PlCh) (t : Bytes) : State := s.putFrame (plTx ch) t

/-! ### Reference and cold-start frames (R295 to R297, R317, R319) -/

/-- A REFERENCE or COLD_START on both channels. -/
def State.sendReference (s : State) (cold : Bool) : State :=
  match pairLanes s.txPair with
  | none => s
  | some (x, _) =>
    let k := s.link
    -- /S/ leaves behind the preamble of 64 ordered sets (R287)
    let stime := ((s.lane.get x).clock + 1024) % 2 ^ 64
    let seq := if cold then stime % 2 ^ 32 else k.bc64 % 2 ^ 32
    let head := linkHead (if cold then 5 else 1) 1 s.nodeId 0xFFFF 0 (if cold then 0 else k.bc64 % 2 ^ 32) 48
    let rflags := k.pending.toNat + (decide (0 < k.changeLeft)).toNat * 2 + k.takeover.toNat * 4
    let body := toBe 8 (if cold then 0 else k.bc64) ++ toBe 8 stime ++
      [byteOf k.mode, byteOf k.ttPos, byteOf (if k.pending then k.pendMode else 0xFF), byteOf rflags] ++
      toBe 4 (if k.pending then k.target else 0) ++ toBe 4 s.runId.toNat ++
      toBe 2 (if 0 < k.changeLeft then k.next else 0) ++ toBe 2 0 ++ toBe 4 s.file.ttDigest.toNat ++ toBe 4 0
    let t := linkFrame head (linkCoded s.txPair s.file.linkSalt.toNat s.nodeId seq head body)
    ({ s with link := { s.link with stime } }.sendLink .chA t).sendLink .chB t

/-- COLD_START is sent (R319): counted in `PL_COLD.ATTEMPTS`. -/
def State.sendColdStart (s : State) : State :=
  let s := { s with link := { s.link with node := .coldstart, clash := false, coldReady := false } }
  (s.updAll fun _ L => L.addFld Reg.PL_COLD 16 8 1).sendReference true

/-- The node that sends the reference frames (`PL_COLD.MASTER`). -/
def State.setMaster (s : State) (id : Nat) : State :=
  s.updAll fun _ L => L.setFld Reg.PL_COLD 0 16 id

/-- A CENTRAL, unpaired module leaves SYNC once the link is mastered or followed (R475). -/
def State.linkReady (s : State) : State :=
  if s.mstate = .sync ∧ s.role = .central ∧ !s.file.paired then s.firstService .restartLocked else s

/-- The procedure of R319 begins at step 1; no master is known. -/
def State.linkListen (s : State) : State :=
  { s with link := { s.link with
      node := .listen, admitted := false, seen := none, heardCold := false, clash := false, coldDue := false
      coldReady := false } }.setMaster 0

/-- No frame has ended the silence of LISTEN. -/
def LinkSt.silent (k : LinkSt) : Bool := k.seen.isNone && !k.heardCold

/-- COLD_START is to be sent at the start of the module's next own basic cycle (R319 step 4). -/
def State.coldReady (s : State) : State := { s with link := { s.link with coldReady := true } }

/-- LISTEN_EXPIRY: silence (R319 step 4). -/
def execListenExpiry (s : State) : Host.Outcome State Fault Refusal :=
  if s.link.node = .listen ∧ s.role = .central ∧ s.link.silent then .next s.coldReady
  else .next s

/-- BACKOFF_EXPIRY: step 4 again (R319 step 7). -/
def execBackoffExpiry (s : State) : Host.Outcome State Fault Refusal :=
  if s.link.node = .backoff ∧ s.role = .central then .next s.coldReady else .next s

/-- CONTENTION_WINDOW_END: the module is master, or it backs off on a collision; the eighth in a row is COLD_FAIL (R319,
R320). -/
def execContentionWindowEnd (corrupted : Bool) (s : State) : Host.Outcome State Fault Refusal :=
  if s.link.node ≠ .coldstart then .next s
  else if corrupted || s.link.clash then
    let n := s.link.collisions + 1
    let s := s.updAll fun _ L => L.addFld Reg.PL_COLD 24 8 1
    if 8 ≤ n then
      let s := ({ s with link := { s.link with collisions := 0 } }).linkListen
      .next (s.event Base.plt 0x012 0)
    else .next { s with link := { s.link with node := .backoff, collisions := n, clash := false, coldReady := false } }
  else
    let s := { s with link := { s.link with
      node := .master, collisions := 0, mode := s.file.coldMode, ttPos := 0, bc64 := 0, coldDue := true, pending := false,
      announceDue := false, changeLeft := 0 } }
    let s := (s.setMaster s.nodeId).linkReady
    .next (if s.mstate = .standby then { s with link := { s.link with next := s.otherNode, changeLeft := 2 } } else s)

/-! ### The basic cycle at the master (R317, R321, R328) -/

/-- The announcement that starts at a Timetable cycle boundary: its target (R328). -/
def announceTarget (bc n : Nat) : Nat := (bc + n * max 1 ((4 + n - 1) / n)) % 2 ^ 32

/-- A unit's admission ends (R330, R332, R339): its session closes, its data lapse. -/
def State.endAdmission (s : State) (u : Nat) : State :=
  let s := s.setUnit u fun a => { a with admitted := false, pdA := 0xFFFF, pdB := 0xFFFF, acked := false, age := 255, valid := false }
  s.updAll fun _ L => (L.setSession (unitSess u) fun S => S.reopen .closed).setUnitRx u fun _ => {}

/-- The units that the switch to a Timetable leaves out: listed there, or admitted until now, without a MODE_ACK (R330; DEDUCED, log
141). -/
def State.leftOut (s : State) (t : Option Timetable) : List Nat :=
  let all := (s.adm.filter fun e => e.2.admitted).foldl (fun xs e => insertNat e.1 xs)
    (match t with | some t => t.units | none => [])
  all.filter fun u => !((s.unitAdm u).admitted && (s.unitAdm u).acked)

/-- The switch at TARGET (R330): the new mode at the start of its Timetable cycle; the master keeps the units that have
acknowledged. -/
def State.switchMode (s : State) : State :=
  let k := s.link
  let out := s.leftOut (tableOf s.file k.pendMode)
  let s := { s with link := { k with mode := k.pendMode, pending := false, target := 0, ttPos := 0, announceDue := false } }
  let s := if k.node = .master then out.foldl (fun s u => (s.endAdmission u).reportAll Base.plt 1 u) s else s
  let s := s.adm.foldl (fun s e => s.setUnit e.1 fun a => { a with acked := false }) s
  s.irq Base.plt 2

/-- The slot before is over: a poll without an accepted response is counted in `PL_UNIT_CNT.MISSED` (R332). -/
def State.closeSlot (s : State) : State :=
  let u := s.link.polled
  if u ≠ 0 ∧ !s.link.invited ∧ !(s.unitAdm u).answered then
    s.setUnit u fun a => { a with missed := satAdd 16 a.missed 1, answered := true }
  else s

/-- The instants of the reference frames as predicted some basic cycles later, for a channel on which the frame is lost (R316,
R324); 0 stands for a channel on which none has come. -/
def State.predictRefs (s : State) (cycles : Nat) : State :=
  let later (r : Nat) : Nat := if r = 0 then 0 else r + cycles * s.bcNs
  { s with link := { s.link with refA := later s.link.refA, refB := later s.link.refB } }

/-- The basic cycle after the present one: its number and its position; at TARGET the mode switches (R317, R328, R330). -/
def State.nextBasic (s : State) : State :=
  let k := s.link
  let s := { s with link := { k with bc64 := (k.bc64 + 1) % 2 ^ 64, ttPos := (k.ttPos + 1) % s.ttLen, slot := 0 } }.predictRefs 1
  if k.pending ∧ (k.bc64 + 1) % 2 ^ 32 = k.target then s.switchMode else s

/-- The reference frame of the basic cycle that starts now has already come. -/
def State.refSeen (s : State) : Bool :=
  match s.link.seen with
  | some r => decide (((s.lane.get s.leadLane).clock + 2 ^ 64 - r.sAt) % 2 ^ 64 < s.bcNs / 2)
  | none => false

/-- The master's basic cycle (R317, R321, R328): an announcement that is due, the reference frames. -/
def State.masterCycle (s : State) : State :=
  let s := if s.link.coldDue then { s with link := { s.link with coldDue := false, bc64 := 0, ttPos := 0 } } else s.nextBasic
  let k := s.link
  let k := if k.announceDue ∧ k.ttPos = 0 ∧ !k.pending then
      { k with announceDue := false, pending := true, target := announceTarget (k.bc64 % 2 ^ 32) s.ttLen } else k
  let s := { s with link := { k with slot := 0, polled := 0, invited := false } }
  let s := s.sendReference false
  { s with link := { s.link with takeover := false, changeLeft := s.link.changeLeft - 1 } }

/-- BASIC_CYCLE_START, with what the cages show. At the master: the next basic cycle; a master that has announced the other identity in
two frames gives way, and the named module sends from then on (R321). A module in FOLLOW tracks the basic cycle, whether its reference
frame comes or not (R322). A module that is to cold-start sends COLD_START (R319 step 4). -/
def execBasicCycleStart (a b : SfpObs) (s : State) : Host.Outcome State Fault Refusal :=
  let s := (s.settleCopies.closeSlot).linkCycle a b
  let k := s.link
  match k.node with
  | .master =>
    if k.next ≠ 0 ∧ k.changeLeft = 0 then
      .next (({ s with link := { k with node := .follow, next := 0, polled := 0 } }).setMaster s.otherNode).nextBasic
    else .next s.masterCycle
  | .follow =>
    if k.next = s.nodeId ∧ 2 ≤ k.changeLeft then
      .next (({ s with link := { k with node := .master, next := 0, changeLeft := 0 } }).setMaster s.nodeId).masterCycle
    else .next (if s.refSeen then s else s.nextBasic)
  | .listen => .next (if k.coldReady && k.silent then s.sendColdStart else s)
  | .backoff => .next (if k.coldReady then s.sendColdStart else s)
  | _ => .next s

/-- The master announces the other identity in two reference frames (R321, R410). -/
def State.passMaster (s : State) : State :=
  if s.link.node = .master then { s with link := { s.link with next := s.otherNode, changeLeft := 2 } } else s

/-! ### Slots at the master (R298, R325, R332) -/

/-- The module sends Tablet telegrams on the link (R348). -/
def MState.polls : MState → Bool
  | .restartLocked => true | .run => true | .duty => true
  | _ => false

/-- The command bits that a poll carries: those of the latest generation published at least 5 µs ago (R298), forced by
the takeover latch (R405). -/
def State.pollCmds (s : State) (u : Nat) : BitVec 256 :=
  let a := s.unitAdm u
  if s.now < s.cyc.pubAt + 5000 then a.prevCmds else a.cmds

/-- The payload of a poll (R297). -/
def State.pollPayload (s : State) (u : Nat) (ch : PlCh) : Bytes :=
  let a := s.unitAdm u
  let en := if s.mstate = .run ∨ s.mstate = .duty then 1 else 0
  let R := (s.lane.get s.leadLane).unitRx u
  toLe 32 (s.pollCmds u).toNat ++ [byteOf en, 0] ++ toBe 2 (match ch with | .chA => a.pdA | .chB => a.pdB)
    ++ toBe 4 (if R.heard then R.bc % 2 ^ 32 else 0xFFFFFFFF)

/-- A poll on one channel; one whose second copy is withheld is lost (R39, R347). -/
def State.sendPoll (s : State) (u slot seq : Nat) (ch : PlCh) : State :=
  match s.linkTelegram (unitSess u) u Tg.plCommand seq (s.pollPayload u ch) with
  | none => State.withheld 1 s
  | some tg =>
    let head := linkHead 2 1 s.nodeId u slot (s.link.bc64 % 2 ^ 32) tg.length
    s.sendLink ch (linkFrame head tg)

/-- The unit to invite (R325): listed units not admitted, by ascending identity after the last invited; then admitted
ones with a channel unmeasured. -/
def State.nextInvite (s : State) : Option Nat :=
  match s.table with
  | none => none
  | some t =>
    let free := t.units.filter fun u => !(s.unitAdm u).admitted
    match free.find? (fun u => decide (s.link.lastInv < u)) with
    | some u => some u
    | none => match free.head? with
      | some u => some u
      | none => t.units.find? fun u => (s.unitAdm u).pdA == 0xFFFF || (s.unitAdm u).pdB == 0xFFFF

/-- SLOT_START: the master sends the poll or the invitation of the slot; another node notes the slot it is in (R322). -/
def execSlotStart (slot : BitVec 10) (s : State) : Host.Outcome State Fault Refusal :=
  let n := slot.toNat
  if s.link.node = .follow then .next { s with link := { s.link with slot := n } }
  else if s.link.node ≠ .master then .next s
  else
    let s := s.settleCopies.closeSlot
    let at_ := (s.lane.get s.leadLane).clock
    let e := match s.table with | some t => t.entryAt n s.link.ttPos | none => none
    let s := { s with link := { s.link with
      slot := n, slotAt := at_, polled := 0, invited := false, slotLen := match e with | some e => e.length * 10 | none => 0 } }
    match e with
    | some e =>
      if e.kind = 2 then
        if (s.unitAdm e.unit).admitted ∧ s.mstate.polls then
          let S := (s.lane.get s.leadLane).session (unitSess e.unit)
          let seq := (S.seqTx + 1) % 2 ^ 32
          let s := s.updAll fun _ L => L.setSession (unitSess e.unit) fun S => { S with seqTx := seq, sent := S.sent + 1 }
          let s := s.setUnit e.unit fun a => { a with answered := false }
          let s := (s.sendPoll e.unit n seq .chA).sendPoll e.unit n seq .chB
          .next { s with link := { s.link with
            polled := e.unit, pollEnd := at_ + burstNs (100 + (if s.file.linkCat = 3 then 8 else 0)) } }
        else .next s
      else if e.kind = 3 then
        match s.nextInvite with
        | some u =>
          let t := linkFrame (linkHead 2 0x11 s.nodeId u n (s.link.bc64 % 2 ^ 32) 0) []
          let s := (s.sendLink .chA t).sendLink .chB t
          .next { s with link := { s.link with
            polled := u, invited := true, lastInv := u, pollEnd := at_ + burstNs 20 } }
        | none => .next s
      else .next s
    | none => .next s

/-! ### A reference frame received (R318, R321 to R324) -/

/-- The reference frame as the node keeps it. -/
def refOf (x : LinkRx) : RefSeen :=
  let b := lkBody x.bytes
  ⟨beAt b 0 8, beAt b 8 8, byteAt b 16, BitVec.ofNat 32 (beAt b 24 4), BitVec.ofNat 32 (beAt b 32 4), lkSrc x.bytes,
    x.sAt.toNat⟩

/-- Two reference frames of consecutive basic cycles that let a node integrate (R323). -/
def refAgree (s : State) (p q : RefSeen) : Bool :=
  q.bc64 == p.bc64 + 1 && q.mode == p.mode && q.runId == p.runId && q.digest == p.digest && s.isMasterId p.src && s.isMasterId q.src
    && decide (p.stime + s.bcNs ≤ q.stime + 2000 ∧ q.stime ≤ p.stime + s.bcNs + 2000)

/-- What every integrated node takes from a reference frame: numbers, mode, announcement, master change; with that of TARGET it switches
(R330). -/
def State.takeReference (s : State) (x : LinkRx) : State :=
  let b := lkBody x.bytes
  let r := refOf x
  let s := if s.link.pending ∧ r.bc64 % 2 ^ 32 = s.link.target then s.switchMode else s
  let fl := byteAt b 19
  let named := beAt b 28 2
  let k := { s.link with
    bc64 := r.bc64, stime := r.stime, ttPos := byteAt b 17, mode := r.mode, pending := fl.testBit 0
    pendMode := if fl.testBit 0 then byteAt b 18 else s.link.pendMode
    target := if fl.testBit 0 then beAt b 20 4 else 0
    seen := some r
    next := if fl.testBit 1 then named else 0
    changeLeft := if fl.testBit 1 then min 2 ((if s.link.next = named then s.link.changeLeft else 0) + 1) else 0 }
  ({ s with link := k }).setMaster (lkSrc x.bytes)

/-- The instant of the reference frame on its channel (R316). -/
def State.noteRef (s : State) (x : LinkRx) : State :=
  match x.ch with
  | .chA => { s with link := { s.link with refA := x.sAt.toNat } }
  | .chB => { s with link := { s.link with refB := x.sAt.toNat } }

/-- A LINESIDE module disciplined by PLINK (R318): the source time by the first valid copy. -/
def State.plinkDiscipline (s : State) (x : LinkRx) : State :=
  let pd := match x.ch with | .chA => s.link.pdA | .chB => s.link.pdB
  if s.role ≠ .lineside ∨ s.source ≠ 3 ∨ s.mstate = .standby ∨ pd = 0xFFFF then s
  else
    let off := diff64 x.sAt.toNat ((refOf x).stime + pd * 5)
    let run := if -2000 ≤ off ∧ off ≤ 2000 then min 8 (s.link.lockRun + 1) else 0
    let s := ({ s with link := { s.link with lockRun := run } }).setSrcOffset off
    if run = 8 then ({ s with srcLost := none }).setStc 0 true else s

/-- A node integrates (R323, R337, R338): FOLLOW in CENTRAL role; in LINESIDE role it answers unless it is the standby of
a pair, and an unpaired unit opens its session. -/
def State.integrate (s : State) (x : LinkRx) : State :=
  let s := s.takeReference x
  match s.role with
  | .central => ({ s with link := { s.link with node := .follow } }).linkReady
  | .lineside =>
    let answers : Bool := !s.file.paired || s.xo.role == .holder
    let s := { s with link := { s.link with node := if answers then .answering else .integrated } }
    if s.file.paired then s
    else s.updAll fun _ L => L.setSession ownSess fun S => S.reopen .opening

/-- A valid REFERENCE at a node that is not integrated (R319, R323). -/
def State.listenReference (s : State) (x : LinkRx) : State :=
  let r := refOf x
  if s.role = .lineside ∧ r.digest ≠ s.file.ttDigest then
    ({ s with link := { s.link with seen := none } }).event Base.plt 0x013 0
  else match s.link.seen with
    | some p =>
      let s := if p.bc64 ≤ r.bc64 then s.predictRefs (r.bc64 - p.bc64) else s
      if refAgree s p r then s.integrate x else { s with link := { s.link with seen := some r } }
    | none => { s with link := { s.link with seen := some r } }

/-- A REFERENCE or COLD_START of the other identity at a master (R321): outside a change of the master it is MASTER_CLASH, and the
higher identity returns to LISTEN; in a change that has been announced in two frames the module follows. -/
def State.masterClash (s : State) (x : LinkRx) : State :=
  if s.link.next ≠ 0 then
    if s.link.changeLeft = 0 ∧ lkType x.bytes = 1 then
      ({ s with link := { s.link with node := .follow, next := 0 } }).takeReference x
    else s
  else
    let s := s.reportAll Base.plt 3 (lkSrc x.bytes)
    if lkSrc x.bytes < s.nodeId then s.linkListen else s

/-- How many basic cycles a frame is ahead of the one that the node is in. -/
def State.ahead (s : State) (bc : Nat) : Nat := (bc + 2 ^ 32 - s.link.bc64 % 2 ^ 32) % 2 ^ 32

/-- The instant R of R316 on a channel: that of the other where no reference frame has come on it. -/
def State.refAt (s : State) (ch : PlCh) : Nat :=
  match ch with
  | .chA => if s.link.refA = 0 then s.link.refB else s.link.refA
  | .chB => if s.link.refB = 0 then s.link.refA else s.link.refB

/-- Step 5 for REFERENCE (DEDUCED, log 116): a master's, in slot 0. An integrated node expects the number of the basic cycle that
starts at the instant of the frame, counted from the reference frame before; a master and a module that cold-starts have no slot of
another master, whose frames R320 and R321 let them receive. -/
def State.refPlaced (s : State) (x : LinkRx) : Bool :=
  let t := x.bytes
  s.isMasterId (lkSrc t) && lkDst t == 0xFFFF && lkSlot t == 0
    && (match s.link.node with
      | .master => true
      | .coldstart => true
      | _ => s.ahead (lkBc t) == (x.sAt.toNat + s.bcNs / 2 - s.refAt x.ch) / s.bcNs)

/-- A frame with lane codes through steps 1 to 6 (R296, R305, R306). -/
def State.codedFrame (s : State) (x : LinkRx) (type : Nat) (win : Option (Nat × Nat)) (placed : Bool) : Taken :=
  let q := s.linkFive x type win placed
  if q.1 && linkCodesOk s.file.linkSalt.toNat x.bytes then q.2.takeCopyOf x (q.2.linkLanes x) fun _ => {}
  else ⟨q.2, false, false, false⟩

/-- A collision while the module cold-starts (R320). -/
def State.collide (s : State) : State := { s with link := { s.link with clash := true } }

/-- A valid REFERENCE that two lanes have used, by the state of the node. -/
def State.useReference (s : State) (x : LinkRx) : State :=
  match s.link.node with
  | .off => s
  | .master => s.masterClash x
  | .coldstart => s.collide
  | .listen => (s.listenReference x).plinkDiscipline x
  | .backoff => (({ s with link := { s.link with node := .listen } }).listenReference x).plinkDiscipline x
  | _ => ((s.predictRefs (s.ahead (lkBc x.bytes))).takeReference x).plinkDiscipline x

/-- REFERENCE (R318, R319, R321, R323). The star returns a master's own frames to it (R286); they are checked and counted, and
tell it when its basic cycle began. -/
def execReference (x : LinkRx) (s : State) : Host.Outcome State Fault Refusal :=
  let q := s.codedFrame x 1 none (s.refPlaced x)
  if s.role = .central ∧ lkSrc x.bytes = s.nodeId then .next (if q.heard then q.s.noteRef x else q.s)
  else
    let s := if q.fresh then q.s.useReference x else q.s
    .next (if q.heard then s.noteRef x else s)

/-- A valid COLD_START of the other identity that two lanes have used, by the state of the node. -/
def State.useColdStart (s : State) (x : LinkRx) : State :=
  match s.link.node with
  | .master => s.masterClash x
  | .coldstart => s.collide
  | .listen => { s with link := { s.link with heardCold := true } }
  | .backoff => { s with link := { s.link with node := .listen, heardCold := true, seen := none } }
  | _ => s

/-- COLD_START (R319 step 3, R320, R321). The module's own that fails a check on its return is a collision. -/
def execColdStart (x : LinkRx) (s : State) : Host.Outcome State Fault Refusal :=
  let t := x.bytes
  let q := s.codedFrame x 5 none (s.isMasterId (lkSrc t) && lkDst t == 0xFFFF && lkSlot t == 0 && lkBc t == 0)
  if s.role ≠ .central then .next q.s
  else if lkSrc t = s.nodeId then
    .next (if s.link.node = .coldstart ∧ lkType t = 5 ∧ !q.heard then q.s.collide else q.s)
  else .next (if q.fresh then q.s.useColdStart x else q.s)

/-- REF_LOST: a unit returns to LISTEN; its source is lost (R318, R324). -/
def execRefLost (s : State) : Host.Outcome State Fault Refusal :=
  if s.role = .lineside ∧ (s.link.node = .integrated ∨ s.link.node = .answering) then
    let s := s.reportAll Base.plt 4 0
    let s := if s.source = 3 then ({ s with link := { s.link with lockRun := 0 } }).loseSource.setStc 0 false else s
    .next s.linkListen
  else .next s

/-! ### The lineside unit (R299 to R303, R312, R313, R316) -/

/-- The unit's own entry of the unit table. -/
def State.ownUnit (s : State) : UnitCfg := (s.unitCfg s.file.unitId).getD ⟨s.file.unitId, 2, 0, 254, 0, 0, 0⟩

/-- `U_STATE` (R299). -/
def State.uState (s : State) : Nat := s.mstate.hdr

/-- The unit's Station Clock is locked to reference frames (R303, R318). -/
def State.clkLocked (s : State) : Bool := s.source == 3 && s.stcBit 0

/-- An edge record (R300), with the uncertainty of R303. -/
def edgeRecord (locked : Bool) (e : Edge) : Bytes :=
  let u := if locked then (if 0xFFFFFFFF ≤ e.unc + 1000 then 0xFFFFFFFF else e.unc + 1000) else 0xFFFFFFFF
  [byteOf e.ch, byteOf (e.rise.toNat + e.defer.toNat * 2), 0, 0] ++ toBe 4 u ++ toBe 8 e.stamp

/-- An edge put into a list latest first. -/
def insertEdge (e : Edge × Nat) : List (Edge × Nat) → List (Edge × Nat)
  | [] => [e]
  | x :: xs => if x.1.stamp ≤ e.1.stamp then e :: x :: xs else x :: insertEdge e xs

/-- The edges due, latest first (R302). -/
def LinkSt.dueEdges (k : LinkSt) : List (Edge × Nat) := k.edges.foldl (fun xs e => insertEdge e xs) []

/-- The mark of an edge that no response has carried. -/
def neverSent : Nat := 2 ^ 32

/-- The payload of a response (R299, R301). -/
def State.responsePayload (s : State) : Bytes :=
  let due := s.link.dueEdges
  let out := due.take 16
  let flags := s.voteMode + (s.hdrState.testBit 6).toNat * 4 + s.link.timedOut.toNat * 8
    + (decide (16 < due.length)).toNat * 16 + s.clkLocked.toNat * 32
  toLe 32 s.link.pubIn.toNat ++ toLe 32 s.link.pubServ.toNat ++ [byteOf s.uState, byteOf flags, byteOf out.length, 0]
    ++ toBe 4 s.link.ackFrozen ++ toBe 4 (s.file.digest.toNat % 2 ^ 32) ++ toBe 2 s.link.onlyA ++ toBe 2 s.link.onlyB
    ++ slice (out.flatMap fun e => edgeRecord s.clkLocked e.1) 0 256

/-- The entry of a slot in the basic cycle that a frame names. -/
def State.ownSlot (s : State) (slot ahead : Nat) : Option TtEntry :=
  match s.table with | some t => t.entryAt slot ((s.link.ttPos + ahead) % s.ttLen) | none => none

/-- The current slot at the instant of a frame: how many basic cycles after the present one, and the slot whose start is the latest
then, with half a preamble to spare (DEDUCED, log 116). -/
def State.placeOf (s : State) (x : LinkRx) : Nat × Nat :=
  let pos := x.sAt.toNat + 512 - s.refAt x.ch
  let at_ := pos % s.bcNs
  let n := match s.table with | some t => (t.starts.filter fun st => decide (st * 10 ≤ at_)).length | none => 0
  (pos / s.bcNs, n - 1)

/-- A frame names the current basic cycle, its reference frame missing perhaps (R324), and the current slot, and that is one of the
unit's own, for an invitation a JOIN slot (R305 step 5). -/
def State.inOwnSlot (s : State) (x : LinkRx) (join : Bool) : Bool :=
  let t := x.bytes
  let d := s.ahead (lkBc t)
  decide (d ≤ 1) && s.placeOf x == (d, lkSlot t)
    && (match s.ownSlot (lkSlot t) d with
      | some e => if join then e.kind == 3 else e.kind == 2 && e.unit == s.nodeId
      | none => false)

/-- Step 5 for POLL: a master's, to this unit or to every node, in the current slot (DEDUCED, log 116). -/
def State.pollPlaced (s : State) (x : LinkRx) : Bool :=
  let t := x.bytes
  s.isMasterId (lkSrc t) && (lkDst t == s.nodeId || lkDst t == 0xFFFF) && s.inOwnSlot x (lkInvite t)

/-- A burst of `len` bytes that would start too late in its slot is not sent (R316). -/
def State.tooLate (s : State) (x : LinkRx) (burst : Nat) : Bool :=
  let R := s.refAt x.ch + s.ahead (lkBc x.bytes) * s.bcNs
  let pd := match x.ch with | .chA => s.link.pdA | .chB => s.link.pdB
  match s.ownSlot (lkSlot x.bytes) (s.ahead (lkBc x.bytes)) with
  | some e => decide (R + e.start * 10 + e.length * 10 <
      x.endAt.toNat + s.ownUnit.tau * 1000 + (if pd = 0xFFFF then 0 else pd * 10) + burst + 2024)
  | none => false

/-- SUPPRESSED (R316). -/
def State.suppress (s : State) (x : LinkRx) : State :=
  (s.count (Reg.PLC_MISC (chIdx x.ch)) 16 16 1).event (Base.plc (chIdx x.ch)) 0x014 0

/-- The unit's file holds its slots in the announced Timetable (R329). -/
def State.ackMode (s : State) : Bool :=
  s.link.pending && (match tableOf s.file s.link.pendMode with | some t => t.lists s.file.unitId | none => false)

/-- A MODE_ACK (R304). -/
def State.modeAckFrame (s : State) (slot bc dst : Nat) : Bytes :=
  let head := linkHead 4 1 s.nodeId dst slot bc 16
  let body := toBe 2 s.nodeId ++ [byteOf s.link.pendMode, 0] ++ toBe 4 s.link.target
  linkFrame head (linkCoded s.txPair s.file.linkSalt.toNat s.nodeId bc head body)

/-- The edges of the response that is sent note its basic cycle, each when a response first carries it (R302). -/
def markSent (bc : Nat) (sent es : List (Edge × Nat)) : List (Edge × Nat) :=
  es.map fun e => if e.2 = neverSent ∧ sent.contains e then (e.1, bc) else e

/-- The answer to a poll on its channel: one burst with a RESPONSE, and a MODE_ACK during an announcement (R294, R312, R313, R329). A
response whose second copy is withheld is lost (R39, R347). -/
def State.answerPoll (s : State) (x : LinkRx) : State :=
  let t := x.bytes
  let pd := match x.ch with | .chA => s.link.pdA | .chB => s.link.pdB
  let tg := ((s.lane.get s.leadLane).session ownSess).lastOut
  let ack := s.ackMode
  let burst := burstNs (20 + tg.length) + (if ack then 376 else 0)
  if pd = 0xFFFF then s
  else if tg.isEmpty then State.withheld 1 s
  else if s.tooLate x burst then s.suppress x
  else
    let head := linkHead 3 1 s.nodeId (lkSrc t) (lkSlot t) (lkBc t) tg.length
    let s := s.sendLink x.ch (linkFrame head tg ++ (if ack then s.modeAckFrame (lkSlot t) (lkBc t) (lkSrc t) else []))
    { s with link := { s.link with edges := markSent (lkBc t) s.link.carried s.link.edges } }

/-- A JOIN_REQUEST on the poll's channel (R304, R313, R339); a session that the unit holds opens anew with it. -/
def State.sendJoin (s : State) (x : LinkRx) (first : Bool) : State :=
  let t := x.bytes
  let s := if first then
      ({ s with link := { s.link with admitted := false } }).updAll fun _ L => L.setSession ownSess fun S =>
        if S.st.receives then S.reopen .opening else S
    else s
  let head := linkHead 6 1 s.nodeId (lkSrc t) (lkSlot t) (lkBc t) 32
  let body := toBe 2 s.nodeId ++ [byteOf s.ownUnit.tau, byteOf s.uState] ++ toBe 4 (s.file.digest.toNat % 2 ^ 32)
    ++ toBe 4 s.file.ttDigest.toNat ++ toBe 8 Config.serial.toNat ++ toBe 4 0
  if s.tooLate x (burstNs 52) then s.suppress x
  else s.sendLink x.ch (linkFrame head (linkCoded s.txPair s.file.linkSalt.toNat s.nodeId (lkBc t) head body))

/-- Edges acknowledged by a poll leave (R302). -/
def ackEdges (ack : Nat) (es : List (Edge × Nat)) : List (Edge × Nat) :=
  if ack = 0xFFFFFFFF then es
  else es.filter fun e => e.2 == neverSent || decide (2 ^ 31 ≤ (ack + 2 ^ 32 - e.2) % 2 ^ 32)

/-- The payload of a poll takes effect at a unit (R297, R298, R335). -/
def State.takePoll (s : State) (t : Bytes) : State :=
  let p := tgPayload (lkBody t)
  let en := (byteAt p 0x20).testBit 0
  { s with link := { s.link with
      cmds := if en then BitVec.ofNat 256 (ofLe (slice p 0 32)) else 0
      cmdAck := lkBc t, edges := ackEdges (beAt p 0x24 4) s.link.edges } }

/-- `PD_THIS` of a valid copy, kept for its channel. -/
def State.notePd (s : State) (x : LinkRx) : State :=
  let pd := beAt (tgPayload (lkBody x.bytes)) 0x22 2
  match x.ch with
  | .chA => { s with link := { s.link with pdA := pd } }
  | .chB => { s with link := { s.link with pdB := pd } }

/-- Step 6 for a frame that carries a Tablet telegram of a session (R358): what each lane makes of it. The first copy is checked
against the session as it stands; a later one, of a frame that the lane has used, against the session as it stood before that frame
(DEDUCED, log 115). -/
def State.linkJudge (s : State) (x : LinkRx) (k : Nat) (ctx : LaneSt → TbCtx) (l : Lane) : Verdict :=
  let L := s.lane.get l
  let S := match s.copyIn x.bytes l with | some y => y.sess | none => L.session k
  S.judge (ctx L) L.clock (lkBody x.bytes)

/-- The lanes that found the telegram valid. -/
def State.linkValid (s : State) (x : LinkRx) (k : Nat) (ctx : LaneSt → TbCtx) : LaneSet :=
  LaneVec.ofFn fun l => (s.linkLanes x).get l && s.linkJudge x k ctx l == .accepted

/-- The lanes that hand its payload on: the first valid copy, at a session that takes it (R306, R359, R360). -/
def State.linkTook (s : State) (x : LinkRx) (k : Nat) (ctx : LaneSt → TbCtx) : LaneSet :=
  LaneVec.ofFn fun l => (s.linkLanes x).get l && (s.copyIn x.bytes l).isNone
    && (((s.lane.get l).session k).receive (ctx (s.lane.get l)) (s.lane.get l).clock (lkBody x.bytes)).2

/-- The sessions after the checks: taken with the first copy, a failure counted (R358, R359). -/
def State.linkSessions (s : State) (x : LinkRx) (k : Nat) (ctx : LaneSt → TbCtx) : State :=
  s.updIn (s.linkLanes x) fun l L => L.setSession k fun S =>
    if (s.copyIn x.bytes l).isNone then (S.receive (ctx L) L.clock (lkBody x.bytes)).1
    else S.reject (s.linkJudge x k ctx l)

/-- A valid poll addressed to the unit, an invitation too, starts the command timeout and ends its expiry (R335). -/
def State.pollHeard (s : State) (t : Bytes) : State :=
  { s with link := { s.link with timedOut := false, pollAt := some (s.now, lkBc t) } }

/-- A valid poll that two lanes have used: the end of the command timeout, the first state of service, and the response formed for both
channels (R299, R335, R475). -/
def State.usePoll (s : State) (t : Bytes) : State :=
  let s := s.pollHeard t
  let s := { s with link := { s.link with admitted := true } }
  let s := if s.mstate = .sync ∨ (s.mstate = .standby ∧ s.xo.role = .holder) then
      s.firstService (if s.file.paired then .duty else .run) else s
  if s.link.node = .answering ∧ s.mstate.polls then
    let seq := (((s.lane.get s.leadLane).session ownSess).seqTx + 1) % 2 ^ 32
    let out := (s.linkTelegram ownSess (lkSrc t) Tg.plResponse seq s.responsePayload).getD []
    let s := { s with link := { s.link with carried := s.link.dueEdges.take 16 } }
    s.updAll fun _ L => L.setSession ownSess fun S => { S with seqTx := seq, lastOut := out }
  else s

/-- The unit held a session when the frame first came. -/
def State.heldSession (s : State) (t : Bytes) : Bool :=
  match s.copyIn t s.leadLane with
  | some y => y.sess.st.receives
  | none => ((s.lane.get s.leadLane).session ownSess).st.receives

/-- What the checks of a poll need. -/
def State.pollCtx (s : State) (t : Bytes) (L : LaneSt) : TbCtx := s.linkCtx L s.ownUnit false (lkSrc t)

/-- A member of a pair that holds no session checks the form and the codes of a poll (R305 step 6, R339): each lane's verdict. -/
def State.bareJudge (s : State) (t : Bytes) (l : Lane) : Verdict :=
  let L := s.lane.get l
  firstVerdict [tgForm (s.pollCtx t L) (lkBody t), tgCodes (s.pollCtx t L) false (lkBody t), tgSealed (s.pollCtx t L) false (lkBody t)]

/-- The lanes that find a telegram valid without a session; in the others the failure counts. -/
def State.bareValid (s : State) (x : LinkRx) (judge : Lane → Verdict) : LaneSet × State :=
  (LaneVec.ofFn fun l => (s.linkLanes x).get l && judge l == .accepted,
    s.updIn (s.linkLanes x) fun l L => L.setSession ownSess fun S => S.reject (judge l))

/-- The first poll of a session that the master has opened at an admission: its `ECHO` is 0 (R380). -/
def opensSession (t : Bytes) : Bool := tgEcho (lkBody t) == 0

/-- A poll with a telegram, at a unit with a session: its effects (R305, R306, R313). -/
def State.sessionPoll (s : State) (x : LinkRx) (sends : Bool) : State :=
  let t := x.bytes
  let ok := s.linkValid x ownSess (s.pollCtx t)
  let took := s.linkTook x ownSess (s.pollCtx t)
  let sess (l : Lane) : SessSt := (s.lane.get l).session ownSess
  let q := (s.linkSessions x ownSess (s.pollCtx t)).takeCopyOf x ok sess took
  let s := if q.heard then q.s.notePd x else q.s
  let s := if q.took then s.takePoll t else s
  let s := if q.fresh then s.usePoll t else s
  if q.heard && sends && s.mstate.polls then s.answerPoll x else s

/-- A poll with a telegram. A member of a pair that holds no session answers each valid copy with a join request, until the master has
admitted it again and polls it in the session that it has opened (R339, R380; DEDUCED, log 142). -/
def State.receivePoll (s : State) (x : LinkRx) : State :=
  let t := x.bytes
  let sends : Bool := s.link.node == .answering
  if s.file.paired && sends && !s.heldSession t then
    let b := s.bareValid x (s.bareJudge t)
    if opensSession t && decide (2 ≤ b.1.count) then
      (s.updAll fun _ L => L.setSession ownSess fun S => S.reopen .opening).sessionPoll x sends
    else
      let q := b.2.takeCopyOf x b.1 fun l => (s.lane.get l).session ownSess
      let s := if q.fresh then q.s.pollHeard t else q.s
      if q.heard then s.sendJoin x q.fresh else s
  else s.sessionPoll x sends

/-- POLL (R305, R313, R380): each lane checks each copy; what two lanes have used takes effect, and the holder answers on the channel
of each copy that two lanes found valid. -/
def execPoll (x : LinkRx) (s : State) : Host.Outcome State Fault Refusal :=
  let q := s.linkFive x 2 none (s.role == .lineside && s.pollPlaced x)
  if !q.1 ∨ s.role ≠ .lineside then .next q.2
  else
    let s := q.2
    if lkInvite x.bytes then
      let r := s.takeCopyOf x (s.linkLanes x) fun _ => {}
      let s := if r.fresh then r.s.pollHeard x.bytes else r.s
      .next (if r.heard && s.link.node == .answering then s.sendJoin x r.fresh else s)
    else .next (s.receivePoll x)

/-- The command timeout has expired since the latest valid poll (R335). -/
def State.pollExpired (s : State) : Bool :=
  match s.link.pollAt with | some t => decide (t.1 + s.file.cmdTmo * 1000000 ≤ s.now) | none => false

/-- CMD_TIMEOUT: every command bit is 0 (R18, R335). -/
def execCmdTimeout (s : State) : Host.Outcome State Fault Refusal :=
  if s.role = .lineside ∧ !s.link.timedOut ∧ s.pollExpired then
    .next (({ s with link := { s.link with timedOut := true, cmds := 0, cmdsFrozen := 0 } }).reportAll Base.plt 5 0)
  else .next s

/-! ### Answers at the master (R314, R326, R329, R331, R339) -/

/-- The window of the current slot on a channel (R314), where a poll or an invitation has left in it: 0 stands for PD at an invitation, and while it is unmeasured. -/
def State.answerWindow (s : State) (ch : PlCh) : Option (Nat × Nat) :=
  if s.link.node ≠ .master ∨ s.link.polled = 0 then none
  else
    let u := (s.unitCfg s.link.polled).getD ⟨0, 2, 0, 0, 0, 0, 0⟩
    let a := s.unitAdm s.link.polled
    let pd := match ch with | .chA => a.pdA | .chB => a.pdB
    some (s.link.pollEnd + u.tau * 1000 + (if s.link.invited ∨ pd = 0xFFFF then 0 else pd * 10),
      s.link.slotAt + s.link.slotLen - 1000)

/-- Step 5 at the master: the frame belongs to the current slot and to its owner. -/
def State.inSlot (s : State) (t : Bytes) : Bool :=
  s.link.node == .master && s.link.polled != 0 && lkSrc t == s.link.polled && lkSlot t == s.link.slot
    && lkBc t == s.link.bc64 % 2 ^ 32 && (lkDst t == s.nodeId || lkDst t == 0xFFFF)

/-- PD of a unit on a channel. -/
def UnitAdm.pd (a : UnitAdm) (ch : PlCh) : Nat := match ch with | .chA => a.pdA | .chB => a.pdB

/-- An edge record of a response (R300). -/
def edgeOf (b : Bytes) : Edge :=
  ⟨byteAt b 0, (byteAt b 1).testBit 0, beAt b 8 8, beAt b 4 4, (byteAt b 1).testBit 1⟩

/-- The response as a lane holds it, whole (R331). -/
def unitRxOf (bc : Nat) (p : Bytes) : UnitRx :=
  { bc := bc, heard := true, inputs := BitVec.ofNat 256 (ofLe (slice p 0 32)), serv := BitVec.ofNat 256 (ofLe (slice p 32 32)),
    ustate := p.getD 0x40 0, flags := p.getD 0x41 0, digest := BitVec.ofNat 32 (beAt p 0x48 4),
    edges := (List.range (min 16 (byteAt p 0x42))).map fun i => edgeOf (slice p (0x50 + 16 * i) 16), age := 0 }

/-- What the checks of its holder's responses need at the standby of a paired unit. -/
def State.watchCtx (s : State) (t : Bytes) (L : LaneSt) : TbCtx :=
  { cat := s.file.linkCat, own := lkDst t, peers := [s.nodeId], types := [Tg.plResponse], report := false, testOk := false
    tExp := 0, window := 0, saltOf := fun _ => some s.file.linkSalt.toNat
    keyOf := fun e => linkKeyOf s.file L.keys.link s.link.stime s.nodeId (lkDst t) e }

/-- The standby of a paired unit checks its holder's responses (R338): step 5 by its own identity and the current slot, step 6 by form
and codes, since no session of the standby receives them; failures count there. -/
def State.watchResponse (s : State) (x : LinkRx) : State :=
  let t := x.bytes
  let own : Bool := s.link.node == .integrated && lkSrc t == s.nodeId && s.isMasterId (lkDst t) && s.inOwnSlot x false
  let q := s.linkFive x 3 none own
  let judge (l : Lane) : Verdict :=
    let c := s.watchCtx t (s.lane.get l)
    firstVerdict [tgForm c (lkBody t), tgCodes c false (lkBody t), tgSealed c false (lkBody t)]
  if !q.1 then q.2
  else
    let b := q.2.bareValid x judge
    b.2.enterCopy x b.1 fun _ => {}

/-- RESPONSE (R305, R314, R331): each lane of the master checks each copy, and replaces the unit's data as a whole with that of the
first that passes. -/
def execResponse (x : LinkRx) (s : State) : Host.Outcome State Fault Refusal :=
  let t := x.bytes
  if s.role ≠ .central then .next (s.watchResponse x)
  else
    let u := s.link.polled
    let q := s.linkFive x 3 (s.answerWindow x.ch) (s.inSlot t && !s.link.invited)
    match s.unitCfg u with
    | none => .next q.2
    | some c =>
      if !q.1 then .next q.2
      else
        let s := q.2
        let ctx (L : LaneSt) : TbCtx := s.linkCtx L c true u
        let ok := s.linkValid x (unitSess u) ctx
        let took := s.linkTook x (unitSess u) ctx
        let sess (l : Lane) : SessSt := (s.lane.get l).session (unitSess u)
        let s' := s.linkSessions x (unitSess u) ctx
        let s' := s'.updIn took fun _ L =>
          let r := unitRxOf (lkBc t) (tgPayload (lkBody t))
          (L.setUnitRx u fun _ => r).putRx [(u, r.inputs.setWidth 512)]
        let s' := s'.enterCopy x ok sess
        .next (if 0 < took.count then s'.setUnit u fun a => { a with answered := true } else s')

/-- MODE_ACK at the master (R329). -/
def execModeAck (x : LinkRx) (s : State) : Host.Outcome State Fault Refusal :=
  let b := lkBody x.bytes
  let q := s.codedFrame x 4 (s.answerWindow x.ch) (s.inSlot x.bytes)
  .next (if q.fresh ∧ s.role = .central ∧ s.link.pending ∧ byteAt b 2 = s.link.pendMode ∧ beAt b 4 4 = s.link.target
      ∧ beAt b 0 2 = lkSrc x.bytes then
    q.s.setUnit (lkSrc x.bytes) fun a => { a with acked := true }
  else q.s)

/-- The reason that refuses a join request, or 0 (R326). -/
def State.joinBar (s : State) (u pd : Nat) (b : Bytes) : Nat :=
  match s.unitCfg u with
  | none => 1
  | some c =>
    if !s.listed u then 1
    else if BitVec.ofNat 32 (beAt b 4 4) ≠ c.digest ∨ BitVec.ofNat 32 (beAt b 8 4) ≠ s.file.ttDigest then 2
    else if c.pdMax < pd then 3
    else if byteAt b 2 ≠ c.tau then 4
    else 0

/-- The measured PD set on a channel. -/
def UnitAdm.setPd (a : UnitAdm) (ch : PlCh) (pd : Nat) : UnitAdm :=
  match ch with | .chA => { a with pdA := pd } | .chB => { a with pdB := pd }

/-- A valid join request on a channel (R326, R339): PD measured there; in a UNIT slot of an admitted unit the first copy ends its
admission. The session of an admitted unit opens anew (R380). -/
def State.takeJoin (s : State) (x : LinkRx) (first : Bool) : State :=
  let u := lkSrc x.bytes
  let tau := match s.unitCfg u with | some c => c.tau | none => 0
  let pd := (x.sAt.toNat - (s.link.pollEnd + tau * 1000 + 1024)) / 10
  let s := if first ∧ !s.link.invited ∧ (s.unitAdm u).admitted then s.endAdmission u else s
  let bar := s.joinBar u pd (lkBody x.bytes)
  if bar ≠ 0 then (s.setUnit u fun a => { a with reason := bar }).reportAll Base.plt 2 (u + bar * 65536)
  else if (s.unitAdm u).admitted then s.setUnit u fun a => { a.setPd x.ch pd with answered := true }
  else
    let s := s.setUnit u fun a => { a.setPd x.ch pd with
      admitted := true, reason := 0, joins := satAdd 16 a.joins 1, answered := true, age := 255 }
    s.updAll fun _ L => (L.setSession (unitSess u) fun S => { S.reopen .opening with heard := true }).setUnitRx u fun _ => {}

/-- JOIN_REQUEST at the master (R326, R339, R380): a copy that two lanes found valid is taken on its channel. -/
def execJoinRequest (x : LinkRx) (s : State) : Host.Outcome State Fault Refusal :=
  let q := s.codedFrame x 6 (s.answerWindow x.ch) (s.inSlot x.bytes)
  .next (if q.heard ∧ s.role = .central then q.s.takeJoin x q.fresh else q.s)

/-! ### Mode change (R327, R330) and ageing (R332) -/

/-- The reason that refuses a mode request, or 0 (R343). -/
def State.modeReqBar (s : State) (mode : Nat) : Nat :=
  if s.role = .lineside ∨ s.link.node ≠ .master then 0x43
  else if s.link.pending then 0x40
  else if (tableOf s.file mode).isNone then 0x41
  else if mode = s.link.mode then 0x42
  else 0

/-- A mode change accepted: it is announced at the next Timetable cycle boundary. -/
def State.requestMode (s : State) (mode : Nat) : State :=
  ({ s with link := { s.link with announceDue := true, pendMode := mode } }).updAll fun _ L =>
    L.setReg Reg.PL_MODE_REQ (BitVec.ofNat 32 mode)

/-- MODE_SWITCH: at TARGET, or as its basic cycle is about to start, every integrated node changes (R330). The reference frame of TARGET
carries the new mode; a node that has switched with it has nothing left to do. -/
def execModeSwitch (s : State) : Host.Outcome State Fault Refusal :=
  let k := s.link
  if !k.pending ∨ !k.node.inside then .next s
  else if k.bc64 % 2 ^ 32 = k.target then .next s.switchMode
  else if (k.bc64 + 1) % 2 ^ 32 = k.target then
    let s := s.switchMode
    .next { s with link := { s.link with ttPos := s.ttLen - 1 } }
  else .next s

/-- UNIT_LOST: AGE has passed MAX_AGE (R332); the source's VALID bit follows at the freeze. -/
def execUnitLost (u : BitVec 11) (s : State) : Host.Outcome State Fault Refusal :=
  .next (((s.reportAll Base.plt 0 u.toNat).irq Base.plt 1).tallyLost u.toNat)

/-- ADMISSION_END: AGE has reached 255 (R332). -/
def execAdmissionEnd (u : BitVec 11) (s : State) : Host.Outcome State Fault Refusal := .next (s.endAdmission u.toNat)

/-- A unit's AGE at a freeze in one lane (R332). -/
def LaneSt.unitAge (L : LaneSt) (bc64 u : Nat) : Nat :=
  let r := L.unitRx u
  if r.heard then min 255 ((bc64 + 2 ^ 32 - r.bc) % 2 ^ 32) else 255

/-! ### Registers (R342) -/

/-- The poll period code of a unit in a Timetable. -/
def Timetable.periodOf (t : Timetable) (u : Nat) : Nat :=
  match t.entries.find? fun e => e.kind == 2 && e.unit == u with
  | some e => e.period
  | none => 0

/-- What the unit registers of a LINESIDE module show of the unit itself (R342; DESIGN CHOICE, log 117): admitted from a valid poll
until it asks to join or listens again, its age since the latest poll that it applied. -/
def LinkSt.ownAdm (k : LinkSt) : UnitAdm :=
  { admitted := k.admitted, pdA := k.pdA, pdB := k.pdB
    age := if k.cmdAck = 0xFFFFFFFF then 255 else min 255 ((k.bc64 + 2 ^ 32 - k.cmdAck) % 2 ^ 32) }

/-- The Timetable and unit page, computed from what the last publication showed. -/
def State.viewLink (s : State) (v : Seen) (L : LaneSt) (p : Port) (off : Nat) : Option Nat :=
  let f := v.file
  let k := v.link
  let t := tableOf f k.mode
  let u := if s.role = .lineside then f.unitId else (L.sel p Reg.PL_UNIT_SEL).toNat % 2048
  let c := f.units.find? fun c => c.unit == u
  let a := if s.role = .lineside then k.ownAdm else getD ({} : UnitAdm) v.adm u
  if off = Reg.PL_CFG then
    some (v.central.toNat + (if f.tables.isEmpty then 0 else f.bcUnits * 2 + f.offUs * 256))
  else if off = Reg.PL_STATE then
    some (k.node.code + k.mode % 8 * 16 + k.pending.toNat * 128 + (if k.pending then k.pendMode % 8 * 256 else 0)
      + k.ttPos % 64 * 4096 + (match t with | some t => t.n | none => 0) * 0x40000)
  else if off = Reg.PL_BCYCLE then some (k.bc64 % 2 ^ 32)
  else if off = Reg.PL_BCYCLE_HI then some (k.bc64 / 2 ^ 32)
  else if off = Reg.PL_TARGET then some (if k.pending then k.target else 0)
  else if off = Reg.PL_UNIT_CFG then some (match c with
    | some c => c.tau + (match t with | some t => t.periodOf u | none => 0) * 32 + c.maxAge * 256 + c.pdMax * 65536
    | none => 0)
  else if off = Reg.PL_UNIT_STAT then
    let listed := match t with | some t => t.lists u | none => false
    some (a.age + a.valid.toNat * 256 + a.admitted.toNat * 512 + listed.toNat * 1024 + a.acked.toNat * 2048
      + (decide (a.pdA ≠ 0xFFFF)).toNat * 4096 + (decide (a.pdB ≠ 0xFFFF)).toNat * 8192 + a.reason * 65536)
  else if off = Reg.PL_UNIT_PD then
    some (a.pdA + a.pdB * 65536)
  else if off = Reg.PL_UNIT_CNT then some (a.missed + a.joins * 65536)
  else if off = Reg.PL_SUMMARY then
    some ((v.adm.filter fun e => e.2.admitted).length + (match t with | some t => t.units.length | none => 0) * 65536)
  else if off = Reg.PL_LS then
    some (if s.role = .lineside then f.cmdTmo + k.timedOut.toNat * 65536 + s.clkLocked.toNat * 131072 else 0)
  else none

end Sys2Proof.Machine
end

