-- ==== Sys2Proof/Machine/FileCheck.lean ====
section
/-! DEFINITION. Machine/FileCheck.lean: the checks of a station image file (R2, R119, R171, R311, R394, R408, R427, R472),
the loading of instruction banks and edge slots from a file (R472), the exchange of banks and files (R187, R501). -/

namespace Sys2Proof.Machine

/-! ### Legal words (R158) -/

/-- What an instruction word does in a cell, none where it is illegal: the meanings of Cells.lean by opcode. -/
def wordEff (s : State) (L : LaneSt) (cell w : Nat) : Option CellEff :=
  let op := w / 2 ^ 26
  let f := w % 2 ^ 26
  let c : CellSt := {}
  if op = 0 then (if f = 0 then some { cell := c, base := 1 } else none)
  else if op ≤ 7 then effRead s cell f (fun _ x => x) L c
  else if op ≤ 0xB then effWrite cell f true true L c
  else if op ≤ 0xD then effEdge cell f (fun l _ => l) L c
  else if 0x10 ≤ op ∧ op ≤ 0x13 then effStamp cell f true false L c
  else if op = 0x14 ∨ op = 0x15 then effTime f timeGe c
  else if 0x18 ≤ op ∧ op ≤ 0x1F then effField f (fun b i => b == i) false L c
  else if op = 0x20 ∧ fmtTFn f ≤ 3 then effTimer s cell f 0 true false c
  else if op = 0x21 ∧ fmtTFn f ≤ 3 then effCounter s cell f 0 c
  else if op = 0x28 then effIf f c
  else if op = 0x29 ∨ op = 0x2A then (if f = 0 then some { cell := c, base := 1 } else none)
  else if op = 0x2C ∨ op = 0x2D then effStop f false c
  else if op = 0x30 then effAssert s cell f L c
  else none

/-- The words of a program by opcode: BAR, END. -/
def isBar (w : Word) : Bool := w == 0xB0000000
def isEnd (w : Word) : Bool := w == 0xB4000000

/-- The structure of R171: P − 1 BAR instructions, then END as the last word and nowhere else. -/
def programShape (phases : Nat) (ws : List Word) : Bool :=
  decide (ws.length ≤ 16384) && decide ((ws.filter isBar).length + 1 = phases) && (ws.getLast?.map isEnd == some true)
    && decide ((ws.filter isEnd).length = 1)

/-! ### A file's parts -/

def StationFile.cycleNs (f : StationFile) : Nat := f.tUnits * 250000
def StationFile.tPub (f : StationFile) : Nat := 140 + budgetUs f.tUnits f.pct

/-- The slot count of a block (R179). -/
def StationFile.slotsIn (f : StationFile) (b : Nat) : Nat := (f.slotCount.lookup b).getD 0

/-- The instruction words of a file as one bank (R155). -/
def StationFile.bankOf (f : StationFile) (bank : Nat) : List (Nat × Word) :=
  f.progs.foldl (fun m p =>
    (p.words.foldl (fun (q : List (Nat × Word) × Nat) w => (putD 0 q.1 (bankKey bank p.cell q.2) w, q.2 + 1)) (m, 0)).1) []

/-- One bank of a lane replaced by a file's programs, with its phase and slot counts (R472). -/
def LaneSt.loadBank (L : LaneSt) (f : StationFile) (bank : Nat) : LaneSt :=
  let g := L.logic
  let ph := (List.range 16).foldl (fun m b => putD 0 m (bank * 16 + b) f.phases)
    (g.phasesOf.filter fun e => decide (e.1 / 16 ≠ bank))
  let sl := (List.range 16).foldl (fun m b => putD 0 m (bank * 16 + b) (f.slotsIn b))
    (g.slotsOf.filter fun e => decide (e.1 / 16 ≠ bank))
  let ws := g.banks.filter fun e => decide (e.1 / 2 ^ 22 ≠ bank)
  let mine := f.bankOf bank
  { L with logic := { g with
      banks := if bank = 0 then mine ++ ws else ws ++ mine
      phasesOf := ph, slotsOf := sl } }

/-- The active bank of one logic block loaded again from the ACTIVE file (R527). -/
def LaneSt.reloadBlock (L : LaneSt) (b : Nat) : LaneSt :=
  let g := L.logic
  let f := L.flash.active
  let k := g.bank * 16 + b
  let mine := (f.bankOf g.bank).filter fun e => decide (e.1 / 2 ^ 18 = k)
  { L with logic := { g with
      banks := mine.foldl (fun m e => putD 0 m e.1 e.2) (g.banks.filter fun e => decide (e.1 / 2 ^ 18 ≠ k))
      phasesOf := putD 0 g.phasesOf k f.phases, slotsOf := putD 0 g.slotsOf k (f.slotsIn b) } }

/-- Firmware binds units 0 to 23 in LOAD; the background user of each begins and has the datapath (R513, R522). -/
def LaneSt.bindUnits (L : LaneSt) (now : Nat) : LaneSt :=
  (List.range 24).foldl (fun L u => L.setCvUnit u fun c => { c with bgHeld := true, saved := false, passAt := now }) L

/-- At a swap the pass in progress over every bank ends, and the next begins at the new bank (R525). -/
def LaneSt.newPasses (L : LaneSt) (now : Nat) : LaneSt :=
  (List.range 16).foldl (fun L u => L.setCvUnit u fun c => { c with passAt := now }) L

/-! ### The checks (R472) -/

/-- R2: the role of the file is the strapped role; the blank file is valid for both (R474). -/
def fileRoleOk (f : StationFile) (r : Role) : Bool := f.blank || f.role == some r

/-- The ranges that the settings of the file have (R64, R117), and R119. -/
def fileCycleOk (f : StationFile) : Bool :=
  decide (1 ≤ f.tUnits ∧ f.tUnits ≤ 64) && decide (5 ≤ f.pct ∧ f.pct ≤ 80)
    && decide (1 ≤ fieldOf f.voteCfg 0 8 ∧ fieldOf f.voteCfg 0 8 ≤ 168) && decide (f.tPub + 50 ≤ f.cycleNs / 1000) && decide (f.wcet * 10 ≤ budgetUs f.tUnits f.pct * 1000)

/-- R171 for the programs of a file in the active bank of a lane: one phase count throughout the bank, blocks without a program among
them (R172); each program's structure by it, its words by the bank's slot counts and the file's timers and counters. -/
def programsFit (s : State) (L : LaneSt) (f : StationFile) : Bool :=
  let s' : State := { s with file := f }
  ((List.range 16).all fun b => L.phases b == f.phases) && f.progs.all fun p => programShape (L.phases (p.cell / 16)) p.words && p.words.all fun w => (wordEff s' L p.cell w.toNat).isSome

/-- R171 in LOAD: a bank that the file fills. -/
def fileProgramsOk (s : State) (f : StationFile) : Bool :=
  decide (1 ≤ f.phases ∧ f.phases ≤ 8) &&
    programsFit s (({ s.lane.a with logic := .reset } : LaneSt).loadBank { f with progs := [] } 0) f

/-- A lane as it would be with another active bank. -/
def LaneSt.onBank (L : LaneSt) (b : Nat) : LaneSt := { L with logic := { L.logic with bank := b } }

/-- The slot minimum of R315, ns, for a unit at the file's category. -/
def slotMin (f : StationFile) (u : UnitCfg) : Nat :=
  let x := if f.linkCat = 3 then 8 else 0
  burstNs (100 + x) + u.tau * 1000 + 200 + u.pdMax * 10 + burstNs (396 + x) + 376 + 1000

/-- The join minimum of R315, ns. -/
def joinMin (f : StationFile) : Nat :=
  1208 + f.units.foldl (fun m u => max m (u.tau * 1000)) 0 + 200 + f.units.foldl (fun m u => max m (u.pdMax * 10)) 0
    + 1464 + 1000

/-- Slots of a Timetable: start and length, ascending. -/
def Timetable.slotSpans (t : Timetable) : List (Nat × Nat) :=
  t.starts.map fun st => (st, ((t.entries.find? fun e => e.start == st).map fun e => e.length).getD 0)

/-- Each span ends before the next begins; the last ends 2 µs before BC. -/
def spansOk (bcNs : Nat) : List (Nat × Nat) → Bool
  | [] => true
  | [x] => decide ((x.1 + x.2) * 10 + 2000 ≤ bcNs)
  | x :: y :: r => decide (x.1 + x.2 ≤ y.1) && spansOk bcNs (y :: r)

/-- The layout of an entry (R309): bits that are 0, no reserved `KIND` or `PERIOD`, a unit identity only of a UNIT slot. -/
def entryShape (e : TtEntry) : Bool :=
  !e.w0.toNat.testBit 31 && decide (e.w1.toNat < 2 ^ 27) && e.kind != 0 && e.period != 7 && (e.kind == 2 || e.unit == 0)

/-- R309 and R311 for one Timetable. Slot 0 is a REFERENCE slot of every basic cycle, as R317 sends one. -/
def timetableOk (f : StationFile) (t : Timetable) : Bool :=
  let unit (u : Nat) : Option UnitCfg := f.units.find? fun c => c.unit == u
  (t.entries.any fun e => e.start == 0) && decide (1 ≤ t.n ∧ t.n ≤ 64) && decide (t.entries.length ≤ 4096) && decide (t.mode < 8)
    && (t.entries.all fun e => entryShape e && (e.start != 0 || (e.kind == 1 && e.period == 0 && decide (400 ≤ e.length))))
    && (t.entries.all fun e =>
      (t.entries.all fun g => g.start != e.start || g.length == e.length) && decide (e.phase < 2 ^ e.period)
        && decide (t.n % 2 ^ e.period = 0)
        && (e.kind != 2 || (match unit e.unit with
          | some u => decide (slotMin f u ≤ e.length * 10) && decide (2 ^ e.period ≤ u.maxAge)
          | none => false))
        && (e.kind != 3 || decide (joinMin f ≤ e.length * 10)))
    && spansOk (f.bcUnits * 250000) t.slotSpans && (t.entries.any fun e => e.kind == 3)

/-- R311, for the CENTRAL module. -/
def fileTablesOk (f : StationFile) (r : Role) : Bool := r != .central || f.tables.all (timetableOk f)

/-- R394: the recorded worst-case copy, at 3,100 bytes per µs. -/
def fileCopyOk (f : StationFile) : Bool :=
  !f.paired || (decide (f.copyMax ≤ 1048576) && decide (f.copyMax ≤ (f.cycleNs / 1000 - f.tPub + 20) * 3100))

/-- R412, R413: the ranges of `REVERT_HOLD` and `SWAP_INTERVAL`. -/
def filePairOk (f : StationFile) : Bool :=
  !f.paired || (decide (10 ≤ f.revert ∧ f.revert ≤ 3600) && decide (1 ≤ f.swapHours ∧ f.swapHours ≤ 168))

/-- R408: a paired CENTRAL module's UNIT and JOIN slots last 15 µs. -/
def filePairSlotsOk (f : StationFile) (r : Role) : Bool :=
  !f.paired || r != .central || f.tables.all fun t => t.entries.all fun e => e.kind == 1 || decide (1500 ≤ e.length)

/-- R201: every lineside unit that an element names has an entry in the unit table. -/
def fileSourcesOk (f : StationFile) : Bool := f.elems.all fun e => e.source == 0 || f.units.any fun c => c.unit == e.source

/-- R222: the discipline source is one of the four, PLINK in LINESIDE role only (DEDUCED, log 104: a file that names another is
refused as the others are). -/
def fileClockOk (f : StationFile) (r : Role) : Bool :=
  decide (f.clockSrc.toNat < 3) || (f.clockSrc == 3 && r == .lineside)

/-- R355, R361, R376, R345: the ranges of a station network session's settings, and of those of a Cabinet Bus session. -/
def fileSessionsOk (f : StationFile) : Bool :=
  (f.sessions.all fun c => decide (1 ≤ c.cat ∧ c.cat ≤ 3) && (c.net1 || c.net2) && decide (1 ≤ c.tExp ∧ c.tExp ≤ 60000)
      && decide (1 ≤ c.window ∧ c.window ≤ 4095) && decide (1 ≤ c.period ∧ c.period ≤ 1000) && decide (c.len ≤ 1024))
    && f.canBufs.all fun c => !c.tablet || (decide (1 ≤ c.cat ∧ c.cat ≤ 2) && decide (1 ≤ c.tExp ∧ c.tExp ≤ 60000)
      && decide (1 ≤ c.window ∧ c.window ≤ 4095))

/-- R335, R545, R554: the ranges of the command timeout and of the Cabinet Bus settings; a buffer that carries Tablet telegrams has FD
format and 64 bytes. -/
def fileBusOk (f : StationFile) (r : Role) : Bool :=
  let port (c : CanPortCfg) : Bool := !c.master || decide (1 ≤ c.trefMs.toNat ∧ c.trefMs.toNat ≤ 100)
  (r == .central || decide (2 ≤ f.cmdTmo ∧ f.cmdTmo ≤ 1000))
    && port f.canPorts.1.a && port f.canPorts.1.b && port f.canPorts.1.c && port f.canPorts.2
    && f.canBufs.all fun c => decide (c.port < 4 ∧ c.buf < 64 ∧ c.len ≤ 64 ∧ c.period ≤ 1000 ∧ c.timeout ≤ 65535)
      && (!c.tablet || (c.format != 0 && c.len == 64))

/-- R427: no class below its floor, none for a detector that the block does not implement. -/
def classSetOk (c : ClassSet) : Bool :=
  match pageOf (Blk.base c.blk) with
  | some (p, i) => (detMask p i).testBit c.det && decide ((floorClass p i c.det).code ≤ c.cls.code)
  | none => false

/-- What a lane checks of an agreed file in LOAD, and of a new file in VERIFYING. -/
def fileOk (s : State) (f : StationFile) : Bool :=
  fileRoleOk f s.role && fileCycleOk f && fileProgramsOk s f && fileTablesOk f s.role && fileCopyOk f
    && filePairOk f && filePairSlotsOk f s.role && fileSourcesOk f && fileClockOk f s.role && fileSessionsOk f && fileBusOk f s.role && f.classes.all classSetOk

/-! ### Edge slots (R179, R181) -/

/-- Both valid flags of a slot. -/
def LaneSt.clearSlot (L : LaneSt) (block slot : Nat) : LaneSt :=
  let a := slotBase slot + 27
  L.blkPut block a [byteOf (L.blkByte block a / 4 * 4)]

/-- The INP address that a slot map gives a slot. -/
def slotAddr (m : List SlotCfg) (block slot : Nat) : Option Nat :=
  (m.find? fun c => c.block == block && c.slot == slot).map fun c => c.addr

/-- The last 8 bytes of a slot for the bit it follows: its INP address, no flag, nothing in the reserved bits (R179). -/
def LaneSt.nameSlot (L : LaneSt) (c : SlotCfg) : LaneSt :=
  L.blkPut c.block (slotBase c.slot + 24) (toLe 3 (c.addr % 2 ^ 23) ++ [0, 0, 0, 0, 0])

/-- A new assignment: the slots whose bit changes lose their flags (R181), and those that have a new bit name it (R179;
DEDUCED, log 99: R187 says that a swap changes no block memory word). -/
def LaneSt.assignSlots (L : LaneSt) (new : List SlotCfg) : LaneSt :=
  let old := L.logic.slotMap
  let changed (c : SlotCfg) : Bool := decide (slotAddr old c.block c.slot ≠ slotAddr new c.block c.slot)
  let L := (old.filter changed).foldl (fun L c => L.clearSlot c.block c.slot) L
  let L := (new.filter changed).foldl LaneSt.nameSlot L
  { L with logic := { L.logic with slotMap := new } }

/-! ### The exchange of banks and files (R187, R501, R502, R504) -/

/-- The file that a swap makes ACTIVE: the STAGED one, or the KEPT one on REVERT. -/
def FlashSt.incoming (F : FlashSt) (revert : Bool) : StationFile :=
  (if revert then F.kept else F.staged).getD F.active

/-- A lane's part of the swap: the other bank, the new slot assignment, the directory. `till` is the Station Clock instant
at which the REVERT window ends. The shadow banks read KEPT after a REVERT too, until the window ends, though no file is kept for a
further one (R193, R504; DESIGN CHOICE, log 154). -/
def LaneSt.swap (L : LaneSt) (revert : Bool) (till : Nat) : LaneSt :=
  let new := L.flash.incoming revert
  let L := { L with
    logic := { L.logic with bank := 1 - L.logic.bank }
    flash := if revert then { L.flash with active := new, kept := none }
      else { L.flash with active := new, kept := some L.flash.active, staged := none, keptTill := till } }
  let L := L.assignSlots new.slots
  (List.range 16).foldl (fun L b => L.setFld (Reg.LF_SHD_STAT b) 0 2 3) L

/-- The deadlines of a channel that the new file uses otherwise than the old one run from the swap (R241, R265). -/
def State.dateChannels (s : State) (old : StationFile) : State :=
  s.file.chans.foldl (fun s e =>
    if e.2.mode != 0 && ((old.chans.lookup e.1).getD {}).mode != e.2.mode then
      s.setChan e.1 fun c => { c with inFrom := s.now, dueFrom := s.now, onFrom := s.now }
    else s) s

/-- The swap in every lane: CHANGE_SWAPPED; on REVERT the state stays SWAPPED until the window ends (R504). -/
def State.swapBanks (s : State) : State :=
  let rv := s.chg.revert
  let till := (s.lane.get s.leadLane).clock + s.chg.window * 1000000000
  let new := (s.lane.get s.leadLane).flash.incoming rv
  let s := s.updAll fun _ L => (L.swap rv till).newPasses s.now
  let old := s.file
  let s := { s with
    file := new
    chg := { s.chg with st := .swapped, target := 0, endAt := if rv then s.chg.endAt else till } }
  (s.dateChannels old).event Base.sv 0x111 0

end Sys2Proof.Machine
end

