-- ==== Sys2Proof/Machine/Agreed.lean ====
section
/-! DEFINITION. Machine/Agreed.lean: the two ways in which a register write takes effect: a WB write that the lanes agree
(R88 to R93), and a write of RW, W1C or WO fields in each lane on receipt (R67, R75). -/

namespace Sys2Proof.Machine

/-! ### WB writes -/

/-- Who writes: the port, the role and the certificate that its session carries. -/
structure Writer where
  port   : Port
  access : Access
  cert   : Bool
  certId : Word
  deriving DecidableEq, Repr

def State.writerOf (s : State) (p : Port) : Writer := ⟨p, s.accessOf p, s.hasCert p, s.certId p⟩

/-- The writer of a pending write. -/
def PendWrite.writer (w : PendWrite) : Writer := ⟨w.port, w.access, w.cert, w.certId⟩

/-- The fields that a standby writes for itself (R89): `BANK_CLEAR` and `KS_LOAD`. -/
def ownOfStandby (off : Nat) : Bool :=
  off == Reg.KS_LOAD || (decide (Base.bank 0 ≤ off ∧ off < Base.bank 16) && off % 0x1000 == 0x48)

/-- What a write of a register that holds WB fields meets besides its token: steps 1, 2, 6 and 7 of R88 in that order
(`bar` is the block's own check), then the journal's room (R93). In SAFE only the writes of Clearing and rejoining are
accepted (R434). -/
def State.agreedBar (s : State) (w : Writer) (off bar : Nat) : Nat :=
  if s.mstate = .standby ∧ !ownOfStandby off then Reason.standby
  else if w.access ≠ .configure then Reason.role
  else if s.mstate = .safe ∧ off ≠ Reg.FC_CTRL then Reason.wrongState
  else if bar ≠ 0 then bar
  else if s.mstate ≠ .standby ∧ ((s.lane.get s.leadLane).journalPlace off).isNone then Reason.busy
  else 0

/-- The accepted value in the journal of every lane; a standby's own writes stay out of it (R89, R93). -/
def State.keepJournal (s : State) (off : Nat) (d : Word) : State :=
  if s.mstate = .standby then s else s.updIn s.parts fun _ L => L.journal off d

/-- The states that have an input agreement step: those with cycles (R120, R434). -/
def MState.agrees (m : MState) : Bool := m.voting || m == .safe

/-- The lanes whose block is in reset refuse a WB write on receipt (R69); where one of them counts, the others do not come to agree it
and refuse it as MISSING (R90, R92). -/
def State.resetRefusal (s : State) (p : Port) (off : Nat) : State × Bool :=
  let out : LaneSet := LaneVec.ofFn fun l => s.parts.get l && (s.lane.get l).inReset (Blk.ofOff off)
  let lost : Bool := Lane.list.any fun l => out.get l && s.counting.get l
  let s := s.refuseIn out p (0x40000000 + off) Reason.inReset
  if lost then
    (s.refuseIn (LaneVec.ofFn fun l => s.parts.get l && !out.get l) p (0x40000000 + off) Reason.missing, true)
  else (s, false)

/-- A WB write as the lanes agree it: refused in every lane (for role, in the module access block: R83), or in the journal
and in effect (R90, R93). Before SYNC no write is agreed: it is refused with its own reason, or with WRONG_STATE (DESIGN CHOICE,
log 87). -/
def State.agreedWrite (s : State) (p : Port) (off : Nat) (d : Word) (bar : Writer → Nat) (go : Writer → State → State) :
    State :=
  let w := s.writerOf p
  let r := s.agreedBar w off (bar w)
  let r := if r = 0 ∧ !s.mstate.agrees then Reason.wrongState else r
  if s.mstate = .off then s
  else if r = Reason.role then s.refuseModule p Base.acc (0x40000000 + off) r
  else
    let q := s.resetRefusal p off
    if q.2 then q.1
    else if r ≠ 0 then q.1.refuseIn q.1.parts p (0x40000000 + off) r
    else go w (q.1.keepJournal off d)

/-- A register keeps an accepted value, in every lane. -/
def State.storeWb (s : State) (off : Nat) (d : Word) : State :=
  s.updIn s.parts fun _ L => L.setReg off (keepWb off (L.reg off) d)

/-! ### Writes that take effect in each lane -/

/-- The lanes that a write reaches. -/
def wLanes : WAper → LaneSet
  | .lane l => oneLane l
  | .broadcast => .all true

/-- The lanes whose effect a read has: those of the aperture. -/
def rLanes : RAper → LaneSet
  | .lane l => oneLane l
  | .voted => .all true

/-- The address of an offset in the aperture of a write. -/
def WAper.addr (off : Nat) : WAper → Nat
  | .lane l => l.code * 0x10000000 + off
  | .broadcast => 0x40000000 + off

/-- A write as the lanes that it reaches and that answer (`only`, R69) take it: refused in each for a reset of the block
(R69) or by the block's own check, otherwise in effect. The state, and the reason of the lowest-lettered lane that refused,
0 when none did (R75). -/
def State.laneTake (s : State) (p : Port) (ap : WAper) (off : Nat) (check : LaneSt → Nat) (go : Lane → State → State)
    (only : LaneSet) : State × Nat :=
  Lane.list.foldl (fun (q : State × Nat) l =>
    if !(wLanes ap).get l || !only.get l then q
    else
      let L := q.1.lane.get l
      let r := if L.inReset (Blk.ofOff off) then Reason.inReset else check L
      if r = 0 then (go l q.1, q.2)
      else (q.1.upd l fun L => L.refuse l p (WAper.addr off ap) r q.1.cyc.num, if q.2 = 0 then r else q.2)) (s, 0)

/-- A write of RW, W1C or WO fields: refused for role in the module access block (R83, R95), otherwise taken by the lanes.
The table of R95 does not name writes of WO fields: the role MAINTAIN may make them, as those of RW fields (DESIGN CHOICE,
log 85). -/
def State.laneWrite (s : State) (p : Port) (ap : WAper) (off : Nat) (check : LaneSt → Nat)
    (go : Lane → State → State) (only : LaneSet := .all true) : State × Nat :=
  if s.mstate = .off then (s, 0)
  else if s.accessOf p = .view then
    (s.refuseModule p Base.acc (WAper.addr off ap) Reason.role, Reason.role)
  else s.laneTake p ap off check go only

end Sys2Proof.Machine
end

