-- ==== Sys2Proof/Machine/Cabinet.lean ====
section
/-! DEFINITION. Machine/Cabinet.lean: the Cabinet Bus (R541 to R556): ports, owners, message buffers, Tablet telegrams in
CAN FD frames, reference messages; and the clearing of Tally records as a write. -/

namespace Sys2Proof.Machine

/-- The key of a buffer among the buffers of a lane, and of its Tablet session among the sessions. -/
def canKey (p b : Nat) : Nat := 64 * p + b
def canSess (p b : Nat) : Nat := 2048 + 64 * p + b

/-! ### Operation of a port (R542, R543) -/

/-- Normal operation: the module sends. -/
def State.canNormal (s : State) (p : Nat) : Bool := (s.canPortCfg p).en && s.mstate.evaluates

/-- Restricted operation: the port receives and acknowledges. -/
def State.canRestricted (s : State) (p : Nat) : Bool :=
  (s.canPortCfg p).en && (s.mstate == .sync || s.mstate == .standby || s.mstate == .safe)

/-- The owner that the file names (`CB_CFG.OWNER`). -/
def ownerOf (c : CanPortCfg) : Lane := match c.owner.toNat with | 1 => .B | 2 => .C | _ => .A

/-- The configured owners take their ports (R543). -/
def State.canStart (s : State) : State :=
  (List.range 4).foldl (fun s p =>
    if (s.canPortCfg p).en then s.setCanPt p fun q => { q with owner := some (ownerOf (s.canPortCfg p)) } else s) s

/-- The Tablet sessions of a port open when it enters normal operation, and close when it leaves it; one that stands, as a state copy has
left it, goes on (R372). -/
def State.openCan (s : State) (p : Nat) (on : Bool) : State :=
  s.file.canBufs.foldl (fun s c =>
    if c.tablet && c.dir == 1 && c.port == p then
      s.updAll fun _ L => L.setSession (canSess c.port c.buf) fun S =>
        if on ∧ S.st.receives then S else S.reopen (if on then .opening else .closed)
    else s) s

/-- Ownership moves to the lowest-lettered ACTIVE lane at a freeze, recorded OWNER_MOVED (R543); a port that is not in
normal operation forgets its reference messages (R554). -/
def State.canFreeze (s : State) : State :=
  (List.range 4).foldl (fun s p =>
    let q := s.canPt p
    let out : Bool := match q.owner with | some l => !s.isActive l | none => true
    let s := if s.canNormal p then
        (if q.entered then s
         else (s.setCanPt p fun q => { q with entered := true, trefAt := none, trefDue := s.now, trefOver := true }).openCan p true)
      else if q.entered then
        (s.setCanPt p fun q => { q with entered := false, trefQ := none, trefOver := false, trefAt := none }).openCan p false
      else s
    if (s.canPortCfg p).en && s.mstate.voting && out then
      match s.lead with
      | some l => (s.setCanPt p fun q => { q with owner := some l }).event (Base.cb p) 0x206 l.code
      | none => s
    else s) s

/-! ### Identifiers -/

/-- The frame's format is that of a buffer: classical, FD, FD with bit-rate switch; base or extended identifier. -/
def formatIs (c : CanBufCfg) (f : CanFrame) : Bool :=
  f.ide == c.ide && f.fd == (c.format != 0) && f.brs == (c.format == 2)

/-- The frame carries the identifier of a buffer, under a mask. -/
def identIs (c : CanBufCfg) (mask : BitVec 29) (f : CanFrame) : Bool := ((f.id ^^^ c.id) &&& mask) == 0

/-- A buffer put into a list by its number. -/
def insertBuf (c : CanBufCfg) : List CanBufCfg → List CanBufCfg
  | [] => [c]
  | x :: xs => if c.buf < x.buf then c :: x :: xs else x :: insertBuf c xs

/-- A port's buffers of a direction, ascending. -/
def State.canBufsOf (s : State) (p : Nat) (dir : BitVec 2) : List CanBufCfg :=
  (s.file.canBufs.filter fun c => c.port == p && c.dir == dir).foldl (fun xs c => insertBuf c xs) []

/-- The lowest-numbered RECEIVE buffer that takes a frame (R546). -/
def State.canTarget (s : State) (p : Nat) (f : CanFrame) : Option CanBufCfg :=
  (s.canBufsOf p 1).find? fun c => formatIs c f && identIs c c.mask f

/-- A TRANSMIT buffer with the identifier and format of a frame (R551). -/
def State.canClash (s : State) (p : Nat) (f : CanFrame) : Bool :=
  (s.canBufsOf p 2).any fun c => formatIs c f && identIs c (BitVec.allOnes 29) f

/-- `CB_COLL`; `kind` 0 DATA_BIT, 1 ID_CLASH. -/
def collWord (f : CanFrame) (kind : Nat) : Word :=
  BitVec.ofNat 32 (f.id.toNat + f.ide.toNat * 2 ^ 29 + kind * 2 ^ 30 + 2 ^ 31)

/-! ### Buffers in a lane (R546, R548) -/

/-- The two INP sources of a buffer hold its latest frame; bytes beyond its length read 0. -/
def canSources (p b : Nat) (bs : Bytes) : List (Nat × BitVec 512) :=
  [(0x2000 + 128 * p + 2 * b, BitVec.ofNat 512 (ofLe (slice bs 0 32))),
   (0x2000 + 128 * p + 2 * b + 1, BitVec.ofNat 512 (ofLe (slice bs 32 32)))]

/-- A received frame stored: beside a locked one it waits in the shadow. -/
def LaneSt.canStore (L : LaneSt) (c : CanBufCfg) (f : CanFrame) : LaneSt :=
  let L := L.setCanBuf (canKey c.port c.buf) fun B =>
    { B with data := f.data, fd := f.fd, brs := f.brs, got := true, storedAt := L.clock, seq := (B.seq + 1) % 16,
             shadow := B.lock.isSome }
  if c.tablet then L else L.putRx (canSources c.port c.buf f.data)

/-- The lock of a buffer is released: the frame in the shadow becomes its content. -/
def CanBuf.unlock (B : CanBuf) : CanBuf := { B with lock := none, locked := [], shadow := false }

/-- The field of `CB_ERRCNT` that counts an error (R556). -/
def canErrPlace : CanErr → Option Nat
  | .none => Option.none
  | .dataBit => some 0
  | .bit => some 0
  | .stuffForm => some 8
  | .crc => some 16
  | .ack => some 24

/-- An error counted. -/
def LaneSt.canCount (L : LaneSt) (p : Nat) (e : CanErr) : LaneSt :=
  match canErrPlace e with
  | some n => L.addFld (Reg.CB_ERRCNT p) n 8 1
  | none => L

/-- The transmit error counter of ISO 11898-1 after a frame that the port sent, and the receive error counter after one that it heard
in normal operation (PRESUMED, log 59). -/
def LaneSt.canTec (L : LaneSt) (p : Nat) (e : CanErr) : LaneSt :=
  if e = .none then L.setFld (Reg.CB_STAT p) 8 8 (L.fld (Reg.CB_STAT p) 8 8 - 1)
  else (L.addFld (Reg.CB_STAT p) 8 8 8).canCount p e

def LaneSt.canRec (L : LaneSt) (p : Nat) (normal : Bool) (e : CanErr) : LaneSt :=
  let L := L.canCount p e
  if !normal then L
  else if e = .none then L.setFld (Reg.CB_STAT p) 16 8 (L.fld (Reg.CB_STAT p) 16 8 - 1)
  else L.addFld (Reg.CB_STAT p) 16 8 1

/-! ### Frames on the bus -/

/-- The frame that a lane forms from its own transmit buffer (R544). -/
def LaneSt.canForm (L : LaneSt) (c : CanBufCfg) : CanFrame :=
  ⟨c.ide, c.id, false, c.format != 0, c.format == 2, (L.canBuf (canKey c.port c.buf)).data⟩

/-- The last frame that left a port. -/
def State.canLeft (s : State) (p : Nat) (bs : Bytes) : State :=
  { s with txLast := (s.txLast.filter fun t => t.ch != .cb (BitVec.ofNat 2 p)) ++ [⟨.cb (BitVec.ofNat 2 p), bs, s.txPair, none⟩] }

/-- A frame that the port has sent (R544, R549): it leaves the queue in every lane; an ACTIVE lane that does not own the
port compares it with its own. -/
def State.canSent (s : State) (p b : Nat) (f : CanFrame) (owner : Lane) : State :=
  let k := canKey p b
  let own (l : Lane) : Option CanFrame := (s.canBufCfg p b).map fun c => (s.lane.get l).canForm c
  let differ (l : Lane) : Bool := s.isActive l && l != owner && own l != some f
  let s := s.updAll fun _ L => L.setCanBuf k fun B => { B with queued := false, seq := (B.seq + 1) % 16 }
  let s := (s.upd owner fun L => L.canTec p .none).canLeft p f.data
  Lane.list.foldl (fun s l =>
    if differ l then
      ((s.upd l fun L => L.addFld (Reg.CB_EVENTS p) 16 8 1).report l (Blk.ofOff (Base.cb p)) 3 b).eventIn l (Base.cb p) 0x205 b
    else s) s

/-- The owner sends the queued frames of a cycle in ascending identifier order (R547; by number, DEDUCED, log 127), a reference
message ahead of the others of its cycle (R554). -/
def State.canFirst (s : State) (p : Nat) (o : Lane) (c : CanBufCfg) : Bool :=
  let B (x : CanBufCfg) : CanBuf := (s.lane.get o).canBuf (canKey p x.buf)
  (match (s.canPt p).trefQ with | some n => decide ((B c).queuedIn < n) | none => true)
    && (s.canBufsOf p 2).all fun x => !(B x).queued || (B x).queuedIn != (B c).queuedIn || decide (c.id.toNat ≤ x.id.toNat)

/-- A Tablet frame has passed the port's paired transmitter: both lanes of the pair have supplied these bytes (R38, R544). -/
def State.canPassed (s : State) (p : Nat) (c : CanBufCfg) (f : CanFrame) : Bool :=
  !c.tablet || s.txLast.any fun t => t.ch == .cb (BitVec.ofNat 2 p) && t.bytes == f.data

/-- The owner may send a buffer's frame: it waits, and its turn has come. -/
def State.canMaySend (s : State) (p : Nat) (o : Lane) (b : Nat) (f : CanFrame) : Bool :=
  match s.canBufCfg p b with
  | some c => ((s.lane.get o).canBuf (canKey p b)).queued && s.canFirst p o c && s.canPassed p c f
  | none => false

/-- A bit error in the data field of a frame that the port sends (R550). -/
def State.canBitError (s : State) (p : Nat) (f : CanFrame) (o : Lane) : State :=
  let s := s.upd o fun L => ((L.setReg (Reg.CB_COLL p) (collWord f 0)).addFld (Reg.CB_EVENTS p) 8 8 1).canTec p .dataBit
  (s.report o (Blk.ofOff (Base.cb p)) 1 f.id.toNat).eventIn o (Base.cb p) 0x204 f.id.toNat

/-- The reference message's bytes (R554). -/
def State.trefBytes (s : State) (p : Nat) : Bytes :=
  let q := s.canPt p
  toBe 6 (q.trefAt.getD 0) ++ [byteOf q.trefCnt, byteOf (q.trefAt.isSome.toNat + (s.stcBit 0).toNat * 2)]

/-- The reference message has been sent: the owner's clock at its start of frame is what the next one tells (R554). -/
def State.trefSent (s : State) (p : Nat) (o : Lane) (ago : Nat) : State :=
  let bs := s.trefBytes p
  let at_ := ((s.lane.get o).micros + 2 ^ 48 - ago) % 2 ^ 48
  (((s.setCanPt p fun q => { q with trefQ := none, trefAt := some at_, trefCnt := (q.trefCnt + 1) % 256 }).upd o fun L =>
    L.canTec p .none)).canLeft p bs

/-- A frame that the owner of a port in normal operation sends, from a buffer or as the reference message. An owner that is not ACTIVE
drives nothing until ownership has moved (R543). A frame that fails stays queued (R547). -/
def State.canOwn (s : State) (p : Nat) (f : CanFrame) (own : CanFrom) (err : CanErr) : State :=
  match (s.canPt p).owner with
  | none => s
  | some o =>
    let may : Bool := s.isActive o && s.canNormal p && !(s.canPt p).busOff && (match own with
      | .other => false
      | .buffer b => s.canMaySend p o b.toNat f
      | .reference _ => (s.canPt p).trefQ.isSome)
    if !may then s
    else if err = .dataBit then s.canBitError p f o
    else if err ≠ .none then s.upd o fun L => L.canTec p err
    else match own with
      | .other => s
      | .buffer b => s.canSent p b.toNat f o
      | .reference ago => s.trefSent p o ago.toNat

/-- CAN_FRAME: a frame on the bus. Remote frames are discarded (R541). A frame of the port's own is sent, or meets a
bit error in its data field (R550); another's is an identifier clash (R551), or is stored (R546). One that fails otherwise is counted
(R556). A port in bus-off takes no part (PRESUMED, log 129). -/
def execCanFrame (cb : BitVec 2) (f : CanFrame) (own : CanFrom) (err : CanErr) (lanes : LaneSet) (s : State) :
    Host.Outcome State Fault Refusal :=
  let p := cb.toNat
  if f.rtr || !(s.canNormal p || s.canRestricted p) || (s.canPt p).busOff then .next s
  else match own with
    | .buffer b => .next (s.canOwn p f (.buffer b) err)
    | .reference ago => .next (s.canOwn p f (.reference ago) err)
    | .other =>
      let heard := s.checking lanes
      let normal := s.canNormal p
      let s := s.updIn heard fun _ L => L.canRec p normal err
      if err ≠ .none then .next s
      else if normal && s.canClash p f then
        let s := s.updIn heard fun _ L => (L.setReg (Reg.CB_COLL p) (collWord f 1)).addFld (Reg.CB_EVENTS p) 0 8 1
        .next (Lane.list.foldl (fun s l =>
          if heard.get l then (s.report l (Blk.ofOff (Base.cb p)) 0 f.id.toNat).eventIn l (Base.cb p) 0x203 f.id.toNat else s) s)
      else match s.canTarget p f with
        | some c => .next (s.updIn heard fun _ L => L.canStore c f)
        | none => .next s

/-- CB_BUS_OFF (R553). -/
def execCbBusOff (cb : BitVec 2) (s : State) : Host.Outcome State Fault Refusal :=
  let p := cb.toNat
  if !s.canNormal p || (s.canPt p).busOff then .next s
  else
    let s := (s.setCanPt p fun q => { q with busOff := true }).count (Reg.CB_EVENTS p) 24 8 1
    .next (((s.reportAll (Base.cb p) 2 p).irq (Base.cb p) 1).event (Base.cb p) 0x201 p)

/-- CB_RECOVERED (R553): only a port that recovers by itself. -/
def execCbRecovered (cb : BitVec 2) (s : State) : Host.Outcome State Fault Refusal :=
  let p := cb.toNat
  if (s.canPt p).busOff && (s.canPortCfg p).auto then
    let s := (s.setCanPt p fun q => { q with busOff := false }).updAll fun _ L => L.setFld (Reg.CB_STAT p) 8 16 0
    .next (s.event (Base.cb p) 0x202 p)
  else .next s

/-! ### Tablet telegrams on the bus (R382) -/

def canCtx (s : State) (c : CanBufCfg) : TbCtx :=
  { cat := c.cat, own := s.file.stationId, peers := [c.peer], types := [Tg.canData], report := false, testOk := false,
    tExp := c.tExp * 1000, window := c.window, saltOf := fun _ => some c.saltRx.toNat, keyOf := fun _ => some 0 }

/-- CAN_DATA: each lane checks the telegram in the session of its receive buffer; the payload of an accepted one stands in
bytes 0 to 23 of the buffer's source. -/
def execCanData (cb : BitVec 2) (buf : BitVec 6) (bytes : Bytes) (lanes : LaneSet) (s : State) :
    Host.Outcome State Fault Refusal :=
  let p := cb.toNat
  let b := buf.toNat
  match s.canBufCfg p b with
  | none => .next s
  | some c =>
    if !(c.tablet && c.dir == 1 && s.canNormal p && !(s.canPt p).busOff && bytes.length == 64) then .next s
    else .next (s.updIn (s.checking lanes) fun _ L =>
      let r := (L.session (canSess p b)).receive (canCtx s c) L.clock (bytes.take (32 + tgLen bytes + 8))
      let L := L.setSession (canSess p b) fun _ => r.1
      if r.2 then L.putRx (canSources p b (slice (tgPayload bytes) 0 24)) else L)

/-! ### The freeze and the release step (R546, R547, R554) -/

/-- VALID of a receive buffer at a freeze. -/
def LaneSt.canFresh (L : LaneSt) (c : CanBufCfg) : Bool :=
  if c.tablet then
    let S := L.session (canSess c.port c.buf)
    S.st == .opened && S.dataEcho != 0 && decide (sub48 L.micros S.dataEcho ≤ c.tExp * 1000)
  else
    let B := L.canBuf (canKey c.port c.buf)
    B.got && (c.timeout == 0 || decide (L.clock ≤ B.storedAt + c.timeout * 1000000))

/-- A lane's receive buffers at a freeze: their VALID, and the buffers that lost it. -/
def LaneSt.canLatch (L : LaneSt) (bufs : List CanBufCfg) : LaneSt × List (Nat × Nat) :=
  bufs.foldl (fun q c =>
    if c.dir == 1 then
      let k := canKey c.port c.buf
      let v := q.1.canFresh c
      let was := (q.1.canBuf k).valid
      (q.1.setCanBuf k fun B => { B with valid := v }, if was && !v then q.2 ++ [(c.port, c.buf)] else q.2)
    else q) (L, [])

/-- RX_TIMEOUT of the buffers that lost VALID in a lane. -/
def State.canTimeouts (s : State) (l : Lane) (lost : List (Nat × Nat)) : State :=
  lost.foldl (fun s e => s.report l (Blk.ofOff (Base.cb e.1)) 4 e.2) s

/-- The bytes of a transmit buffer in a lane's output image. -/
def LaneSt.canOut (L : LaneSt) (c : CanBufCfg) : Bytes :=
  (toLe 32 (L.outSrc (0x2000 + 128 * c.port + 2 * c.buf)).toNat
    ++ toLe 32 (L.outSrc (0x2000 + 128 * c.port + 2 * c.buf + 1)).toNat).take c.len

/-- A CAN_DATA telegram of a transmit buffer, in the session of its pair, as a lane forms it. -/
def State.canTelegram (s : State) (L : LaneSt) (c : CanBufCfg) : Option Bytes :=
  match s.canBufCfg c.port c.pair, s.pairTime with
  | some r, some time =>
    let S := L.session (canSess c.port c.pair)
    if S.st.receives then
      some (tgBytes r.cat Tg.canData (s.tgFlagsNow + s.degFlag) 0 s.file.stationId r.peer S.seqTx time S.toEcho s.txPair
        r.saltTx.toNat 0 (slice (L.canOut c) 0 24))
    else none
  | _, _ => none

/-- A frame in a transmit buffer of a lane, queued in a cycle. -/
def LaneSt.canPut (L : LaneSt) (c : CanBufCfg) (cycle : Nat) (bs : Bytes) : LaneSt :=
  L.setCanBuf (canKey c.port c.buf) fun B =>
    { B with data := bs, fd := c.format != 0, brs := c.format == 2, queued := true, queuedIn := cycle }

/-- The content of a transmit buffer at t_pub has been noted. -/
def LaneSt.canNote (L : LaneSt) (c : CanBufCfg) : LaneSt :=
  L.setCanBuf (canKey c.port c.buf) fun B => { B with content := L.canOut c }

/-- The content differs from that of the last t_pub; before the first that counts as zeros (DEDUCED, log 128). -/
def LaneSt.canChanged (L : LaneSt) (c : CanBufCfg) : Bool :=
  let was := (L.canBuf (canKey c.port c.buf)).content
  L.canOut c != (if was.isEmpty then List.replicate c.len 0 else was)

/-- A Tablet frame at the port's paired transmitter; the one that still waits there is replaced. -/
def State.canOffer (s : State) (c : CanBufCfg) (bs : Bytes) : State :=
  let old := ((s.lane.get s.leadLane).canBuf (canKey c.port c.buf)).data
  let ch := TxChan.cb (BitVec.ofNat 2 c.port)
  { s with txq := s.txq.filter fun t => !(t.ch == ch && t.bytes == old) }.putFrame ch bs

/-- The telegram of a Tablet buffer queued: with the session's next number, in every lane its own; the pair's leaves, unless its second
copy is withheld (R39, R347). -/
def State.canQueueTablet (s : State) (c : CanBufCfg) : State :=
  let s' := s.updAll fun _ L => L.setSession (canSess c.port c.pair) fun S => { S with seqTx := (S.seqTx + 1) % 2 ^ 32 }
  match s'.canTelegram (s'.lane.get s'.leadLane) c with
  | some bs =>
    let s'' := s'.canOffer c bs
    s''.updAll fun _ L => match s'.canTelegram L c with
      | some own => L.canPut c s.cyc.num own
      | none => L
  | none =>
    if ((s'.lane.get s'.leadLane).session (canSess c.port c.pair)).st.receives then State.withheld 1 s' else s'

/-- One transmit buffer at t_pub: a frame is queued in every period-th cycle and when the content has changed (R547). -/
def State.canQueue (s : State) (c : CanBufCfg) : State :=
  let due := (c.period != 0 && s.cyc.num % c.period == 0) || (s.lane.get s.leadLane).canChanged c
  let s := if !due then s
    else if c.tablet then s.canQueueTablet c
    else s.updAll fun _ L => L.canPut c s.cyc.num (L.canOut c)
  s.updAll fun _ L => L.canNote c

/-- The release step of the ports in normal operation: reference messages due, then the frames of the cycle. -/
def State.canRelease (s : State) : State :=
  (List.range 4).foldl (fun s p =>
    if !s.canNormal p || (s.canPt p).busOff then s
    else
      let s := if (s.canPortCfg p).master && (s.canPt p).trefOver then
          s.setCanPt p fun q => { q with trefQ := some s.cyc.num, trefOver := false }
        else s
      (s.canBufsOf p 2).foldl (fun s c => s.canQueue c) s) s

/-- TIME_REFERENCE: the reference period expires; the next release step queues the message (R554). The first period of a spell in
normal operation expires with its beginning. -/
def execTimeReference (cb : BitVec 2) (s : State) : Host.Outcome State Fault Refusal :=
  let p := cb.toNat
  let period := (s.canPortCfg p).trefMs.toNat * 1000000
  if s.canNormal p && (s.canPt p).entered && (s.canPortCfg p).master && decide ((s.canPt p).trefDue + period ≤ s.now) then
    .next (s.setCanPt p fun q => { q with trefOver := true, trefDue := q.trefDue + period })
  else .next s

/-! ### Locked reading (R548) -/

/-- The buffer that a port has selected on a CAN port. -/
def LaneSt.canSel (L : LaneSt) (p : Port) (cb : Nat) : Nat := (L.sel p (Reg.CB_BSEL cb)).toNat % 64

/-- A read of `CB_BHDR` locks a RECEIVE buffer of mode SHADOW for its reader. -/
def State.canLock (s : State) (ls : LaneSet) (cb : Nat) (p : Port) : State :=
  s.updIn ls fun _ L =>
    let b := L.canSel p cb
    match s.canBufCfg cb b with
    | some c =>
      if c.dir == 1 && !c.nd then L.setCanBuf (canKey cb b) fun B =>
        if B.lock.isSome then B else { B with lock := some (p, L.clock), locked := B.data, lockFd := B.fd, lockBrs := B.brs, lockSeq := B.seq }
      else L
    | none => L

/-- A read of `CB_BDATA15` by the lock's holder releases it. -/
def State.canUnlock (s : State) (ls : LaneSet) (cb : Nat) (p : Port) : State :=
  s.updIn ls fun _ L => L.setCanBuf (canKey cb (L.canSel p cb)) fun B =>
    match B.lock with
    | some (q, _) => if q = p then B.unlock else B
    | none => B

/-- CB_LOCK. -/
def execCbLock (ap : RAper) (cb : BitVec 2) (p : Port) (s : State) : Host.Outcome State Fault Refusal :=
  .next (s.canLock (rLanes ap) cb.toNat p)

/-- CB_UNLOCK. -/
def execCbUnlock (ap : RAper) (cb : BitVec 2) (p : Port) (s : State) : Host.Outcome State Fault Refusal :=
  .next (s.canUnlock (rLanes ap) cb.toNat p)

/-- CB_LOCK_EXPIRY: 1 ms after the lock. -/
def execCbLockExpiry (l : Lane) (cb : BitVec 2) (buf : BitVec 6) (s : State) : Host.Outcome State Fault Refusal :=
  .next (s.upd l fun L => L.setCanBuf (canKey cb.toNat buf.toNat) fun B =>
    match B.lock with
    | some (_, t) => if t + 1000000 ≤ L.clock then B.unlock else B
    | none => B)

/-! ### TALLY_CLEAR (R565) -/

def State.writeTally (s : State) (p : Port) (d : Word) (bad : List (Lane × BitVec 13)) : State :=
  s.agreedWrite p Reg.TALLY_CLEAR d (fun _ => 0) fun _ s => s.tallyClearGo d bad

/-- TALLY_CLEAR: the named groups are cleared in every lane. -/
def execTallyClear (p : Port) (d : Word) (bad : List (Lane × BitVec 13)) (s : State) : Host.Outcome State Fault Refusal :=
  .next (s.writeTally p d bad)

/-! ### Registers (R555, R556) -/

def canCfgWord (c : CanPortCfg) : Nat :=
  c.en.toNat + c.nom.toNat * 2 + c.data.toNat * 8 + c.term.toNat * 32 + c.owner.toNat * 64 + c.master.toNat * 256
    + c.auto.toNat * 512 + c.trefMs.toNat * 1024

def canBufWord (c : CanBufCfg) : Nat :=
  c.dir.toNat + c.format.toNat * 4 + c.ide.toNat * 16 + c.nd.toNat * 32 + c.tablet.toNat * 64 + c.len % 128 * 128
    + c.period % 1024 * 16384

/-- `CB_STAT` but for the counters. -/
def State.canStat (s : State) (L : LaneSt) (p : Nat) : Nat :=
  let w := (L.reg (Reg.CB_STAT p)).toNat / 256 % 65536
  let up : Bool := s.canNormal p || s.canRestricted p
  let fc := if !up then 3 else if (s.canPt p).busOff then 2 else if w % 256 > 127 ∨ w / 256 > 127 then 1 else 0
  let owner := if !up then 3 else match (s.canPt p).owner with | some l => l.code | none => 3
  fc + (s.canRestricted p).toNat * 4 + owner * 8 + w * 256

/-- The window header and data of the selected buffer. -/
def LaneSt.canShown (L : LaneSt) (k : Nat) : Bytes :=
  let B := L.canBuf k
  if B.lock.isSome then B.locked else B.data

def LaneSt.canHdr (L : LaneSt) (k : Nat) : Nat :=
  let B := L.canBuf k
  let fd := if B.lock.isSome then B.lockFd else B.fd
  let brs := if B.lock.isSome then B.lockBrs else B.brs
  let seq := if B.lock.isSome then B.lockSeq else B.seq
  (L.canShown k).length % 128 + fd.toNat * 128 + brs.toNat * 256 + B.valid.toNat * 512 + B.lock.isSome.toNat * 1024
    + B.shadow.toNat * 2048 + seq % 16 * 2 ^ 28

/-- The registers of a port page that are computed. -/
def State.viewCan (s : State) (v : Seen) (L : LaneSt) (p : Port) (off : Nat) : Option Nat :=
  if off < Base.cb 0 ∨ Base.cb 4 ≤ off then none
  else
    let n := (off - Base.cb 0) / 0x1000
    let b := L.canSel p n
    let cfg : CanPortCfg := match n with
      | 0 => v.file.canPorts.1.a | 1 => v.file.canPorts.1.b | 2 => v.file.canPorts.1.c | _ => v.file.canPorts.2
    let c := v.file.canBufs.find? fun c => c.port == n && c.buf == b
    if off = Reg.CB_CFG n then some (canCfgWord cfg)
    else if off = Reg.CB_STAT n then some (s.canStat L n)
    else if off = Reg.CB_TREF n then some (cfg.trefId.toNat + cfg.trefX.toNat * 2 ^ 29)
    else if off = Reg.CB_BCFG n then some (match c with | some c => canBufWord c | none => 0)
    else if off = Reg.CB_BID n then some (match c with | some c => c.id.toNat | none => 0)
    else if off = Reg.CB_BMASK n then some (match c with | some c => c.mask.toNat | none => 0)
    else if off = Reg.CB_BTMO n then some (match c with | some c => c.timeout % 65536 + c.pair % 64 * 65536 | none => 0)
    else if off = Reg.CB_BHDR n then some (L.canHdr (canKey n b))
    else if Reg.CB_BDATA n 0 ≤ off ∧ off < Reg.CB_BDATA n 16 then
      some (ofLe (slice (L.canShown (canKey n b)) (off - Reg.CB_BDATA n 0) 4))
    else none

end Sys2Proof.Machine
end

