-- ==== Sys2Proof/Machine/Integrity.lean ====
section
/-! DEFINITION. Machine/Integrity.lean: check-value units (R512 to R528, R538 to R540), memory protection and scrubbing
(R529 to R534). -/

namespace Sys2Proof.Machine

/-! ### The CRC of a unit (R513) -/

/-- A 64-bit parameter from its two words. -/
def LaneSt.pairReg (L : LaneSt) (lo hi : Nat) : Nat := (L.reg lo).toNat + (L.reg hi).toNat * 2 ^ 32

def LaneSt.cvWidth (L : LaneSt) (u : Nat) : Nat := L.fld (Reg.CV_CFG u) 0 7

def LaneSt.cvPoly (L : LaneSt) (u : Nat) : Nat := L.pairReg (Reg.CV_POLY_LO u) (Reg.CV_POLY_HI u) % 2 ^ L.cvWidth u

/-- The running value after some bytes. -/
def LaneSt.cvRun (L : LaneSt) (u r : Nat) (bs : Bytes) : Nat :=
  crcRun (L.cvWidth u) (L.cvPoly u) (L.bit (Reg.CV_CFG u) 7) (r % 2 ^ L.cvWidth u) bs

/-- The model's output from a running value. -/
def LaneSt.cvOut (L : LaneSt) (u r : Nat) : Nat :=
  crcOut (L.cvWidth u) (L.bit (Reg.CV_CFG u) 8)
    (L.pairReg (Reg.CV_XOR_LO u) (Reg.CV_XOR_HI u) % 2 ^ L.cvWidth u) (r % 2 ^ L.cvWidth u)

/-- A foreground write takes the datapath of a bound unit (R522). -/
def CvUnit.touch (c : CvUnit) (u : Nat) : CvUnit :=
  if u < 24 then { c with bgHeld := false, saved := c.saved || c.bgHeld } else c

/-! ### Computations (R515, R518, R519) -/

/-- START: the initial value, the prefix folded as one word; the flags clear. -/
def LaneSt.cvBegin (L : LaneSt) (u : Nat) : LaneSt :=
  let r0 := L.pairReg (Reg.CV_INIT_LO u) (Reg.CV_INIT_HI u) % 2 ^ L.cvWidth u
  let r := if L.bit (Reg.CV_CFG u) 9 then L.cvRun u r0 (toLe 4 (L.reg (Reg.CV_PREFIX u)).toNat) else r0
  L.setCvUnit u fun c =>
    { c.touch u with fg := { run := BitVec.ofNat 64 r, st := 1, bytes := 0 }, isMatch := false, mism := false }

/-- Bytes fed. -/
def LaneSt.cvFeed (L : LaneSt) (u : Nat) (bs : Bytes) : LaneSt :=
  let r := L.cvRun u (L.cvUnit u).fg.run.toNat bs
  L.setCvUnit u fun c =>
    { c.touch u with fg := { c.fg with run := BitVec.ofNat 64 r, bytes := satAdd 16 c.fg.bytes bs.length } }

/-- FINAL: the result, its compare, its interrupts and counts; a mismatch is reported as MISMATCH by the unit. -/
def State.cvEnd (s : State) (l : Lane) (u : Nat) : State :=
  let L := s.lane.get l
  let x := L.cvOut u (L.cvUnit u).fg.run.toNat
  let on := L.bit (Reg.CV_CFG u) 10
  let same := decide (x = L.pairReg (Reg.CV_EXP_LO u) (Reg.CV_EXP_HI u) % 2 ^ L.cvWidth u)
  let s := s.upd l fun L =>
    let L := L.setCvUnit u fun c =>
      { c.touch u with fg := { c.fg with st := 2 }, result := BitVec.ofNat 64 x, isMatch := on && same, mism := on && !same }
    let L := (L.setBits (Base.cv u + 0x18) 1).addFld (Reg.CV_CNT u) 0 16 1
    if on && !same then (L.setBits (Base.cv u + 0x18) 2).addFld (Reg.CV_CNT u) 16 8 1 else L
  if on && !same then s.report l (Blk.ofOff (Base.cv u)) 0 0 else s

/-- ABORT: the computation is discarded. -/
def LaneSt.cvDrop (L : LaneSt) (u : Nat) : LaneSt := L.setCvUnit u fun c => { c.touch u with fg := {} }

/-- What a write to a unit meets (R520): units 0 to 23 are read-only to software; data and FINAL need a computation. -/
def LaneSt.cvBar (L : LaneSt) (u : Nat) (running : Bool) : Nat :=
  if u < 24 then Reason.readOnly
  else if running && (L.cvUnit u).fg.st != 1 then 0x40 else 0

/-- The bytes that a data port feeds: `n` of the word, least significant first (R513). -/
def cvBytes (n : Nat) (d : Word) : Bytes := toLe n d.toNat

/-- A data word written to a unit (R515). -/
def State.cvData (s : State) (ap : WAper) (u : Nat) (p : Port) (off n : Nat) (d : Word) (only : LaneSet := .all true) :
    State × Nat :=
  s.laneWrite p ap off (fun L => L.cvBar u true) (fun l s => s.upd l fun L => L.cvFeed u (cvBytes n d)) only

def State.cvStart (s : State) (ap : WAper) (u : Nat) (p : Port) (only : LaneSet := .all true) : State × Nat :=
  s.laneWrite p ap (Reg.CV_CMD u) (fun L => L.cvBar u false) (fun l s => s.upd l fun L => L.cvBegin u) only

def State.cvFinal (s : State) (ap : WAper) (u : Nat) (p : Port) (only : LaneSet := .all true) : State × Nat :=
  s.laneWrite p ap (Reg.CV_CMD u) (fun L => L.cvBar u true) (fun l s => s.cvEnd l u) only

def State.cvAbort (s : State) (ap : WAper) (u : Nat) (p : Port) (only : LaneSet := .all true) : State × Nat :=
  s.laneWrite p ap (Reg.CV_CMD u) (fun L => L.cvBar u false) (fun l s => s.upd l fun L => L.cvDrop u) only

/-- A write of `CV_CMD` (R539): ABORT acts alone when more than one bit is set. -/
def State.cvCommand (s : State) (ap : WAper) (u : Nat) (p : Port) (d : Word) (only : LaneSet := .all true) :
    State × Nat :=
  match d.toNat % 8 with
  | 0 => s.laneWrite p ap (Reg.CV_CMD u) (fun L => L.cvBar u false) (fun _ s => s) only
  | 1 => s.cvStart ap u p only
  | 2 => s.cvFinal ap u p only
  | _ => s.cvAbort ap u p only

/-- `CV_RUN_HI` loads the running value from both halves (R519). -/
def State.cvLoad (s : State) (ap : WAper) (u : Nat) (p : Port) (d : Word) (only : LaneSet := .all true) : State × Nat :=
  s.laneWrite p ap (Reg.CV_RUN_HI u) (fun L => L.cvBar u false) (fun l s => s.upd l fun L =>
    L.setCvUnit u fun c => { c with fg := { c.fg with run := d ++ c.stageLo, st := 1 } }) only

/-- `CV_RUN_LO` is staged (R519). -/
def State.cvStage (s : State) (ap : WAper) (u : Nat) (p : Port) (d : Word) (only : LaneSet := .all true) : State × Nat :=
  s.laneWrite p ap (Reg.CV_RUN_LO u) (fun L => L.cvBar u false) (fun l s => s.upd l fun L =>
    L.setCvUnit u fun c => { c with stageLo := d }) only

/-- CV_START (R515). -/
def execCvStart (ap : WAper) (u : BitVec 5) (p : Port) (s : State) : Host.Outcome State Fault Refusal :=
  .next (s.cvStart ap u.toNat p).1

/-- CV_FINAL (R515, R518). -/
def execCvFinal (ap : WAper) (u : BitVec 5) (p : Port) (s : State) : Host.Outcome State Fault Refusal :=
  .next (s.cvFinal ap u.toNat p).1

/-- CV_ABORT (R515). -/
def execCvAbort (ap : WAper) (u : BitVec 5) (p : Port) (s : State) : Host.Outcome State Fault Refusal :=
  .next (s.cvAbort ap u.toNat p).1

/-- CV_DATA8 (R515). -/
def execCvData8 (ap : WAper) (u : BitVec 5) (p : Port) (d : Word) (s : State) : Host.Outcome State Fault Refusal :=
  .next (s.cvData ap u.toNat p (Reg.CV_DATA8 u.toNat) 1 d).1

/-- CV_DATA16 (R515). -/
def execCvData16 (ap : WAper) (u : BitVec 5) (p : Port) (d : Word) (s : State) : Host.Outcome State Fault Refusal :=
  .next (s.cvData ap u.toNat p (Reg.CV_DATA16 u.toNat) 2 d).1

/-- CV_DATA32 (R515). -/
def execCvData32 (ap : WAper) (u : BitVec 5) (p : Port) (d : Word) (s : State) : Host.Outcome State Fault Refusal :=
  .next (s.cvData ap u.toNat p (Reg.CV_DATA32 u.toNat) 4 d).1

/-- CV_RUN_LOAD (R519). -/
def execCvRunLoad (ap : WAper) (u : BitVec 5) (p : Port) (d : Word) (s : State) : Host.Outcome State Fault Refusal :=
  .next (s.cvLoad ap u.toNat p d).1

/-! ### Background users (R522, R524 to R528) -/

/-- BACKGROUND_RESTORE: eight clocks without a foreground write (R522). -/
def execBackgroundRestore (l : Lane) (u : BitVec 5) (s : State) : Host.Outcome State Fault Refusal :=
  if u.toNat < 24 then
    .next (s.upd l fun L => L.setCvUnit u.toNat fun c =>
      if c.saved then { c with bgHeld := true, saved := false } else c)
  else .next s

/-- A background pass has run for more than `bound` ns, from its beginning or from the start-up (R528, R534). -/
def State.passLate (s : State) (l : Lane) (u bound : Nat) : Bool :=
  decide (max ((s.lane.get l).cvUnit u).passAt s.startAt + bound ≤ s.now)

/-- A vital background check value mismatches (R518): the interrupt and the detector; `CV_CNT.MISMATCHES` shows the foreground's alone
(R523; DEDUCED, log 158). -/
def State.mismatchV (s : State) (l : Lane) (u data : Nat) : State :=
  (s.upd l fun L => L.setBits (Base.cv u + 0x18) 2).report l (Blk.ofOff (Base.cv u)) 1 data

/-- The check value that the ACTIVE file records for a cell. -/
def LaneSt.cellCrc (L : LaneSt) (cell : Nat) : Option Word :=
  (L.flash.active.progs.find? fun p => p.cell == cell).map fun p => p.crc

/-- BANK_REVERIFY: a complete pass, the values formed over the cells of logic block `u` against those of the file (R524). A pass that
a swap meets ends without a verdict, and so without this command (R525). -/
def execBankReverify (l : Lane) (u : BitVec 4) (read : List (BitVec 4 × Word)) (s : State) :
    Host.Outcome State Fault Refusal :=
  let b := u.toNat
  let L := s.lane.get l
  let bad := read.find? fun e => match L.cellCrc (16 * b + e.1.toNat) with
    | some c => c != e.2
    | none => false
  if s.mstate = .off then .next s
  else
    let s := s.upd l fun L => L.countPass b s.now
    match bad with
    | some e => .next (s.mismatchV l b e.1.toNat)
    | none => .next s

/-- FILE_REVERIFY: the CRC-32C formed over the ACTIVE file against the value of LOAD; a mismatch stands until a later pass
matches (R526). -/
def execFileReverify (l : Lane) (crc : Word) (s : State) : Host.Outcome State Fault Refusal :=
  let d : Det := ⟨Blk.ofOff (Base.cv 16), 1⟩
  let good : Bool := crc == (s.lane.get l).flash.active.crc
  if s.mstate = .off then .next s
  else
    let s := s.upd l fun L => (L.countPass 16 s.now).setStanding d (!good)
    .next (if good then s else s.mismatchV l 16 0)

/-- The bound of a background pass: 10 s over a bank (R524), 600 s over the file (R526). None is stated for the record checks of unit 17,
which are never late. -/
def passBound (u : Nat) : Nat := if u < 16 then 10000000000 else 600000000000

/-- REVERIFY_LATE: a pass has not completed within its bound (R528). -/
def execReverifyLate (l : Lane) (u : BitVec 5) (s : State) : Host.Outcome State Fault Refusal :=
  if s.mstate ≠ .off ∧ u.toNat < 17 ∧ s.passLate l u.toNat (passBound u.toNat) then
    .next (s.report l (Blk.ofOff (Base.cv u.toNat)) 2 0)
  else .next s

/-! ### Memory codes and scrubbing (R529 to R534) -/

/-- The outer check of a line: CRC-16 over its byte address, most significant byte first, and its 32 bytes (R530). The controller forms
it on every line it writes, so the check stored with a line is this function of what was written there. -/
def outerCheck (addr : Nat) (bytes : Bytes) : Nat := crc16 (toBe 4 (addr / 32 * 32) ++ bytes)

/-- `MEM_ADDR` of a line. -/
def memAddr (memory : BitVec 4) (addr : BitVec 28) : Word := memory ++ addr

/-- One code event of a region, counted and reported by its memory unit (R531, R533); a line as read, with the check stored beside it,
is an event when the check does not fit (R530). -/
def State.memEvent (s : State) (l : Lane) (u : Nat) (e : MemEvent) : State :=
  let k := Blk.ofOff (Base.cv u)
  match e with
  | .corrected m a w scrub =>
    let key := (m.toNat, a.toNat / 32 * 32, w.toNat)
    let stuck := scrub && ((s.lane.get l).cvUnit u).fixed.contains key
    let s := s.upd l fun L =>
      ((L.addFld (Reg.MEM_CNT u) 0 16 1).setReg (Reg.MEM_ADDR u) (memAddr m a)).setCvUnit u fun c =>
        { c with fixing := if !scrub || c.fixing.contains key then c.fixing else c.fixing ++ [key] }
    let s := s.report l k 3 (memAddr m a).toNat
    if stuck then s.report l k 7 (memAddr m a).toNat else s
  | .double m a =>
    (s.upd l fun L => (L.addFld (Reg.MEM_CNT u) 16 8 1).setReg (Reg.MEM_ADDR u) (memAddr m a)).report l k 4
      (memAddr m a).toNat
  | .line m a bytes check =>
    if outerCheck a.toNat bytes = check.toNat then s
    else
      (s.upd l fun L => (L.addFld (Reg.MEM_CNT u) 24 8 1).setReg (Reg.MEM_ADDR u) (memAddr m a)).report l k 5
        (memAddr m a).toNat

/-- SCRUB_PASS: the events that the scrubber or an access met, and the duration when a pass completed (R531 to R534). -/
def execScrubPass (l : Lane) (region : BitVec 3) (events : List MemEvent) (ms : Option Half) (s : State) :
    Host.Outcome State Fault Refusal :=
  if s.mstate = .off ∨ 6 ≤ region.toNat then .next s
  else
    let u := 18 + region.toNat
    let s := events.foldl (fun s e => s.memEvent l u e) s
    match ms with
    | some t => .next (s.upd l fun L =>
        (((L.setFld (Reg.MEM_SCRUB u) 0 16 t.toNat).addFld (Reg.MEM_SCRUB u) 16 16 1).countPass u s.now).setCvUnit u fun c =>
          { c with fixed := c.fixing, fixing := [] })
    | none => .next s

/-- SCRUB_LATE: a pass has not completed within 2 s (R534). -/
def execScrubLate (l : Lane) (region : BitVec 3) (s : State) : Host.Outcome State Fault Refusal :=
  let u := 18 + region.toNat
  if s.mstate = .off ∨ 6 ≤ region.toNat ∨ !s.passLate l u 2000000000 then .next s
  else .next (s.report l (Blk.ofOff (Base.cv u)) 6 0)

/-- A byte memory with one line of 32 bytes zeroed. -/
def zeroLine (m : List Host.Cell) (a : Nat) : List Host.Cell := m.filter fun e => decide (e.1 / 32 ≠ a / 32)

/-- The failing line is rewritten during the block reset of a memory unit (R532): a line of an instruction bank from the
ACTIVE file, any other with zeros. The image memory's lower 2 MiB is taken as the working buffer (log 22). -/
def LaneSt.rewriteLine (L : LaneSt) (u : Nat) : LaneSt :=
  let m := L.fld (Reg.MEM_ADDR u) 28 4
  let a := L.fld (Reg.MEM_ADDR u) 0 28
  if m ≤ 1 then
    let lo := m * 2 ^ 22 + a / 32 * 8
    let good := (L.flash.active.bankOf m).filter fun e => decide (lo ≤ e.1 ∧ e.1 < lo + 8)
    let ws := good.foldl (fun w e => putD 0 w e.1 e.2) (L.logic.banks.filter fun e => decide (e.1 < lo ∨ lo + 8 ≤ e.1))
    { L with logic := { L.logic with banks := ws } }
  else if m = 2 then { L with logic := { L.logic with blkMem := zeroLine L.logic.blkMem a } }
  else if m = 3 then
    if a < 2 ^ 21 then { L with image := { L.image with working := zeroLine L.image.working a } }
    else { L with image := { L.image with published := zeroLine L.image.published (a - 2 ^ 21) } }
  else L

/-! ### Registers (R517, R523, R538, R539) -/

/-- `CV_RESULT` by the state of the foreground context. -/
def LaneSt.cvResult (L : LaneSt) (u : Nat) : Nat :=
  let c := L.cvUnit u
  match c.fg.st.toNat with
  | 1 => L.cvOut u c.fg.run.toNat
  | 2 => c.result.toNat
  | _ => 0

/-- The computed registers of a check-value unit. -/
def LaneSt.viewCv (L : LaneSt) (off : Nat) : Option Nat :=
  if Base.cv 0 ≤ off ∧ off < Base.cv 32 then
    let u := (off - Base.cv 0) / 0x1000
    let c := L.cvUnit u
    match off % 0x1000 with
    | 0x78 => some (L.cvResult u % 2 ^ 32)
    | 0x7C => some (L.cvResult u / 2 ^ 32)
    | 0x80 => some (c.fg.run.toNat % 2 ^ 32)
    | 0x84 => some (c.fg.run.toNat / 2 ^ 32)
    | 0x88 => some (c.fg.st.toNat + c.isMatch.toNat * 4 + c.mism.toNat * 8 + c.bgHeld.toNat * 16 + c.saved.toNat * 32
        + min c.fg.bytes 0xFFFF * 65536)
    | _ => none
  else none

end Sys2Proof.Machine
end

