-- ==== Sys2Proof/Machine/Change.lean ====
section
/-! DEFINITION. Machine/Change.lean: service modes (R485 to R489), forces (R490 to R494), on-line change (R495 to R507) and the
shadow windows through which it loads programs (R188 to R190). Each write register has a check (`…Bar`, the reason or 0)
and an effect (`…Go`), which the rows and the input agreement step share. -/

namespace Sys2Proof.Machine

/-! ### Forces (R490, R491) -/

/-- The fields of `SV_FORCE` (R509). -/
def fcIdent (d : Word) : Nat := fieldOf d 0 16
def fcBit (d : Word) : Nat := fieldOf d 16 5
def fcValue (d : Word) : Nat := fieldOf d 21 1
def fcKind (d : Word) : Nat := fieldOf d 22 2
def fcOp (d : Word) : Nat := fieldOf d 24 2

/-- `SV_FORCE` with a given operation. -/
def withOp (d : Word) (op : Nat) : Word := setField d 24 2 op

/-- The package in a lane's staging area, by the length it states (R496). -/
def LaneSt.package (L : LaneSt) : Bytes := memBytes L.staging 0 (min (memLe L.staging 4 4) (64 * 1048576))

/-- The identities and the areas that the package in hand changes. -/
def State.deltaIdents (s : State) : List Nat := Config.deltaIdents (s.lane.get s.leadLane).package
def State.deltaAreas (s : State) : List Nat := Config.deltaAreas (s.lane.get s.leadLane).package

/-- The declared area in which an element lies. -/
def State.areaOf (s : State) (elem : Nat) : Option Nat :=
  (s.file.areas.find? fun a => s.areas.toNat.testBit a.area && a.elems.contains elem).map fun a => a.area

/-- The place of a force on an identity, kind and channel. -/
def LaneSt.forcePlace (L : LaneSt) (ident kind bit : Nat) : Option Nat :=
  (L.forces.find? fun e => e.2.ident == ident && e.2.kind == kind && e.2.bit == bit).map fun e => e.1

/-- The lowest free entry of the force table. -/
def LaneSt.freeForce (L : LaneSt) : Option Nat := (List.range 256).find? fun n => (L.forceAt n).isNone

/-- A force is possible in the module state: step 1 of R491. -/
def State.forceState (s : State) (vital : Bool) : Bool :=
  s.mstate == .run || s.mstate == .duty || (vital && s.mstate == .restartLocked)

/-- Steps 3 to 9 of R491 for a SET. -/
def State.forceSetBar (s : State) (w : Writer) (d : Word) : Nat :=
  let ident := fcIdent d
  let kind := fcKind d
  let vital : Bool := kind != 0
  let L := s.lane.get s.leadLane
  if (s.elemByIdent ident).isNone ∧ (s.varByIdent ident).isNone then 0x4C
  else if !vital ∧ !(match s.varByIdent ident with | some v => v.forceable | none => false) then 0x41
  else if vital ∧ !(match s.elemByIdent ident with
      | some e => decide (fcBit d < e.nchan) && e.kinds.getD (fcBit d) 0 == kind
      | none => false) then Reason.outOfRange
  else if vital ∧ !s.comm ∧ !(match s.elemByIdent ident with
      | some e => (s.areaOf e.num).isSome
      | none => false) then 0x42
  else if vital ∧ !w.cert then 0x43
  else if s.chg.st = .armed ∧ s.deltaIdents.contains ident then 0x45
  else if (L.forcePlace ident (kind + 1) (if vital then fcBit d else 0)).isNone ∧ L.freeForce.isNone then 0x40
  else 0

/-- The checks of a write of `SV_FORCE` (R491): the module's state first, then a reserved `KIND` or `OP`, as in R88. -/
def State.forceBar (s : State) (w : Writer) (d : Word) : Nat :=
  let vital : Bool := fcKind d != 0
  if !s.forceState vital then Reason.wrongState
  else if fcOp d = 0 ∧ vital ∧ s.twoOfTwo then Reason.degraded
  else if fcKind d = 3 ∨ fcOp d = 3 then Reason.outOfRange
  else match fcOp d with
    | 0 => s.forceSetBar w d
    | 1 =>
      if (s.elemByIdent (fcIdent d)).isNone ∧ (s.varByIdent (fcIdent d)).isNone then 0x4C
      else if vital ∧ !w.cert then 0x43 else 0
    | _ => if vital ∧ !w.cert then 0x43 else 0

/-- The entry of a force (R490). -/
def State.forceEntry (s : State) (w : Writer) (d : Word) : Bytes :=
  let vital : Bool := fcKind d != 0
  let area := if !vital then 0xFF else match s.elemByIdent (fcIdent d) with
    | some e => (s.areaOf e.num).getD 0xFE
    | none => 0xFE
  toLe 2 (fcIdent d) ++ [byteOf (fcKind d + 1), byteOf (if vital then fcBit d else 0), byteOf (fcValue d), byteOf area,
    byteOf (portCode w.port), 0] ++ toLe 4 w.certId.toNat ++ toLe 4 (s.cyc.num % 2 ^ 32)

/-- An entry emptied. -/
def LaneSt.dropForce (L : LaneSt) (n : Nat) : LaneSt := L.imgPut (Img.force n) (List.replicate 16 0)

/-- Every force that a test picks removed. -/
def LaneSt.dropForces (L : LaneSt) (pick : Force → Bool) : LaneSt :=
  L.forces.foldl (fun L e => if pick e.2 then L.dropForce e.1 else L) L

/-- The force in its entry, its own or the lowest free one. -/
def LaneSt.putForce (L : LaneSt) (ident kind bit : Nat) (e : Bytes) : LaneSt :=
  match L.forcePlace ident kind bit with
  | some n => L.imgPut (Img.force n) e
  | none => match L.freeForce with
    | some n => L.imgPut (Img.force n) e
    | none => L

/-- The effect of an accepted write of `SV_FORCE`: the table, and its record with the word written. A removal that names no force
changes nothing and leaves no record (DEDUCED, log 156). -/
def State.forceGo (s : State) (w : Writer) (d : Word) : State :=
  let kind := fcKind d + 1
  let bit := if kind = 1 then 0 else fcBit d
  let e := s.forceEntry w d
  let s := s.storeWb Reg.SV_FORCE d
  match fcOp d with
  | 0 => (s.updIn s.parts fun _ L => L.putForce (fcIdent d) kind bit e).event Base.sv 0x109 d.toNat
  | 1 =>
    if Lane.list.all fun l => !s.parts.get l || ((s.lane.get l).forcePlace (fcIdent d) kind bit).isNone then s
    else (s.updIn s.parts fun _ L => match L.forcePlace (fcIdent d) kind bit with
      | some n => L.dropForce n
      | none => L).event Base.sv 0x10A d.toNat
  | _ =>
    if Lane.list.all fun l => !s.parts.get l || (s.lane.get l).forces.all fun e => e.2.kind != kind then s
    else (s.updIn s.parts fun _ L => L.dropForces fun f => f.kind == kind).event Base.sv 0x10A d.toNat

/-- A write of `SV_FORCE` as the lanes agree it. -/
def State.writeForce (s : State) (p : Port) (d : Word) : State :=
  s.agreedWrite p Reg.SV_FORCE d (fun w => s.forceBar w d) fun w s => s.forceGo w d

/-- SV_FORCE_SET (R491). -/
def execSvForceSet (p : Port) (d : Word) (s : State) : Host.Outcome State Fault Refusal :=
  .next (s.writeForce p (withOp d 0))

/-- SV_FORCE_REMOVE (R491). -/
def execSvForceRemove (p : Port) (d : Word) (s : State) : Host.Outcome State Fault Refusal :=
  .next (s.writeForce p (withOp d 1))

/-- SV_FORCE_REMOVE_ALL (R491). -/
def execSvForceRemoveAll (p : Port) (d : Word) (s : State) : Host.Outcome State Fault Refusal :=
  .next (s.writeForce p (withOp d 2))

/-! ### Possession areas (R487) -/

def State.areaCfg (s : State) (a : Nat) : Option AreaCfg := s.file.areas.find? fun c => c.area == a

/-- A route that passes through an area is not FREE. -/
def State.areaBusy (s : State) (a : Nat) : Bool :=
  s.file.routes.any fun r => r.areas.contains a && (s.lane.get s.leadLane).routeState r.num != 0

/-- The force table holds a force on an element of an area. -/
def State.areaForced (s : State) (a : AreaCfg) : Bool :=
  s.forces.any fun e => e.2.kind != 1 && (match s.elemByIdent e.2.ident with
    | some c => a.elems.contains c.num
    | none => false)

/-- The checks of a write of `SV_POSS` (R486, R487). -/
def State.possBar (s : State) (w : Writer) (d : Word) : Nat :=
  if !s.forceState true then Reason.wrongState
  else match s.areaCfg (fieldOf d 0 5) with
  | none => Reason.outOfRange
  | some a =>
    if !w.cert then 0x43
    else if d.toNat.testBit 8 then (if s.areaBusy a.area then 0x46 else 0)
    else if s.areaForced a then 0x47 else 0

/-- An area declared or withdrawn. -/
def State.possGo (s : State) (d : Word) : State :=
  let on := d.toNat.testBit 8
  let bit := BitVec.ofNat 32 (2 ^ fieldOf d 0 5)
  let s := s.storeWb Reg.SV_POSS d
  ({ s with areas := if on then s.areas ||| bit else s.areas &&& ~~~bit }).event Base.sv (if on then 0x10B else 0x10C)
    (fieldOf d 0 5)

def State.writePoss (s : State) (p : Port) (d : Word) : State :=
  s.agreedWrite p Reg.SV_POSS d (fun w => s.possBar w d) fun _ s => s.possGo d

/-- DECLARE (R487). -/
def execDeclare (p : Port) (d : Word) (s : State) : Host.Outcome State Fault Refusal :=
  .next (s.writePoss p (setField d 8 1 1))

/-- WITHDRAW (R487). -/
def execWithdraw (p : Port) (d : Word) (s : State) : Host.Outcome State Fault Refusal :=
  .next (s.writePoss p (setField d 8 1 0))

/-! ### COMMISSIONING (R489) -/

/-- The checks of a write of `SV_MODE_REQ`. -/
def State.modeBar (s : State) (w : Writer) (d : Word) : Nat :=
  match fieldOf d 0 2 with
  | 1 =>
    if s.comm ∨ !(s.mstate = .run ∨ s.mstate = .duty) then Reason.wrongState
    else if s.twoOfTwo then Reason.degraded
    else if !s.file.commOk then 0x48
    else if !w.cert then 0x43 else 0
  | 2 => if !s.comm then Reason.wrongState else 0
  | _ => Reason.outOfRange

/-- COMMISSIONING entered or left: on leaving, no force remains, the declared possessions do, and the module is in
RESTART_LOCKED with its run identity unchanged; open shadow windows close (R190). -/
def State.modeGo (s : State) (d : Word) : State :=
  let s := s.storeWb Reg.SV_MODE_REQ d
  if fieldOf d 0 2 = 1 then ({ s with comm := true }).event Base.sv 0x10D 0
  else
    let s := ({ s with comm := false, prepare := none, confirmed := false, lockedGens := [] }).updIn s.parts fun _ L =>
      (L.dropForces fun _ => true).closeShadows
    (s.enter .restartLocked).event Base.sv 0x10E 0

def State.writeMode (s : State) (p : Port) (d : Word) : State :=
  s.agreedWrite p Reg.SV_MODE_REQ d (fun w => s.modeBar w d) fun _ s => s.modeGo d

/-- COMMISSIONING_ENTER (R489). -/
def execCommissioningEnter (p : Port) (d : Word) (s : State) : Host.Outcome State Fault Refusal :=
  .next (s.writeMode p (setField d 0 2 1))

/-- COMMISSIONING_LEAVE (R489). -/
def execCommissioningLeave (p : Port) (d : Word) (s : State) : Host.Outcome State Fault Refusal :=
  .next (s.writeMode p (setField d 0 2 2))

/-! ### Verification of a change (R498) -/

/-- The header and the check value of a package (R496), and its base: the ACTIVE file, or none for a complete file where one is taken
(R507). -/
def packageOk (pkg : Bytes) (active : StationFile) (full : Bool) : Bool :=
  let n := pkg.length
  decide (0x54 ≤ n) && ofLe (slice pkg 0 4) == 0x0D17A003 && ofLe (slice pkg 4 4) == n
    && ofLe (slice pkg (n - 4) 4) == crc32c (pkg.take (n - 4))
    && (if ofLe (slice pkg 8 32) = 0 then full else ofLe (slice pkg 8 32) == active.digest.toNat)
    && (let w := ofLe (slice pkg 0x48 4); w == 0 || decide (60 ≤ w ∧ w ≤ 86400))

/-- The items that no delta may change (R498). -/
def fixedSame (a b : StationFile) (mode : Nat) : Bool :=
  a.tUnits == b.tUnits && a.pct == b.pct && a.role == b.role && a.paired == b.paired && a.stationId == b.stationId
    && a.baseM == b.baseM && a.bcUnits == b.bcUnits && a.offUs == b.offUs && tableOf a mode == tableOf b mode

/-- The programs of a block in a file. -/
def StationFile.blockProgs (f : StationFile) (b : Nat) : List CellProg := f.progs.filter fun p => p.cell / 16 == b

/-- The shadow bank of a lane. -/
def LaneSt.shadow (L : LaneSt) : Nat := 1 - L.logic.bank

/-- The blocks that the new file leaves unchanged take their programs from the active bank. -/
def LaneSt.copyUnchanged (L : LaneSt) (new : StationFile) : LaneSt :=
  let old := L.flash.active
  let same (b : Nat) : Bool := old.blockProgs b == new.blockProgs b && old.phases == new.phases
    && old.slotsIn b == new.slotsIn b
  let sh := L.shadow
  let g := L.logic
  let keep := g.banks.filter fun e => !(e.1 / 2 ^ 22 == sh && same (e.1 / 2 ^ 18 % 16))
  let add := g.banks.filter fun e => e.1 / 2 ^ 22 == g.bank && same (e.1 / 2 ^ 18 % 16)
  let banks := add.foldl (fun m e => putD 0 m (sh * 2 ^ 22 + e.1 % 2 ^ 22) e.2) keep
  let put (m : List (Nat × Nat)) : List (Nat × Nat) := (List.range 16).foldl (fun m b =>
    if same b then putD 0 m (sh * 16 + b) (getD 0 m (g.bank * 16 + b)) else m) m
  let L := { L with logic := { g with banks := banks, phasesOf := put g.phasesOf, slotsOf := put g.slotsOf } }
  (List.range 16).foldl (fun L b => if same b then L.setFld (Reg.LF_SHD_STAT b) 0 2 2 else L) L

/-- The shadow banks hold a file's programs. -/
def LaneSt.shadowHolds (L : LaneSt) (f : StationFile) : Bool :=
  (L.logic.banks.filter fun e => e.1 / 2 ^ 22 == L.shadow) == f.bankOf L.shadow

/-- The shadow banks hold a file's programs, and these fit the phase and slot counts of the bank (R171). -/
def State.shadowFits (s : State) (L : LaneSt) (f : StationFile) : Bool :=
  L.shadowHolds f && programsFit s (L.onBank L.shadow) f

/-- Where a complete file may be loaded: RESTART_LOCKED (R507), and SYNC for a module that holds the blank file, which in LINESIDE role
reaches no state beyond it (R474; DEDUCED, log 157). -/
def State.takesFile (s : State) : Bool := s.mstate == .restartLocked || (s.mstate == .sync && s.file.blank)

/-- What a lane finds in VERIFYING: 0, or the reason; `fileFine` is whether the new file passed R470. -/
def State.verifyLane (s : State) (L : LaneSt) (fileFine : Bool) : Nat :=
  let pkg := L.package
  let full : Bool := ofLe (slice pkg 8 32) == 0
  let new := Config.rebuild pkg L.flash.active
  if !packageOk pkg L.flash.active s.takesFile then 0x4D
  else if !fileFine ∨ new.digest.toNat ≠ ofLe (slice pkg 0x28 32) then 0x4D
  else if !full ∧ !fixedSame L.flash.active new s.link.mode then 0x4F
  else if budgetUs new.tUnits new.pct * 1000 < new.wcet * 10 then 0x4E
  else if !fileOk s new then 0x4D
  else if !full ∧ !s.shadowFits (L.copyUnchanged new) new then 0x4D
  else 0

/-- The results of the lanes compared: VERIFIED or, for a complete file, STAGED; otherwise FAILED. -/
def State.verifyChange (s : State) (o : LaneSet) : State :=
  let r (l : Lane) : Nat := if s.isActive l then s.verifyLane (s.lane.get l) (o.get l) else 0
  let reason := if r .A ≠ 0 then r .A else if r .B ≠ 0 then r .B else r .C
  if reason ≠ 0 then
    ({ s with chg := { s.chg with st := .failed, reason := reason } }).event Base.sv 0x114 reason
  else
    let pkg := (s.lane.get s.leadLane).package
    let full : Bool := ofLe (slice pkg 8 32) == 0
    let w := ofLe (slice pkg 0x48 4)
    let s := s.updAll fun _ L =>
      let new := Config.rebuild L.package L.flash.active
      let L := { L with flash := { L.flash with staged := some new } }
      if full then L else L.copyUnchanged new
    ({ s with chg := { s.chg with
        st := if full then .staged else .verified, reason := 0, window := if w = 0 then 900 else w } }).event
      Base.sv 0x10F 0

/-- DELTA_VERIFY (R498). -/
def execDeltaVerify (o : LaneSet) (s : State) : Host.Outcome State Fault Refusal :=
  if s.chg.st = .verifying then .next (s.verifyChange o) else .next s

/-! ### `SV_CHANGE` (R497, R500, R504, R507) -/

/-- The target cycle of ARM and REVERT: the first after the present one with the given low 24 bits. -/
def State.changeTarget (s : State) (low : Nat) : Nat :=
  let d := (low + (2 ^ 24 - s.cyc.num % 2 ^ 24)) % 2 ^ 24
  s.cyc.num + (if d = 0 then 2 ^ 24 else d)

/-- The target lies from 2 to 10,000 cycles on. -/
def State.targetOk (s : State) (low : Nat) : Bool :=
  let t := s.changeTarget low
  decide (s.cyc.num + 2 ≤ t ∧ t ≤ s.cyc.num + 10000)

/-- A force or a declared area conflicts with the change. -/
def State.changeConflict (s : State) : Bool :=
  s.forces.any (fun e => s.deltaIdents.contains e.2.ident) || s.deltaAreas.any fun a => s.areas.toNat.testBit a

/-- The change may be armed in the module state. -/
def State.armState (s : State) : Bool := s.mstate.evaluates && s.xo.hoCycle.isNone

def State.armBar (s : State) (low : Nat) : Nat :=
  if s.chg.st ≠ .verified then 0x49
  else if s.twoOfTwo then Reason.degraded
  else if !s.armState then Reason.wrongState
  else if s.hasStandby ∧ s.chg.peer ≠ 2 then 0x4A
  else if !s.targetOk low then 0x4B
  else if s.changeConflict then 0x44 else 0

def State.revertBar (s : State) (low : Nat) : Nat :=
  if s.chg.st ≠ .swapped ∨ (s.lane.get s.leadLane).flash.kept.isNone then 0x49
  else if !s.armState then Reason.wrongState
  else if !s.targetOk low then 0x4B
  else if s.changeConflict then 0x44 else 0

/-- The operations of `SV_CHANGE` (R509). -/
def chOp (d : Word) : Nat := fieldOf d 0 4

/-- The checks of a write of `SV_CHANGE`. -/
def State.changeBar (s : State) (d : Word) : Nat :=
  match chOp d with
  | 1 => if s.chg.st ≠ .none then 0x49
    else if s.twoOfTwo then Reason.degraded
    else if !(s.mstate.evaluates || s.takesFile) then Reason.wrongState else 0
  | 2 => if s.chg.st ≠ .loading then 0x49 else 0
  | 3 => s.armBar (fieldOf d 8 24)
  | 4 => s.revertBar (fieldOf d 8 24)
  | 5 => if s.chg.st ≠ .swapped then 0x49 else 0
  | 6 => if s.chg.st = .failed ∨ s.chg.st = .verified ∨ (s.chg.st = .armed ∧ !s.chg.revert) then 0 else 0x49
  | 7 => if s.chg.st ≠ .staged then 0x49 else if !s.takesFile then Reason.wrongState else 0
  | _ => Reason.outOfRange

/-- Open shadow windows close as LOADED. -/
def LaneSt.loadedShadows (L : LaneSt) : LaneSt :=
  (List.range 16).foldl (fun L b =>
    if L.bit (Reg.LF_SHD_CTRL b) 0 then (L.setFld (Reg.LF_SHD_STAT b) 0 2 2).clearBits (Reg.LF_SHD_CTRL b) 1 else L) L

/-- The REVERT window ends: KEPT slot and shadow banks empty, state NONE (R504). -/
def State.endChange (s : State) : State :=
  let rv := s.chg.revert
  let s := s.updAll fun _ L => { L.emptyShadow with flash := { L.flash with kept := none, keptTill := 0 } }
  ({ s with chg := {} }).event Base.sv (if rv then 0x112 else 0x113) 0

/-- ABANDON: STAGED slot and shadow banks empty, state NONE (R498). -/
def State.dropChange (s : State) : State :=
  ({ s with chg := {} }).updAll fun _ L => { L.emptyShadow with flash := { L.flash with staged := none } }

/-- ACTIVATE: the STAGED file becomes ACTIVE; a module reset (R507). -/
def State.activateFile (s : State) : State :=
  (s.updAll fun _ L => { L with flash := { L.flash with
      active := L.flash.staged.getD L.flash.active, staged := none, kept := none, keptTill := 0 } }).moduleReset

/-- The effect of an accepted write of `SV_CHANGE`. -/
def State.changeGo (s : State) (d : Word) : State :=
  let s := s.storeWb Reg.SV_CHANGE d
  match chOp d with
  | 1 => ({ s with chg := { st := .loading } }).updAll fun _ L => (L.setReg Reg.SV_DLT_CRC 0).cvBegin 16
  | 2 => ({ s with chg := { s.chg with
        st := .verifying, peer := if s.hasStandby then 1 else 0, sendDue := s.hasStandby } }).updAll fun _ L => L.loadedShadows
  | 3 => ({ s with chg := { s.chg with st := .armed, target := s.changeTarget (fieldOf d 8 24), revert := false } }).event
      Base.sv 0x110 (fieldOf d 8 24)
  | 4 => ({ s with chg := { s.chg with st := .armed, target := s.changeTarget (fieldOf d 8 24), revert := true } }).event
      Base.sv 0x110 (fieldOf d 8 24)
  | 5 => s.endChange
  | 6 => s.dropChange
  | _ => s.activateFile

def State.writeChange (s : State) (p : Port) (d : Word) : State :=
  s.agreedWrite p Reg.SV_CHANGE d (fun _ => s.changeBar d) fun _ s => s.changeGo d

/-- CHANGE_OPEN (R497). -/
def execChangeOpen (p : Port) (d : Word) (s : State) : Host.Outcome State Fault Refusal :=
  .next (s.writeChange p (setField d 0 4 1))

/-- CHANGE_CLOSE (R497). -/
def execChangeClose (p : Port) (d : Word) (s : State) : Host.Outcome State Fault Refusal :=
  .next (s.writeChange p (setField d 0 4 2))

/-- ARM (R500). -/
def execArm (p : Port) (d : Word) (s : State) : Host.Outcome State Fault Refusal :=
  .next (s.writeChange p (setField d 0 4 3))

/-- REVERT (R504). -/
def execRevert (p : Port) (d : Word) (s : State) : Host.Outcome State Fault Refusal :=
  .next (s.writeChange p (setField d 0 4 4))

/-- COMMIT (R504). -/
def execCommit (p : Port) (d : Word) (s : State) : Host.Outcome State Fault Refusal :=
  .next (s.writeChange p (setField d 0 4 5))

/-- ABANDON (R498). -/
def execAbandon (p : Port) (d : Word) (s : State) : Host.Outcome State Fault Refusal :=
  .next (s.writeChange p (setField d 0 4 6))

/-- ACTIVATE (R507). -/
def execActivate (p : Port) (d : Word) (s : State) : Host.Outcome State Fault Refusal :=
  .next (s.writeChange p (setField d 0 4 7))

/-- REVERT_WINDOW_END: the Station Clock has reached the end of the window (R504). -/
def execRevertWindowEnd (s : State) : Host.Outcome State Fault Refusal :=
  if s.chg.reverts ∧ s.chg.endAt ≤ (s.lane.get s.leadLane).clock then .next s.endChange else .next s

/-! ### The agreement before the target, and the swap (R501) -/

/-- In the input agreement step of the cycle before the target: a lane whose shadow banks have changed, or fail the check of
R171, makes the state FAILED; otherwise the change stands. -/
def State.confirmArmed (s : State) : State :=
  if s.chg.st = .armed ∧ s.cyc.num + 1 = s.chg.target then
    let good (l : Lane) : Bool := !s.isActive l || s.shadowFits (s.lane.get l) ((s.lane.get l).flash.incoming s.chg.revert)
    if good .A && good .B && good .C then s
    else ({ s with chg := { s.chg with st := .failed, reason := 0x4D, target := 0, revert := false } }).event Base.sv 0x010 0
  else s

/-- At t0 of the target the banks change; a standby changes them with the copy (R502). -/
def State.swapDue (s : State) : State :=
  if s.mstate.evaluates ∧ s.chg.st = .armed ∧ s.cyc.num = s.chg.target then s.swapBanks else s

/-! ### The staging area (R497) -/

/-- `SV_DLT_ADDR` and `SV_DLT_DATA` take broadcast writes in LOADING only, and none in 2-out-of-2 operation (R59). -/
def State.stageBar (s : State) (ap : WAper) : Nat :=
  match ap with
  | .lane _ => Reason.notBroadcast
  | .broadcast => if s.twoOfTwo then Reason.degraded else if s.chg.st = .loading then 0 else 0x49

/-- One word stored in the staging area; the address advances. -/
def LaneSt.stageWord (L : LaneSt) (d : Word) : LaneSt :=
  let a := L.fld Reg.SV_DLT_ADDR 0 26
  let L := { L with staging := memPuts L.staging a (toLe 4 d.toNat) }
  let L := L.setReg Reg.SV_DLT_ADDR (BitVec.ofNat 32 ((a + 4) % 2 ^ 26))
  let L := L.cvFeed 16 (toLe 4 d.toNat)
  L.setReg Reg.SV_DLT_CRC (BitVec.ofNat 32 (L.cvOut 16 (L.cvUnit 16).fg.run.toNat))

def State.writeStage (s : State) (ap : WAper) (p : Port) (d : Word) (only : LaneSet := .all true) : State × Nat :=
  s.laneWrite p ap Reg.SV_DLT_DATA (fun _ => s.stageBar ap) (fun l s => s.upd l fun L => L.stageWord d) only

def State.writeStageAddr (s : State) (ap : WAper) (p : Port) (d : Word) (only : LaneSet := .all true) : State × Nat :=
  s.laneWrite p ap Reg.SV_DLT_ADDR
    (fun _ => if s.stageBar ap ≠ 0 then s.stageBar ap else if d.toNat % 4 ≠ 0 then Reason.outOfRange else 0)
    (fun l s => s.upd l fun L => L.setReg Reg.SV_DLT_ADDR (BitVec.ofNat 32 (d.toNat % 2 ^ 26))) only

/-- SV_DLT_DATA (R497). -/
def execSvDltData (ap : WAper) (p : Port) (d : Word) (s : State) : Host.Outcome State Fault Refusal :=
  .next (s.writeStage ap p d).1

/-! ### Shadow windows (R188, R189) -/

/-- The checks of a write of `LF_SHD_CTRL`. -/
def State.shdBar (s : State) (b : Nat) (d : Word) : Nat :=
  if d.toNat.testBit 1 ∨ !d.toNat.testBit 0 then 0
  else if s.twoOfTwo then Reason.degraded
  else if s.agreedFld (Reg.LF_SHD_STAT b) 0 2 = 3 then 0x42
  else if s.chg.st ≠ .loading then Reason.wrongState
  else if fieldOf d 4 4 = 0 ∨ 8 < fieldOf d 4 4 ∨ 256 < fieldOf d 8 9 then Reason.outOfRange else 0

/-- A window opens: the block's shadow bank is empty, with the counts of the new program. Words of an earlier load are gone
(DESIGN CHOICE, log 100: R188 does not say what a word holds that the load does not write). -/
def LaneSt.openShadow (L : LaneSt) (b : Nat) (d : Word) : LaneSt :=
  let g := L.logic
  let L := { L with logic := { g with
      banks := g.banks.filter fun e => !(e.1 / 2 ^ 18 == L.shadow * 16 + b)
      phasesOf := putD 0 g.phasesOf (L.shadow * 16 + b) (fieldOf d 4 4)
      slotsOf := putD 0 g.slotsOf (L.shadow * 16 + b) (fieldOf d 8 9) } }
  let L := (L.setReg (Reg.LF_SHD_CTRL b) (BitVec.ofNat 32 (d.toNat % 2 ^ 17 - d.toNat % 16 + 1))).setReg (Reg.LF_SHD_STAT b) 1
  (L.setReg (Reg.LF_SHD_CRC b) 0).cvBegin b

/-- A window closes as LOADED. -/
def LaneSt.closeShadow (L : LaneSt) (b : Nat) : LaneSt :=
  if L.bit (Reg.LF_SHD_CTRL b) 0 then (L.setFld (Reg.LF_SHD_STAT b) 0 2 2).clearBits (Reg.LF_SHD_CTRL b) 1 else L

/-- The effect of an accepted write of `LF_SHD_CTRL`: `PHASES` and `SLOTS` are kept, the window closes or opens (R188). A write of both
`OPEN` and `CLOSE` only closes (DESIGN CHOICE, log 152). -/
def State.shdGo (s : State) (b : Nat) (d : Word) : State :=
  let s := s.storeWb (Reg.LF_SHD_CTRL b) d
  if d.toNat.testBit 1 then s.updIn s.parts fun _ L => L.closeShadow b
  else if d.toNat.testBit 0 then s.updIn s.parts fun _ L => L.openShadow b d
  else s

def State.writeShd (s : State) (b : Nat) (p : Port) (d : Word) : State :=
  s.agreedWrite p (Reg.LF_SHD_CTRL b) d (fun _ => s.shdBar b d) fun _ s => s.shdGo b d

/-- LF_SHD_OPEN (R188, R189). -/
def execLfShdOpen (b : BitVec 4) (p : Port) (d : Word) (s : State) : Host.Outcome State Fault Refusal :=
  .next (s.writeShd b.toNat p (setField d 0 2 1))

/-- LF_SHD_CLOSE (R188). -/
def execLfShdClose (b : BitVec 4) (p : Port) (d : Word) (s : State) : Host.Outcome State Fault Refusal :=
  .next (s.writeShd b.toNat p (setField d 0 2 2))

/-- What an address or data write to a window meets (R189). -/
def LaneSt.windowBar (L : LaneSt) (ap : WAper) (b : Nat) (data : Bool) : Nat :=
  match ap with
  | .lane _ => 0x41
  | .broadcast =>
    if !L.bit (Reg.LF_SHD_CTRL b) 0 then 0x40
    else if data && decide (2 ^ 18 ≤ (L.reg (Reg.LF_SHD_ADDR b)).toNat) then 0x43 else 0

/-- One word stored in the shadow bank; the address advances, past the last word to where the window is full. -/
def LaneSt.shadowWord (L : LaneSt) (b : Nat) (d : Word) : LaneSt :=
  let a := (L.reg (Reg.LF_SHD_ADDR b)).toNat
  let L := { L with logic := { L.logic with
      banks := putD 0 L.logic.banks (L.shadow * 2 ^ 22 + b * 2 ^ 18 + a % 2 ^ 18) d } }
  let L := (L.setReg (Reg.LF_SHD_ADDR b) (BitVec.ofNat 32 (a + 1))).addFld (Reg.LF_SHD_STAT b) 4 19 1
  let L := L.cvFeed b (toLe 4 d.toNat)
  L.setReg (Reg.LF_SHD_CRC b) (BitVec.ofNat 32 (L.cvOut b (L.cvUnit b).fg.run.toNat))

def State.writeShdData (s : State) (ap : WAper) (b : Nat) (p : Port) (d : Word) (only : LaneSet := .all true) :
    State × Nat :=
  s.laneWrite p ap (Reg.LF_SHD_DATA b) (fun L => L.windowBar ap b true) (fun l s => s.upd l fun L => L.shadowWord b d) only

def State.writeShdAddr (s : State) (ap : WAper) (b : Nat) (p : Port) (d : Word) (only : LaneSet := .all true) :
    State × Nat :=
  s.laneWrite p ap (Reg.LF_SHD_ADDR b) (fun L => L.windowBar ap b false) (fun l s => s.upd l fun L =>
    L.setReg (Reg.LF_SHD_ADDR b) (BitVec.ofNat 32 (d.toNat % 2 ^ 18))) only

/-- LF_SHD_DATA (R188, R189). -/
def execLfShdData (ap : WAper) (b : BitVec 4) (p : Port) (d : Word) (s : State) : Host.Outcome State Fault Refusal :=
  .next (s.writeShdData ap b.toNat p d).1

/-! ### Registers (R509) -/

/-- The entries of the force table in use, and those on inputs and outputs. -/
def LaneSt.forceCount (L : LaneSt) : Nat :=
  L.forces.length + (L.forces.filter fun e => e.2.kind != 1).length * 65536

/-- `SV_CHG_STAT`, `SV_REVERT`, `SV_STATE` as the last publication showed them (R73); `LF_SHD_ADDR` without its full mark. -/
def LaneSt.viewChange (L : LaneSt) (v : Seen) (off : Nat) : Option Nat :=
  if off = Reg.SV_CHG_STAT then some (v.chg.st.code + v.chg.peer.toNat * 16 + v.chg.reason * 256)
  else if off = Reg.SV_REVERT then some v.left
  else if off = Reg.SV_STATE then some v.sv
  else if off < 0x10000 ∧ off % 0x1000 = 0x50 then some ((L.reg off).toNat % 2 ^ 18)
  else none

end Sys2Proof.Machine
end

