-- ==== Sys2Proof/Machine/Image.lean ====
section
/-! DEFINITION. Machine/Image.lean: the two buffers of the Station Image, its generations and their header (R131 to R138),
pins and the pin store (R139 to R143), the segment digests (R41), and what a publication shows (R73). -/

namespace Sys2Proof.Machine

/-! ### Digests (R41) -/

/-- The bytes of one segment of 32 KiB that are not 0. -/
def segCells (m : List Host.Cell) (k : Nat) : List Host.Cell := m.filter fun e => e.1 / 32768 == k

/-- The digest of a segment: the exclusive-OR of the checks of its lines. -/
def segDigest (m : List Host.Cell) (k : Nat) : DWord :=
  (List.range 1024).foldl (fun d i => d ^^^ Config.lineCheck (k * 1024 + i) (memBytes m ((k * 1024 + i) * 32) 32)) 0

/-- Two images have the same digest in a segment; equal segments do. -/
def segSame (m m' : List Host.Cell) (k : Nat) : Bool :=
  segCells m k == segCells m' k || segDigest m k == segDigest m' k

/-- The segments in which two images differ by their digests. -/
def segDiffer (m m' : List Host.Cell) : List Nat := (List.range 64).filter fun k => !segSame m m' k

/-! ### Pins (R140 to R142) -/

def LaneSt.pinOf (L : LaneSt) (p : Port) : Option Pin := L.image.pins.find? fun q => q.port == p

/-- The generation that a lane shows. -/
def LaneSt.pubGen (L : LaneSt) : Nat := memLe L.image.published 0 8

/-- The oldest generation pinned. -/
def LaneSt.oldestPin (L : LaneSt) : Option Nat :=
  L.image.pins.foldl (fun m q => if q.expired then m else match m with
    | some g => some (min g q.gen)
    | none => some q.gen) none

/-- Lines in the pin store. -/
def LaneSt.storeUse (L : LaneSt) : Nat := (L.image.store.map fun e => e.lines.length).foldl (· + ·) 0

/-- What no pin needs leaves the store. -/
def LaneSt.trimStore (L : LaneSt) : LaneSt :=
  { L with image := { L.image with store := match L.oldestPin with
    | none => []
    | some g => L.image.store.filter fun e => decide (g ≤ e.gen) } }

/-- A port pins the published generation; nothing before the first publication (R143). -/
def LaneSt.setPin (L : LaneSt) (p : Port) : LaneSt :=
  if L.pubGen = 0 then L
  else ({ L with image := { L.image with
    pins := (L.image.pins.filter fun q => q.port != p) ++ [{ port := p, gen := L.pubGen, expired := false }] } } : LaneSt).trimStore

/-- The pin of a port removed: its refusal has been given (R141). -/
def LaneSt.dropPin (L : LaneSt) (p : Port) : LaneSt :=
  { L with image := { L.image with pins := L.image.pins.filter fun q => q.port != p } }

/-- Pins expired by a test, counted in a field of `IMAGE_CNT`. -/
def LaneSt.expirePins (L : LaneSt) (lo w : Nat) (hit : Pin → Bool) : LaneSt :=
  let n := (L.image.pins.filter fun q => !q.expired && hit q).length
  let L := { L with image := { L.image with
    pins := L.image.pins.map fun q => if hit q then { q with expired := true } else q } }
  (L.addFld Reg.IMAGE_CNT lo w n).trimStore

/-- Pins on generation g expire at the publication of g + 3 (R141). -/
def LaneSt.agePins (L : LaneSt) (gen : Nat) : LaneSt := L.expirePins 0 16 fun q => decide (q.gen + 3 ≤ gen)

/-- Room for `k` more lines in the store of 32,768: the oldest pins expire (R142). -/
def LaneSt.fitStore : Nat → LaneSt → Nat → LaneSt
  | 0, L, _ => L
  | n + 1, L, k =>
    if L.storeUse + k ≤ 32768 then L
    else match L.oldestPin with
      | some g => LaneSt.fitStore n (L.expirePins 16 8 fun q => q.gen == g) k
      | none => L

/-- Lines about to be overwritten, of generation `gen` in a buffer, are kept while a pin needs them. -/
def LaneSt.keepLines (L : LaneSt) (gen : Nat) (buf : List Host.Cell) (lines : List Nat) : LaneSt :=
  let L := LaneSt.fitStore L.image.pins.length L.trimStore lines.length
  let needed : Bool := match L.oldestPin with
    | some g => decide (g ≤ gen)
    | none => false
  let L := if needed then { L with image := { L.image with
      store := L.image.store ++ [{ gen := gen, lines := lines.map fun n => (n, memBytes buf (32 * n) 32) }] } } else L
  L.maxFld Reg.PIN_STORE 16 16 L.storeUse

/-- `PIN_STORE` (R152). -/
def LaneSt.pinStore (L : LaneSt) : Nat := L.storeUse % 65536 + (L.reg Reg.PIN_STORE).toNat / 65536 * 65536

/-- `IMAGE_LINES` for a generation of `n` lines (R152). -/
def LaneSt.noteLines (L : LaneSt) (n : Nat) : LaneSt :=
  (L.setFld Reg.IMAGE_LINES 0 16 n).maxFld Reg.IMAGE_LINES 16 16 n

/-- A byte of a pinned generation: from the first kept line of it or later, from the retiring buffer until it is rolled
forward, otherwise from the published buffer. -/
def LaneSt.pinnedByte (L : LaneSt) (g a : Nat) : Byte :=
  match L.image.store.find? fun e => decide (g ≤ e.gen) && e.lines.any fun x => x.1 == a / 32 with
  | some e => match e.lines.find? fun x => x.1 == a / 32 with
    | some x => x.2.getD (a % 32) 0
    | none => 0
  | none =>
    if !L.image.rolled ∧ g < L.pubGen then memGet L.image.working a else memGet L.image.published a

/-- A word of the image as a port sees it: of its pinned generation, or the published one (R139). -/
def LaneSt.imageWord (L : LaneSt) (p : Port) (a : Nat) : Nat :=
  match L.pinOf p with
  | some q => if q.expired then memLe L.image.published a 4
    else ofLe ((List.range 4).map fun i => L.pinnedByte q.gen (a + i))
  | none => memLe L.image.published a 4

/-- `IMAGE_PIN` (R152). -/
def LaneSt.imagePin (L : LaneSt) (p : Port) : Nat :=
  match L.pinOf p with
  | some q =>
    if q.expired then 2 else 1 + min 3 (q.gen + 3 - L.pubGen) * 4 + q.gen % 2 ^ 24 * 256
  | none => 0

/-! ### What a publication shows (R73) -/

/-- Slots of an image that are not EMPTY (R236). -/
def slotsUsed (m : List Host.Cell) : Nat :=
  (m.filter fun e => decide (Img.slot 0 ≤ e.1 ∧ e.1 < Img.slot 512) && e.1 % 32 == 0).length

/-- A lane's registers of the first kind at a publication of generation `gen`. -/
def LaneSt.noteRegs (L : LaneSt) (gen : Nat) (runId areas : Word) (cycle : Nat) (forces timers : Nat) (tamper : Bool) : LaneSt :=
  let L := (L.setReg Reg.IMAGE_GEN (BitVec.ofNat 32 gen)).setReg Reg.IMAGE_GEN_HI (BitVec.ofNat 32 (gen / 2 ^ 32))
  let L := (L.setReg Reg.IMAGE_RUNID runId).setReg Reg.SV_POSS_MAP areas
  let L := (L.setReg Reg.CYC_NUM (BitVec.ofNat 32 cycle)).setReg Reg.CYC_NUM_HI (BitVec.ofNat 32 (cycle / 2 ^ 32))
  let L := (L.setReg Reg.SV_FORCE_CNT (BitVec.ofNat 32 forces)).setFld Reg.TMR_USE 16 14 timers
  let used := slotsUsed L.image.published
  let L := (L.setFld Reg.BO_USE 0 10 used).maxFld Reg.BO_USE 16 10 used
  L.noteShown tamper

/-- The timers of a file that run. -/
def LaneSt.runningTimers (L : LaneSt) (f : StationFile) : Nat :=
  (f.timers.filter fun t => (L.timerFlags t.1).testBit 0).length

/-! ### Pages written after they were sent (R47) -/

/-- The keys at which two sparse maps differ. -/
def keysDiffer {V : Type} [DecidableEq V] (a b : List (Nat × V)) : List Nat :=
  if a = b then []
  else ((a.filter fun e => !b.contains e) ++ (b.filter fun e => !a.contains e)).map fun e => e.1

/-- What a resynchronising lane copies of a lane: images, block memories, cell bits. -/
def LaneSt.copyBase (L : LaneSt) : CopyBase :=
  { img := L.image.working, blk := L.logic.blkMem, loc := L.logic.loc, prv := L.logic.prv }

/-- The pages that differ between two publications, as the model numbers them: the image 0 to 511, block memories to 639,
local bits to 671, previous-state bits to 703; the header's page and the page 704 of session and register state are
written by every generation (log 17). -/
def writtenPages (a b : CopyBase) : List Nat :=
  [0, 704] ++ (keysDiffer a.img b.img).map (fun k => k / 4096) ++ (keysDiffer a.blk b.blk).map (fun k => 512 + k / 4096)
    ++ (keysDiffer a.loc b.loc).map (fun k => 640 + k / 32768) ++ (keysDiffer a.prv b.prv).map (fun k => 672 + k / 32768)

/-- A generation is written: every page of a lane in RESYNC that was sent before it and that it changed is marked, to be sent
again. -/
def State.markPages (s : State) : State :=
  let now := (s.lane.get s.leadLane).copyBase
  let old := s.lx.base
  let s := { s with lx := { s.lx with base := now, prev := old } }
  Lane.list.foldl (fun s x =>
    if s.mode x = .resync then
      let w := writtenPages old now
      s.setCtl x fun c => { c with
        pages := c.pages.filter fun p => !w.contains p
        marked := (c.pages.filter w.contains).foldl (fun m p => insertNat p m) c.marked }
    else s) s

/-! ### The generation header (R138) -/

/-- `HDR_STATE`. -/
def State.hdrWord (s : State) (L : LaneSt) : Nat :=
  s.mstate.hdr + s.voteMode * 16 + (L.forces.any fun e => e.2.kind == 1).toNat * 64 + (decide (s.areas ≠ 0)).toNat * 128 + s.comm.toNat * 256
    + s.xo.takeover.toNat * 512 + L.logic.bank % 2 * 1024

/-- The header of generation `gen` in the working buffer. -/
def LaneSt.putHeader (L : LaneSt) (s : State) (gen : Nat) : LaneSt :=
  L.imgPut 0 (toLe 8 gen ++ toLe 4 s.runId.toNat ++ toLe 4 s.cyc.num ++ toLe 8 s.cyc.t0 ++ toLe 4 (s.hdrWord L)
    ++ toLe 4 (s.file.digest.toNat % 2 ^ 32))

/-- The buffers exchange their roles (R131); the generation becomes what the lane shows. -/
def LaneSt.publish (L : LaneSt) (s : State) (gen : Nat) : LaneSt :=
  let L := L.putHeader s gen
  let n := L.image.dirty.length
  let L := { L with image := { L.image with
    working := L.image.published, published := L.image.working, rolling := L.image.dirty, dirty := [], done := true
    rolled := false } }
  let L := L.noteLines n
  let L := L.agePins gen
  let v : LaneSt := { L with image := { L.image with working := L.image.published } }
  L.noteRegs gen s.runId s.areas s.cyc.num v.forceCount (v.runningTimers s.file) s.power.tamper

/-- The retiring buffer takes every line of the generation just published (R133); its own are kept for pins. -/
def LaneSt.rollForward (L : LaneSt) : LaneSt :=
  if L.image.rolled then L
  else
    let L := L.keepLines (memLe L.image.working 0 8) L.image.working L.image.rolling
    { L with image := { L.image with working := L.image.published, rolling := [], rolled := true } }

end Sys2Proof.Machine
end

