-- ==== Sys2Proof/Machine/Crossover.lean ====
section
/-! DEFINITION. Machine/Crossover.lean: duty and standby (R387 to R419): heartbeats, claims, entry into the role, mirrors and
state copies, planned handover. -/

namespace Sys2Proof.Machine

/-! ### What leaves on the Crossover and on the pair's signals -/

/-- DUTY_TOK_OUT toggles while the module holds the role or is claiming it, by the gate over two of its lanes (R389); HANDING it
has stopped (R410). -/
def State.dutyTokOut (s : State) : Bool :=
  (s.xo.role == .holder || s.xo.role == .claiming) && decide (2 ≤ s.activeCount)

/-- PEER_LIVE_OUT toggles while at least two lanes toggle LIVE (R389). -/
def State.peerLiveOut (s : State) : Bool := decide (2 ≤ s.drv.live.count)

/-- `SV_CHG_STAT.PEER` as the peer is to show it: 1 loading, 2 verified, 3 failed, 0 otherwise (R499, R509). -/
def ChgSt.result (c : ChgSt) : Nat :=
  match c.st with
  | .loading => 1 | .verifying => 1
  | .verified => 2 | .armed => 2 | .swapped => 2
  | .failed => 3
  | _ => 0

/-- The hours since the module last completed a spell in the role (R413, R417). -/
def State.dutyHours (s : State) : Nat := min ((s.now - s.xo.sinceDuty) / 3600000000000) 0xFFFF

/-- The heartbeat that the module sends on XH every 2 µs once the lane has aligned, in every state from BOOT but SAFE (R391). -/
def State.beat (s : State) : Option Beat :=
  if s.mstate = .off ∨ s.mstate = .safe ∨ !(s.mreg Reg.XP_STAT).toNat.testBit 5 then none
  else some {
    mstate := BitVec.ofNat 4 s.mstate.code, role := BitVec.ofNat 3 s.xo.role.code, sync := BitVec.ofNat 2 s.xo.sync.code
    lanes3 := decide (s.activeCount = 3), gen := BitVec.ofNat 64 s.gen, digest := s.file.digest.setWidth 32
    chg := BitVec.ofNat 2 s.chg.result, hours := BitVec.ofNat 16 s.dutyHours }

/-- The mirror of the local commands that a lane of the holder has just issued, sent at the output instant (R393). -/
def State.sendMirrors (s : State) : State :=
  if s.xo.role ≠ .holder then s
  else
    let m (l : Lane) : Option Mirror := some ⟨l, false, [(0, (s.lane.get l).field.cmd)]⟩
    { s with xo := { s.xo with out := { s.xo.out with mirror := LaneVec.ofFn m } } }

/-- The mirror of the Platform Link commands of the generation just published, sent at t_pub (R393). -/
def State.sendLinkMirrors (s : State) : State :=
  if s.xo.role ≠ .holder then s
  else
    let cmds := s.file.units.map fun c => (c.unit, (s.unitAdm c.unit).cmds)
    let m (l : Lane) : Option Mirror := some ⟨l, true, cmds⟩
    { s with xo := { s.xo with out := { s.xo.out with mirrorLink := LaneVec.ofFn m } } }

/-- The handshake step as a copy codes it. -/
def HsStep.code : HsStep → Nat
  | .none => 0 | .helloSent => 1 | .finishDue => 3

/-- A session as a state copy carries it (R372). -/
def SessSt.toCopy (S : SessSt) (n : Nat) : SessCopy :=
  let keys : SessKeys := ⟨S.keyTx, S.keyRx, S.saltTx, S.saltRx⟩
  let hs : HsCopy := ⟨BitVec.ofNat 2 S.hs.code, BitVec.ofNat 64 S.hsAt, byteOf S.newEpoch, S.nonce, S.hello, S.key, S.renew, S.newKeys, byteOf S.fails⟩
  { num := BitVec.ofNat 12 n, st := BitVec.ofNat 3 S.st.code, seqTx := BitVec.ofNat 32 S.seqTx, last := BitVec.ofNat 32 S.last
    heard := S.heard, echo := BitVec.ofNat 48 S.echo, toEcho := BitVec.ofNat 48 S.toEcho, dataEcho := BitVec.ofNat 48 S.dataEcho
    accAt := BitVec.ofNat 64 S.accAt, age := BitVec.ofNat 48 S.age, bytes := S.bytes, epoch := byteOf S.epoch, keys := keys
    old := S.oldEpoch.map fun e => (byteOf e, ⟨0, S.oldKeyRx, 0, S.oldSaltRx⟩)
    keyAt := BitVec.ofNat 64 S.keyAt, sent := BitVec.ofNat 32 S.sent, rxBase := BitVec.ofNat 32 S.rxBase, hs := hs
    lastOut := S.lastOut
    rej := BitVec.ofNat 32 (S.rejIdent + S.rejSeq * 0x100 + S.rejAge * 0x10000 + S.rejCode * 0x1000000)
    rej2 := BitVec.ofNat 32 (S.rejMac + S.rejForm * 0x100 + S.dups * 0x10000 + S.hsFail * 0x1000000) }

/-- The bytes of the lines of a memory, and the bits of the words of a map, that hold given keys. -/
def lineBytes (m : List Host.Cell) (keys : List Nat) : List (Nat × Byte) :=
  (keys.foldl (fun ns k => insertNat (k / 32) ns) []).flatMap fun n => (List.range 32).map fun i => (32 * n + i, memGet m (32 * n + i))

def wordBits (m : List (Nat × Bool)) (keys : List Nat) : List (Nat × Bool) :=
  (keys.foldl (fun ns k => insertNat (k / 32) ns) []).flatMap fun n =>
    (List.range 32).map fun i => (32 * n + i, getD false m (32 * n + i))

/-- The pages of a lane state (`writtenPages`). -/
def copyPages : Nat := 705

/-- The package and the shadow programs of a lane, as they go to the standby (R499). -/
def LaneSt.changeCopy (L : LaneSt) : ChangeCopy :=
  let sh := L.shadow
  { pkg := L.staging
    words := (L.logic.banks.filter fun e => e.1 / 2 ^ 22 == sh).map fun e => (e.1 % 2 ^ 22, e.2)
    phases := (L.logic.phasesOf.filter fun e => e.1 / 16 == sh).map fun e => (e.1 % 16, e.2)
    slots := (L.logic.slotsOf.filter fun e => e.1 / 16 == sh).map fun e => (e.1 % 16, e.2) }

/-- A lane of the standby takes them (R499). -/
def LaneSt.takeChange (L : LaneSt) (c : ChangeCopy) : LaneSt :=
  let L := L.emptyShadow
  let sh := L.shadow
  let g := L.logic
  { L with
    staging := c.pkg.foldl (fun (m : List Host.Cell) (e : Nat × Byte) => memPut m e.1 e.2) []
    flash := { L.flash with staged := none, kept := none, keptTill := 0 }
    logic := { g with
      banks := c.words.foldl (fun (m : List (Nat × Word)) (e : Nat × Word) => putD 0 m (sh * 2 ^ 22 + e.1 % 2 ^ 22) e.2) g.banks
      phasesOf := c.phases.foldl (fun (m : List (Nat × Nat)) (e : Nat × Nat) => putD 0 m (sh * 16 + e.1 % 16) e.2) g.phasesOf
      slotsOf := c.slots.foldl (fun (m : List (Nat × Nat)) (e : Nat × Nat) => putD 0 m (sh * 16 + e.1 % 16) e.2) g.slotsOf } }

/-- The lane state and agreed state of a generation that a copy carries besides its lines (R394, R372, R328, R227). -/
def State.copyHead (s : State) (l : Lane) : CopyData :=
  let L := s.lane.get l
  let digests := ((List.range 64).map fun k => segDigest L.image.published k)
    ++ [Config.cellDigest L.logic.blkMem L.logic.loc L.logic.prv]
  { gen := BitVec.ofNat 64 s.gen, runId := s.runId, cycle := BitVec.ofNat 64 s.cyc.num, t0 := BitVec.ofNat 64 s.cyc.t0
    image := [], blocks := [], loc := [], prv := [], inputs := s.inp, sess := L.sess.map fun e => e.2.toCopy e.1
    units := (s.adm.filter fun e => e.2.admitted).map fun e =>
      ⟨BitVec.ofNat 11 e.1, BitVec.ofNat 16 e.2.pdA, BitVec.ofNat 16 e.2.pdB,
        if (L.unitRx e.1).heard then some (BitVec.ofNat 32 (L.unitRx e.1).bc) else none⟩
    ann := if s.link.pending then some (byteOf s.link.pendMode, BitVec.ofNat 32 s.link.target) else none
    areas := s.areas, armed := if s.chg.st = .armed then some (BitVec.ofNat 64 s.chg.target, s.chg.revert) else none
    edges := s.link.edges.map fun e => ⟨byteOf e.1.ch, e.1.rise, e.1.defer, BitVec.ofNat 64 e.1.stamp, BitVec.ofNat 32 e.1.unc,
      if e.2 < 2 ^ 32 then some (BitVec.ofNat 32 e.2) else none⟩
    cmds := s.link.cmds, digests := digests
    modes := LaneVec.ofFn fun x => BitVec.ofNat 3 (s.mode x).code, pages := []
    change := if s.chg.sendDue then some L.changeCopy else none }

/-- The standby is in catch-up. -/
def State.peerCatches (s : State) : Bool := match s.xo.peer with | some b => b.sync == 1 | none => false

/-- The part of a sparse map that lies in pages `ps`: the pages hold `size` keys each, the first is page `p0` (`writtenPages`). -/
def pagePart {V : Type} (ps : List Nat) (p0 size : Nat) (m : List (Nat × V)) : List (Nat × V) :=
  m.filter fun e => ps.contains (p0 + e.1 / size)

/-- One lane's copy of the generation just published (R394): the lines and words that it wrote, and of the pages `ps` what they hold
(R397). -/
def State.copyOf (s : State) (ps : List Nat) (l : Lane) : CopyData :=
  let L := s.lane.get l
  { s.copyHead l with
    image := pagePart ps 0 4096 L.image.published
      ++ L.image.rolling.flatMap fun n => (List.range 32).map fun i => (32 * n + i, memGet L.image.published (32 * n + i))
    blocks := pagePart ps 512 4096 L.logic.blkMem ++ lineBytes L.logic.blkMem (keysDiffer s.lx.prev.blk s.lx.base.blk)
    loc := pagePart ps 640 32768 L.logic.loc ++ wordBits L.logic.loc (keysDiffer s.lx.prev.loc s.lx.base.loc)
    prv := pagePart ps 672 32768 L.logic.prv ++ wordBits L.logic.prv (keysDiffer s.lx.prev.prv s.lx.base.prv)
    pages := ps.map fun p => BitVec.ofNat 10 p }

/-- The pages that the copy window of a cycle holds beside the mirrors and the copy, at 3,100 bytes per µs (R390, R394, R397). -/
def State.pageRoom (s : State) : Nat :=
  ((s.cycleNs / 1000 + 20 - s.tPub) * 3100 - 32 * (s.lane.get s.leadLane).opn.copySize) / 4096

/-- The pages of this cycle: those not sent since they were last written, as many as there is room for (R397); and the pages sent
after them. -/
def State.pagesNow (s : State) : List Nat × List Nat :=
  if s.peerCatches then
    let w := writtenPages s.lx.prev s.lx.base
    let sent := s.xo.sentPages.filter fun p => !w.contains p
    let now := ((List.range copyPages).filter fun p => !sent.contains p).take s.pageRoom
    (now, sent ++ now)
  else ([], [])

/-- t_pub of a cycle at the holder: the copy of the generation before leaves; that of the generation just published, if the cycle
published one, waits for t_pub of the next cycle (R394, R410). -/
def State.sendCopies (s : State) (published : Bool) : State :=
  if s.xo.role ≠ .holder then s
  else
    let q := if published then s.pagesNow else ([], s.xo.sentPages)
    let next : LaneVec (Option CopyData) := LaneVec.ofFn fun l => if published && s.inStep.get l then some (s.copyOf q.1 l) else none
    { s with xo := { s.xo with sentPages := q.2, out := { s.xo.out with copy := s.xo.out.next, next := next } }
             chg := { s.chg with sendDue := s.chg.sendDue && !published } }

/-! ### Role and synchronisation -/

/-- The role changes: `BLK_IRQ.ROLE_CHANGED` (R417). -/
def State.setRole (s : State) (r : PairRole) : State :=
  if s.xo.role = r then s else ({ s with xo := { s.xo with role := r } }).irq Base.xo 1

def State.setXo (s : State) (f : XoSt → XoSt) : State := { s with xo := f s.xo }

/-- Catch-up begins, counted (R396, R397). -/
def State.startCatchup (s : State) : State :=
  if s.xo.sync = .catchup then s
  else (s.setXo fun x => { x with
    sync := .catchup, pagesGen := 0, pages := [], holdSince := none, hoTaken := false }).count Reg.XO_EVENTS 24 8 1

/-- A standby ceases to be synchronised (R396). -/
def State.ceaseSync (s : State) : State := if s.xo.sync = .synced then s.startCatchup else s

/-- A NOTE of the Crossover page. -/
def State.xoAlarm (s : State) (bit : Nat) : State := s.reportAll Base.xo bit 0

/-! ### The duty token and claims (R399 to R401) -/

/-- The module starts to toggle DUTY_TOK_OUT and watches DUTY_TOK_IN. -/
def State.startClaim (s : State) (loss : Bool) : State :=
  (s.setRole .claiming).setXo fun x =>
    { x with claimAt := some s.now, extended := false, lossClaim := loss, synced0 := decide (x.sync = .synced) }

/-- A claim withdrawn (R401). -/
def State.withdraw (s : State) : State :=
  (s.setRole (if s.mstate = .standby then .standby else .none)).setXo fun x =>
    { x with claimAt := none, extended := false, lossClaim := false, hoTaken := false }

/-- The standby declares the holder lost (R399); it claims once DUTY_TOK_IN is still (R401). An offer that it took is void, and a
claim that follows one is now a claim on loss. -/
def State.declareLoss (s : State) : State :=
  if s.mstate ≠ .standby then s
  else
    let s := s.setXo fun x => { x with hoTaken := false }
    if s.xo.role = .claiming then s.setXo fun x => { x with lossClaim := true }
    else if s.xo.role ≠ .standby then s
    else if s.xo.peerTok then s.setXo fun x => { x with lossClaim := true }
    else s.startClaim true

/-- The gate over the lanes' declarations (R399): two lanes in the vote, in 2-out-of-2 operation both. -/
def State.gateOf (s : State) (ls : LaneSet) : Bool := decide (2 ≤ (LaneVec.ofFn fun l => ls.get l && s.isActive l : LaneSet).count)

/-- The lanes that declare the holder lost. -/
def XoSt.declare (x : XoSt) : LaneSet := LaneVec.ofFn fun l => x.hbLost.get l && x.liveLost.get l

/-! ### Entry into the role -/

/-- A stamp's uncertainty 5 µs longer, in the slots whose flags are set (R228). -/
def LaneSt.ageStamps (L : LaneSt) : LaneSt :=
  L.logic.slotMap.foldl (fun L c =>
    let a := slotBase c.slot
    let fl := L.blkByte c.block (a + 27)
    let old (o : Nat) : Nat := ofLe ((List.range 4).map fun i => byteOf (L.blkByte c.block (a + o + i)))
    let add (o : Nat) : Bytes := toLe 4 (min (old o + 5000) 0xFFFFFFFF)
    let L := if fl.testBit 0 then L.blkPut c.block (a + 16) (add 16) else L
    if fl.testBit 1 then L.blkPut c.block (a + 20) (add 20) else L) L

/-- The local commands that the last mirror shows ON, by two lanes. -/
def State.mirrored (s : State) : BitVec 256 :=
  let m := s.xo.mirror
  (m.a &&& m.b) ||| (m.a &&& m.c) ||| (m.b &&& m.c)

/-- The mirrored commands of a lineside unit. -/
def State.mirroredUnit (s : State) (u : Nat) : BitVec 256 := getD 0 (s.xo.mirrorLink.get s.leadLane) u

/-- A session list without what the report sessions hold. -/
def State.closeReports (s : State) : State :=
  s.file.sessions.foldl (fun s c =>
    if c.report then s.updAll fun _ L => L.setSession c.num fun S => S.reopen .closed else s) s

/-- Commands as far as the switches may take them: outputs in service (R262), and in LINESIDE role only what the valid commands
`cmds` of the CENTRAL module demand, nothing after the command timeout (R18). -/
def State.permitted (s : State) (cmds v : BitVec 256) : BitVec 256 :=
  let v := match s.role with
    | .central => v
    | .lineside => if s.link.timedOut then 0 else v &&& cmds
  s.outputs.foldl (fun r n => chanPut r n (chanBit v n && !s.chanOos n)) 0

/-- A new LINESIDE holder that has received no poll of its own drives the copied commands until the command timeout, which then runs
from its entry (R18, R335; DESIGN CHOICE, log 137). -/
def State.startTimeout (s : State) : State :=
  if s.role = .lineside ∧ s.link.pollAt.isNone then { s with link := { s.link with pollAt := some (s.now, s.link.bc64 % 2 ^ 32) } } else s

/-- What every entry into the role does (R228, R402, R505): stamps, the mirrored commands, the change; the filters follow with the
state (R276). -/
def State.takeRole (s : State) (m : MState) : State :=
  let s := (s.startTimeout.setRole .holder).setXo fun x =>
    { x with claimAt := none, extended := false, lossClaim := false, hoTaken := false, hoCycle := none, hoPaused := false,
             hoConf := false, sync := .none, holdSince := none, dutySince := s.now, sentPages := [], armSeen := false }
  let s := s.updAll fun l L =>
    let L := L.ageStamps
    { L with field := { L.field with
        cmd := if s.isActive l then s.permitted s.link.cmds (s.xo.mirror.get l) else 0
        want := if s.isActive l then s.xo.mirror.get l else 0 } }
  let s := s.file.units.foldl (fun s u => s.setUnit u.unit fun a =>
    { a with cmds := s.mirroredUnit u.unit, prevCmds := s.mirroredUnit u.unit }) s
  let s := if s.chg.st = .loading ∨ s.chg.st = .verifying then s.abandonChange else s
  let s := { s.setSrcOffset s.ownOffset with cyc := { s.cyc with step := .idle, pubAt := s.now }, lockedGens := [] }
  (s.enter m).closeReports

/-- The state that the copied header names: RESTART_LOCKED, otherwise DUTY (R402). -/
def State.copiedState (s : State) : MState :=
  if s.hdrState % 16 = MState.restartLocked.hdr then .restartLocked else .duty

/-- J of a Platform Link session (R407): twice the most slots of a unit that start within T, in any Timetable. -/
def StationFile.linkJump (f : StationFile) (u : Nat) : Nat :=
  let starts (t : Timetable) : List Nat := (List.range (max 1 t.n)).flatMap fun pos =>
    (t.entries.filter fun e => e.kind == 2 && e.unit == u && pos % 2 ^ e.period == e.phase).map fun e =>
      pos * (f.bcUnits * 250000) + e.start * 10
  let within (t : Timetable) (x : Nat) : Nat :=
    let c := max 1 (max 1 t.n * (f.bcUnits * 250000))
    ((starts t).map fun y =>
      let d := (y + (c - x % c)) % c
      if d < f.cycleNs then 1 + (f.cycleNs - 1 - d) / c else 0).foldl (· + ·) 0
  2 * (f.tables.foldl (fun m t => (starts t).foldl (fun m x => max m (within t x)) m) 0)

/-- J by session number (R407). -/
def State.jump (s : State) (n : Nat) : Nat :=
  if n < 64 then (if s.role = .lineside ∧ (s.sessCfg n).isNone then 0 else 8)
  else if 2048 ≤ n then 2
  else s.file.linkJump (if s.role = .lineside then s.file.unitId else n - 64)

/-- Every sending counter continues from the copied value plus J, that of a session in HANDSHAKE too. -/
def LaneSt.jumpSessions (L : LaneSt) (j : Nat → Nat) : LaneSt :=
  L.sess.foldl (fun L e =>
    if e.2.st ≠ .unused ∧ e.2.st ≠ .closed then L.setSession e.1 fun S => { S with seqTx := (S.seqTx + j e.1) % 2 ^ 32 } else L) L

/-- The takeover latch (R405): what the last mirror showed OFF. -/
def State.setLatch (s : State) : State :=
  let off := s.outputs.foldl (fun v n => chanPut v n true) (0 : BitVec 256) &&& ~~~s.mirrored
  let s := s.setXo fun x => { x with latch := off }
  s.file.units.foldl (fun s u => s.setUnit u.unit fun a => { a with latch := ~~~(s.mirroredUnit u.unit) }) s

/-- A synchronised standby enters the role on loss (R402, R405, R407). -/
def State.enterLoss (s : State) : State :=
  let s := s.setLatch
  let s := (s.takeRole s.copiedState).count Reg.XO_EVENTS 0 8 1
  let s := s.setXo fun x => { x with takeover := true }
  let s := s.updAll fun _ L => L.jumpSessions s.jump
  match s.role with
  | .central =>
    if s.link.node = .follow then
      ({ s with link := { s.link with node := .master, takeover := true, next := 0, changeLeft := 0 } }).setMaster s.nodeId
    else s
  | .lineside =>
    if s.link.node = .integrated then { s with link := { s.link with node := .answering } } else s

/-- A lane's railway state as after a start-up that took no state: nothing is published, no pin stands (R143). -/
def LaneSt.clearRailway (L : LaneSt) : LaneSt :=
  let L := (L.setReg Reg.IMAGE_GEN 0).setReg Reg.IMAGE_GEN_HI 0
  { L with
    shown := SMap.put resetOf (SMap.put resetOf L.shown Reg.IMAGE_GEN 0) Reg.IMAGE_GEN_HI 0
    image := { L.image with
      working := [], published := [], dirty := [], rolling := [], store := [], pins := [], rolled := true }
    logic := { L.logic with loc := [], prv := [], blkMem := [], cells := [], held := [], tcCmds := [], asserts := [], out := [],
                            closedAt := [] } }

/-- A new run without the state of the peer: a free run identity, never 0 (R136). The last copied inputs stay until the filters
have taken them (R276). -/
def State.startAfresh (s : State) : State :=
  let q : Word × State := s.fresh
  let s : State := (q.2.updAll fun _ L => L.clearRailway).setXo fun x => { x with latch := 0, mirror := .all 0, mirrorLink := .all [] }
  let run : Word := if q.1 = 0 then 1 else q.1
  { s with runId := run, gen := 0, areas := 0, comm := false, adm := [], xo := { s.xo with gen := 0 } }

/-- No session of the Cabinet Bus stands: each opens anew with its port (R404). -/
def State.forgetCan (s : State) : State := s.updAll fun _ L => { L with sess := L.sess.filter fun e => decide (e.1 < 2048) }

/-- No agreed inputs stand. -/
def State.forgetInputs (s : State) : State := { s with inp := [], inpPrev := [] }

/-- A standby that was not synchronised takes the role on loss (R404), unless its own report has brought it to SAFE. -/
def State.enterUnsynced (s : State) : State :=
  let s := s.xoAlarm 6
  if s.mstate = .safe then s else
  match s.role with
  | .central =>
    let s := s.startAfresh.forgetCan
    let s := (s.takeRole .restartLocked).openSessions.forgetInputs
    if s.link.node = .follow then
      ({ s with link := { s.link with node := .master, takeover := true, next := 0, changeLeft := 0 } }).setMaster s.nodeId
    else s
  | .lineside =>
    let s := (s.forgetCan.setRole .holder).setXo fun x =>
      { x with claimAt := none, extended := false, lossClaim := false, sync := .none, dutySince := s.now, gen := 0 }
    let s := { s with link := { s.link with cmds := 0, cmdsFrozen := 0, cmdAck := 0xFFFFFFFF, pollAt := none, pubIn := 0, pubServ := 0 } }
    let s := s.updAll fun _ L => (L.setSession ownSess fun S => S.reopen .closed).ageStamps
    if s.link.node = .integrated then { s with link := { s.link with node := .answering } } else s

/-- The new holder of a planned handover (R410): both ladders carry the same commands; it evaluates from the first cycle whose t0
follows its entry by 20 µs. -/
def State.enterPlanned (s : State) : State :=
  let s := (s.takeRole s.copiedState).count Reg.XO_EVENTS 8 8 1
  let s := s.setXo fun x => { x with hoPaused := true, evalFrom := s.now + 20000 }
  if s.role = .lineside ∧ s.link.node = .integrated then { s with link := { s.link with node := .answering } } else s

/-- A module takes the role in SYNC without state from its peer (R392). -/
def State.enterStart (s : State) : State :=
  let s := (s.setRole .holder).setXo fun x => { x with claimAt := none, extended := false, dutySince := s.now }
  match s.role with
  | .central => s.firstService .restartLocked
  | .lineside =>
    if s.link.node = .integrated then { s with link := { s.link with node := .answering } } else s

/-- The end of a claim that succeeded: planned (R410), or on loss, as a synchronised standby (R402) or not (R404). A module in
2-out-of-2 operation takes no duty by planned handover (R57), nor does one whose offer has become void. -/
def State.enterRole (s : State) : State :=
  if s.mstate = .sync then s.enterStart
  else if s.mstate ≠ .standby then s
  else if s.xo.hoTaken then (if s.twoOfTwo then s.withdraw else s.enterPlanned)
  else if !s.xo.lossClaim then s.withdraw
  else if s.xo.synced0 then s.enterLoss
  else s.enterUnsynced

/-! ### Roles at start-up (R392, R506) -/

/-- Since when the peer has been a synchronised standby with three ACTIVE lanes, at a heartbeat (R412). -/
def XoSt.sinceOf (x : XoSt) (now : Nat) (h : Beat) : Option Nat :=
  if h.sync = 2 ∧ h.role = 2 ∧ h.lanes3 then (match x.peerSince with | some t => some t | none => some now) else none

/-- The digest [31:0] of the ACTIVE file. -/
def State.fileDigest (s : State) : Word := s.file.digest.setWidth 32

/-- A standby with another file takes the holder's whole and makes a module reset (R506). -/
def State.takeFile (s : State) (d : Word) : State :=
  let s := s.event Base.sv 0x115 d.toNat
  (s.updAll fun _ L => { L with flash := { L.flash with active := Config.peerFile d } }).moduleReset

/-- The module becomes STANDBY and catches up; a node that is master passes it on. -/
def State.becomeStandby (s : State) : State :=
  match s.xo.peer with
  | some b =>
    if b.digest ≠ s.fileDigest then s.takeFile b.digest
    else (((s.setRole .standby).firstService .standby).startCatchup).passMaster
  | none => (((s.setRole .standby).firstService .standby).startCatchup).passMaster

/-- The table of R392. -/
def State.settleRole (s : State) : State :=
  if s.mstate ≠ .sync ∨ !s.file.paired ∨ s.xo.role = .holder ∨ s.xo.role = .claiming then s
  else if s.xo.peerTok then s.becomeStandby
  else if s.xo.hb ∧ s.pref ∧ s.xo.role = .none then
    match s.xo.peer with
    | some b => if b.mstate.toNat ≤ 4 then s.startClaim false else s
    | none => s
  else s

/-- HEARTBEAT (R391): what the peer tells; `live` and `tok` tell that PEER_LIVE_IN and DUTY_TOK_IN have toggled since the heartbeat
before (R389). A holder whose standby is no longer synchronised releases what it holds (R147). -/
def execHeartbeat (h : Beat) (live tok : Bool) (s : State) : Host.Outcome State Fault Refusal :=
  if s.mstate = .off ∨ s.mstate = .safe then .next s
  else
    let had := s.hasStandby
    let catches := s.peerCatches
    let s := s.setXo fun x => { x with
      hb := true, peer := some h, peerSince := x.sinceOf s.now h, hbLost := .all false
      liveLost := if live then .all false else x.liveLost
      peerLive := live || x.peerLive, peerTok := tok || x.peerTok
      sentPages := if h.sync = 1 && !catches then [] else x.sentPages }
    let s := { s with chg := { s.chg with peer := h.chg } }
    let s := s.setMreg Reg.XP_STAT (s.mreg Reg.XP_STAT ||| 0x21)
    let s := if had ∧ !s.hasStandby then s.flushHeld else s
    .next (if s.deg.expired ∧ s.mstate = .duty then s.degExpire else s.degHandover).settleRole

/-- XO_LINK: lanes have seen no heartbeat for 8 µs (R399, R400). -/
def execXoLink (by_ : LaneSet) (s : State) : Host.Outcome State Fault Refusal :=
  let had := s.hasStandby
  let s := s.setXo fun x => { x with hbLost := orLanes x.hbLost by_ }
  if !s.gateOf s.xo.hbLost then .next s
  else
    let s := s.setXo fun x => { x with hb := false, peerSince := none }
    let s := s.setMreg Reg.XP_STAT (s.mreg Reg.XP_STAT &&& ~~~(0x20 : Word))
    let s := if had then s.flushHeld else s
    if s.mstate ≠ .standby then .next s
    else if s.gateOf s.xo.declare then .next s.declareLoss
    else .next ((s.xoAlarm 0).ceaseSync)

/-- PEER_LIVE: lanes find that PEER_LIVE_IN has stopped (R399, R400). -/
def execPeerLive (by_ : LaneSet) (s : State) : Host.Outcome State Fault Refusal :=
  let s := s.setXo fun x => { x with liveLost := orLanes x.liveLost by_ }
  if !s.gateOf s.xo.liveLost then .next s
  else
    let s := s.setXo fun x => { x with peerLive := false }
    if s.mstate ≠ .standby then .next s
    else if s.gateOf s.xo.declare then .next s.declareLoss
    else .next (s.xoAlarm 1)

/-- DUTY_TOK_STILL (R389): a handover or a loss that waited for it claims (R401, R410). -/
def execDutyTokStill (s : State) : Host.Outcome State Fault Refusal :=
  let s := s.setXo fun x => { x with peerTok := false }
  if s.mstate = .sync then .next s.settleRole
  else if s.mstate = .standby ∧ s.xo.role = .standby then
    .next (if s.xo.hoTaken ∧ !s.twoOfTwo then s.startClaim false else if s.xo.lossClaim then s.startClaim true else s)
  else .next s

/-- The wait of 2 s in SYNC ends without a claim of the peer: the module claims, unless the peer stands in SYNC, whose claim it
awaits (R392). -/
def State.endWait (s : State) : State :=
  let peerInSync : Bool := s.xo.hb && (match s.xo.peer with | some b => b.mstate.toNat == MState.sync.code | none => false)
  if s.mstate = .sync ∧ s.file.paired ∧ s.xo.role = .none ∧ !s.xo.peerTok ∧ !peerInSync ∧ s.xo.syncAt + 2000000000 ≤ s.now then
    s.startClaim false
  else s

/-- The instant at which the window of a claim ends: 5 µs, once extended by 5 µs (R401). -/
def XoSt.windowEnd (x : XoSt) (t : Nat) : Nat := t + (if x.extended then 10000 else 5000)

/-- A claim at the end of its window (R401). -/
def State.endWindow (s : State) (edgeSeen lastStill stillAtEnd : Bool) : Host.Outcome State Fault Refusal :=
  if !s.pref then
    if edgeSeen then
      let s := (s.withdraw).setXo fun x => { x with peerTok := true }
      .next s.settleRole
    else .next s.enterRole
  else if !s.xo.extended then
    if lastStill then .next s.enterRole
    else .next (s.setXo fun x => { x with extended := true })
  else if stillAtEnd then .next s.enterRole
  else
    let s := (s.withdraw.xoAlarm 4).setXo fun x => { x with peerTok := true }
    .next s.settleRole

/-- CLAIM_WINDOW_END (R401). In SYNC it also ends the wait of R392 of a module that has not claimed. -/
def execClaimWindowEnd (edgeSeen lastStill stillAtEnd : Bool) (s : State) : Host.Outcome State Fault Refusal :=
  match s.xo.claimAt with
  | none => .next s.endWait
  | some t => if s.now < s.xo.windowEnd t then .next s else s.endWindow edgeSeen lastStill stillAtEnd

/-! ### Mirrors and copies (R393 to R397) -/

/-- Data of the twins has come by lanes of the Crossover: these are aligned (R419). -/
def State.twinUp (s : State) (ls : LaneSet) : State :=
  s.setMreg Reg.XP_STAT (s.mreg Reg.XP_STAT ||| BitVec.ofNat 32 (1 + ls.a.toNat * 4 + ls.b.toNat * 8 + ls.c.toNat * 16))

/-- MIRROR (R393). -/
def execMirror (m : Mirror) (s : State) : Host.Outcome State Fault Refusal :=
  if s.mstate ≠ .standby then .next s
  else
    let s := s.twinUp (oneLane m.lane)
    if m.link then
      .next (s.setXo fun x => { x with mirrorLink := x.mirrorLink.set m.lane (SMap.puts (fun _ => 0) [] m.cmds) })
    else .next (s.setXo fun x => { x with mirror := x.mirror.set m.lane (getD 0 m.cmds 0) })

/-- `TB_S_STATE.STATE` read back. -/
def sessStateOf : Nat → SessState
  | 1 => .closed | 2 => .handshake | 3 => .opening | 4 => .opened | 5 => .renewing | _ => .unused

/-- A handshake step read back. -/
def hsStepOf : Nat → HsStep
  | 1 => .helloSent | 3 => .finishDue | _ => .none

/-- The handshake of a copied session (R365, R372). -/
def SessSt.hsOfCopy (S : SessSt) (c : HsCopy) : SessSt :=
  { S with
    hs := hsStepOf c.step.toNat, hsAt := c.at_.toNat, newEpoch := c.epoch.toNat, nonce := c.nonce, hello := c.hello, key := c.key
    renew := c.renew, newKeys := c.taken, fails := c.fails.toNat }

/-- The rejections of a copied session, as its two registers show them (R372, R383). -/
def SessSt.rejOfCopy (S : SessSt) (c : SessCopy) : SessSt :=
  { S with
    rejIdent := fieldOf c.rej 0 8, rejSeq := fieldOf c.rej 8 8, rejAge := fieldOf c.rej 16 8, rejCode := fieldOf c.rej 24 8
    rejMac := fieldOf c.rej2 0 8, rejForm := fieldOf c.rej2 8 8, dups := fieldOf c.rej2 16 8, hsFail := fieldOf c.rej2 24 8 }

/-- A copied session (R372). -/
def SessSt.ofCopy (S : SessSt) (c : SessCopy) : SessSt :=
  let S := { S with
    st := sessStateOf c.st.toNat, seqTx := c.seqTx.toNat, last := c.last.toNat, heard := c.heard, echo := c.echo.toNat
    toEcho := c.toEcho.toNat, dataEcho := c.dataEcho.toNat, accAt := c.accAt.toNat, age := c.age.toNat, bytes := c.bytes
    lastOut := c.lastOut }
  let S := { S with
    epoch := c.epoch.toNat, keyTx := c.keys.keyTx, keyRx := c.keys.keyRx, saltTx := c.keys.saltTx, saltRx := c.keys.saltRx
    keyAt := c.keyAt.toNat, sent := c.sent.toNat, rxBase := c.rxBase.toNat }
  let S : SessSt := match c.old with
    | some o => { S with oldEpoch := some o.1.toNat, oldKeyRx := o.2.keyRx, oldSaltRx := o.2.saltRx }
    | none => { S with oldEpoch := none, oldKeyRx := 0, oldSaltRx := 0 }
  (S.hsOfCopy c.hs).rejOfCopy c

/-- A lane applies its twin's copy (R395): image, cells, sessions, units. What a page of catch-up does not list there reads 0 (R397). -/
def LaneSt.applyCopy (L : LaneSt) (report : Nat → Bool) (c : CopyData) : LaneSt :=
  let ps := c.pages.map fun p => p.toNat
  let rest (p0 size k : Nat) : Bool := !ps.contains (p0 + k / size)
  let lines := ((c.image ++ pagePart ps 0 4096 L.image.published).map fun e => e.1 / 32).foldl (fun xs n => insertNat n xs) []
  let L := (L.keepLines L.pubGen L.image.published lines).noteLines lines.length
  let img := c.image.foldl (fun m e => memPut m e.1 e.2) (L.image.published.filter fun e => rest 0 4096 e.1)
  let g := L.logic
  let L := { L with
    image := { L.image with working := img, published := img, dirty := [], rolling := [], rolled := true }
    logic := { g with
      blkMem := c.blocks.foldl (fun (m : List Host.Cell) (e : Nat × Byte) => memPut m e.1 e.2)
        (g.blkMem.filter fun e => rest 512 4096 e.1)
      loc := c.loc.foldl (fun (m : List (Nat × Bool)) (e : Nat × Bool) => putD false m e.1 e.2) (g.loc.filter fun e => rest 640 32768 e.1)
      prv := c.prv.foldl (fun (m : List (Nat × Bool)) (e : Nat × Bool) => putD false m e.1 e.2)
        (g.prv.filter fun e => rest 672 32768 e.1) }
    rx := c.inputs.foldl (fun (m : List (Nat × BitVec 512)) (e : Nat × BitVec 512) => putD 0 m e.1 e.2) L.rx }
  let L := c.sess.foldl (fun L e =>
    if report e.num.toNat then L else L.setSession e.num.toNat fun S => { S.ofCopy e with store := L.keys }) L
  let L := c.units.foldl (fun L u => match u.bc with
    | some bc => L.setUnitRx u.unit.toNat fun r => { r with bc := bc.toNat, heard := true }
    | none => L) L
  L.agePins L.pubGen

/-- A lane's image and cells have the digests that its copy carries. -/
def LaneSt.copyAgrees (L : LaneSt) (c : CopyData) : Bool :=
  ((List.range 64).all fun k => segDigest L.image.published k == c.digests.getD k 0)
    && Config.cellDigest L.logic.blkMem L.logic.loc L.logic.prv == c.digests.getD 64 0

/-- Two lanes have the same digests. -/
def LaneSt.sameDigests (L M : LaneSt) : Bool :=
  (segDiffer L.image.published M.image.published).isEmpty
    && Config.cellDigest L.logic.blkMem L.logic.loc L.logic.prv == Config.cellDigest M.logic.blkMem M.logic.loc M.logic.prv

/-- The freeze nearest to an instant: that of the cycle which the instant names (R227). -/
def nearest : List Nat → Nat → Nat → Nat
  | [], _, best => best
  | x :: xs, t, best => nearest xs t (if (diff64 x t).natAbs < (diff64 best t).natAbs then x else best)

/-- The standby holds the file that an armed change names, so that it can follow the change (R396, R501). -/
def State.canFollow (s : State) (revert : Bool) : Bool :=
  let f := (s.lane.get s.leadLane).flash
  (s.chg.st == .verified || s.chg.st == .armed || s.chg.st == .swapped) && (if revert then f.kept else f.staged).isSome

/-- A LINESIDE standby that has taken a poll of its own within a cycle keeps those commands: the copy was read a cycle ago (R18; DEDUCED,
log 138). -/
def State.ownPollSince (s : State) : Bool :=
  match s.link.pollAt with
  | some t => decide (s.now < t.1 + s.cycleNs)
  | none => false

/-- The holder has armed a change that the standby cannot follow: told by the first copy that carries it, it ends the synchronisation
(R396). -/
def State.noteArmed (s : State) (armed : Option (DWord × Bool)) : State :=
  let seen := s.xo.armSeen
  let s := s.setXo fun x => { x with armSeen := armed.isSome }
  match armed with
  | some t => if seen || s.canFollow t.2 || s.xo.sync != .synced then s else (s.xoAlarm 3).ceaseSync
  | none => s

/-- What the module as a whole takes from a copy: numbers, inputs, units, announcement, areas, armed change, the edges and
commands of a lineside pair. -/
def State.takeCopy (s : State) (c : CopyData) : State :=
  let s := { s with
    gen := c.gen.toNat, runId := c.runId, areas := c.areas, inpPrev := s.inp, inp := SMap.puts (fun _ => 0) [] c.inputs
    cyc := { s.cyc with num := c.cycle.toNat }, comm := s.hdrState.testBit 8 }
  let s := s.setSrcOffset (diff64 (nearest s.cyc.t0s c.t0.toNat s.cyc.t0) c.t0.toNat)
  let s := { s with adm := s.adm.filter fun e => c.units.any fun u => u.unit.toNat == e.1 }
  let s := c.units.foldl (fun s u => s.setUnit u.unit.toNat fun a =>
    { a with admitted := true, pdA := u.pdA.toNat, pdB := u.pdB.toNat }) s
  let s : State := match c.ann with
    | some a => { s with link := { s.link with pending := true, pendMode := a.1.toNat, target := a.2.toNat } }
    | none => s
  let s : State := match c.armed with
    | some t =>
      if s.canFollow t.2 then
        { s with chg := { s.chg with st := .armed, target := t.1.toNat, revert := t.2 } }
      else s
    | none =>
      if s.chg.st = .armed ∧ s.hdrState.testBit 10 = ((s.lane.get s.leadLane).logic.bank == 1) then
        { s with chg := { s.chg with st := if s.chg.revert then .swapped else .verified, target := 0 } }
      else s
  if s.role = .lineside then
    { s with link := { s.link with
      pubIn := (getD 0 s.inp 0).setWidth 256, pubServ := (getD 0 s.inp 0x401).setWidth 256
      cmds := if s.ownPollSince then s.link.cmds else c.cmds
      edges := c.edges.map fun e => (⟨e.ch.toNat, e.rise, e.stamp.toNat, e.unc.toNat, e.defer⟩,
        match e.bc with | some b => b.toNat | none => neverSent) } }
  else s

/-- The accepted values of the copied journal, in the registers of a lane (R93); the fields that a standby writes for itself,
`BANK_CLEAR` and `KS_LOAD`, where `own` tells that the journal is the module's own (R89). -/
def LaneSt.applyJournal (L : LaneSt) (own : Bool) : LaneSt :=
  (List.range 512).foldl (fun L n =>
    let a := L.imgLe (Img.journal + 8 * n) 4
    let v := BitVec.ofNat 32 (L.imgLe (Img.journal + 8 * n + 4) 4)
    if a = 0 then L
    else match rowOf a with
      | some _ => if ownOfStandby a && !own then L else L.setReg a (keepWb a (L.reg a) v)
      | none => L) L

/-- The accepted value of a register in the journal of a lane. -/
def LaneSt.journalValue (L : LaneSt) (addr : Nat) : Option Nat :=
  ((List.range 512).find? fun n => L.imgLe (Img.journal + 8 * n) 4 == addr).map fun n => L.imgLe (Img.journal + 8 * n + 4) 4

/-- A standby clears Tally records when it applies a journal entry of `TALLY_CLEAR` (R565): one that the copy has brought
or changed (log 23). -/
def State.journalTally (s : State) (old : Option Nat) : State :=
  match (s.lane.get s.leadLane).journalValue Reg.TALLY_CLEAR with
  | some v => if old = some v then s else s.tallyClearGo (BitVec.ofNat 32 v) []
  | none => s

/-- The classes of detectors follow the copied journal's `BLK_CLASS` values. -/
def State.journalClasses (s : State) : State :=
  let L := s.lane.get s.leadLane
  (List.range 512).foldl (fun s n =>
    let a := L.imgLe (Img.journal + 8 * n) 4
    let v := BitVec.ofNat 32 (L.imgLe (Img.journal + 8 * n + 4) 4)
    if a % 0x1000 = 0x24 then match FClass.ofCode (fieldOf v 8 3) with
      | some c => s.setClass (Blk.ofOff a) (fieldOf v 0 5) c
      | none => s
    else s) s

/-- The lanes' comparison with the carried digests (R395): a minority is excluded and the other lanes confirm; two lanes that agree with
one another but not with the carried digests end the synchronisation; lanes that all differ take the module to SAFE (R42, R52).
`true` when every lane that is then ACTIVE agrees. -/
def State.compareCopy (s : State) (c : LaneVec CopyData) : Bool × State :=
  let ok (l : Lane) : Bool := !s.isActive l || (s.lane.get l).copyAgrees (c.get l)
  let bad := Lane.list.filter fun l => !ok l
  let same (x y : Lane) : Bool := s.isActive x && s.isActive y && (s.lane.get x).sameDigests (s.lane.get y)
  if bad.isEmpty then (true, s)
  else if s.activeCount = 3 ∧ bad.length = 1 then (true, bad.foldl (fun s l => s.minority l 0x02) s)
  else if same .A .B || same .A .C || same .B .C then
    (false, (s.xoAlarm 3).ceaseSync.setXo fun x => { x with pagesGen := 0 })
  else if s.activeCount = 3 then (false, s.safeByAll 0x02)
  else (false, s.safeByAll 0x03)

/-- A generation whose copy agreed: its confirmation is sent, and a standby in catch-up that has held a complete page set for two
generations is synchronised (R145, R395, R397). -/
def State.copyConfirmed (s : State) (gen : Nat) : State :=
  let becomes : Bool := decide (2 ≤ s.xo.pagesGen) && s.xo.sync == .catchup
  (s.setXo fun x => { x with
    sync := if becomes then .synced else x.sync, holdSince := if becomes then some s.now else x.holdSince
    out := { x.out with conf := some (BitVec.ofNat 64 gen) } }).putFrame .xh (xhBytes 1 gen)

/-- A copy applied: the generation, the holder's lane states, the pages that every lane of the standby holds now, the generations for
which they have been complete (R394, R397). -/
def State.notePages (s : State) (c : LaneVec CopyData) : State :=
  let lead := c.get s.leadLane
  let new := (lead.pages.map fun p => p.toNat).filter fun p =>
    Lane.list.all fun l => !s.parts.get l || (c.get l).pages.any fun q => q.toNat == p
  s.setXo fun x =>
    let pages := new.foldl (fun ps p => insertNat p ps) x.pages
    { x with gen := lead.gen.toNat, peerModes := lead.modes, pages
             pagesGen := if copyPages ≤ pages.length then min 2 (x.pagesGen + 1) else 0 }

/-- A synchronised standby that receives a change verifies it (R499). -/
def State.takeChange (s : State) (c : LaneVec CopyData) : State :=
  if s.xo.sync = .synced ∧ (c.get s.leadLane).change.isSome then
    let s := s.updIn s.parts fun l L => match (c.get l).change with
      | some x => L.takeChange x
      | none => L
    { s with chg := { st := .verifying } }
  else s

/-- The change of banks that a standby makes with the copy of the first generation whose `BANK` differs from its own; one that does
not hold the change cannot follow it and ceases to be synchronised (R396, R502). -/
def State.followSwap (s : State) : State :=
  let L := s.lane.get s.leadLane
  if s.hdrState.testBit 10 = (L.logic.bank == 1) then s
  else if s.chg.st = .armed ∧ (if s.chg.revert then L.flash.kept else L.flash.staged).isSome then s.swapBanks
  else (s.xoAlarm 3).ceaseSync

/-- The header of the generation just applied names another file than the ACTIVE one (R506). -/
def State.otherFile (s : State) (gen : Nat) : Option Word :=
  let L := s.lane.get s.leadLane
  let d := BitVec.ofNat 32 (memLe L.image.published 0x1C 4)
  if L.pubGen = gen ∧ d ≠ s.fileDigest then some d else none

/-- A generation is missing: the copy was abandoned (R133, R396). In catch-up the pages begin anew, since what it changed is not known
(R397). -/
def State.noteSkip (s : State) (gen : Nat) : State :=
  if s.xo.gen == 0 || gen == s.xo.gen + 1 then s
  else if s.xo.sync == .synced then ((s.xoAlarm 2).count Reg.XO_EVENTS 16 8 1).ceaseSync
  else if s.xo.sync == .catchup then s.setXo fun x => { x with pages := [], pagesGen := 0 }
  else s

/-- What the lanes and the module take from a copy (R93, R394, R395, R499, R502). -/
def State.applyCopies (s : State) (c : LaneVec CopyData) : State :=
  let report (n : Nat) : Bool := match s.sessCfg n with | some k => k.report | none => false
  let old := (s.lane.get s.leadLane).journalValue Reg.TALLY_CLEAR
  let s := s.updIn s.parts fun l L => L.applyCopy report (c.get l)
  let s := (((s.noteArmed (c.get s.leadLane).armed).takeCopy (c.get s.leadLane)).journalClasses).journalTally old
  let s := s.updIn s.parts fun _ L => L.applyJournal false
  (s.takeChange c).followSwap

/-- The generation of a copy shown, compared and confirmed (R73, R395, R397, R485). A lane has the digests that its copy carries only
when it holds every page (DEDUCED, log 121). -/
def State.showCopy (s : State) (c : LaneVec CopyData) : State :=
  let s := { s with power := { s.power with forceInd := decide (s.hdrState / 64 % 8 ≠ 0) } }
  let s := s.updIn s.parts fun _ L =>
    (L.noteRegs s.gen s.runId s.areas s.cyc.num L.forceCount (L.runningTimers s.file) s.power.tamper).ageClosed
  let s := s.markPages.notePages c
  let q := if s.xo.pagesGen = 0 then (false, s) else s.compareCopy c
  (if q.1 then q.2.copyConfirmed (c.get s.leadLane).gen.toNat else q.2).noteSeen

/-- STATE_COPY (R394 to R398, R485, R502, R506). -/
def execStateCopy (c : LaneVec CopyData) (s : State) : Host.Outcome State Fault Refusal :=
  if s.mstate ≠ .standby then .next s
  else
    let lead := c.get s.leadLane
    let s := ((s.twinUp (.all true)).noteSkip lead.gen.toNat).applyCopies c
    if s.mstate ≠ .standby then .next s
    else match s.otherFile lead.gen.toNat with
      | some d => .next (s.takeFile d)
      | none => .next (s.showCopy c)

/-- The old holder of a planned handover has paused (R410). -/
def XoSt.handsOver (x : XoSt) : Bool := x.hoPaused && x.hoCycle.isSome

/-- CONFIRMATION (R145, R146, R410). -/
def execConfirmation (gen : DWord) (s : State) : Host.Outcome State Fault Refusal :=
  if s.xo.role ≠ .holder ∧ s.xo.role ≠ .handing then .next s
  else
    let s := s.setXo fun x => { x with
      gen := max x.gen gen.toNat, hoConf := x.hoConf || (x.handsOver && gen.toNat == s.gen)
      confAt := if x.handsOver && gen.toNat == s.gen && !x.hoConf then s.now else x.confAt }
    .next (s.releaseUpTo gen.toNat)

/-- What the registers of the Crossover PHY show of the port (R419). -/
def State.notePort (s : State) (p : XoPort) : State :=
  let bits := p.present.toNat + p.los.toNat * 2 + p.up.a.toNat * 4 + p.up.b.toNat * 8 + p.up.c.toNat * 16 + p.xh.toNat * 32
  let e := s.mreg Reg.XP_ERR
  let s := (s.setXo fun x => { x with linkUp := p.up }).setMreg Reg.XP_STAT (BitVec.ofNat 32 bits)
  s.setMreg Reg.XP_ERR (BitVec.ofNat 32 (satAdd 16 (fieldOf e 0 16) p.code.toNat + satAdd 16 (fieldOf e 16 16) p.crc.toNat * 65536))

/-- CROSSOVER_LANE_FAILURE (R396, R419): the port as its hardware finds it; without XH, or with two of XA to XC failed for more than
8 µs, a standby is synchronised no longer. -/
def execCrossoverLaneFailure (p : XoPort) (s : State) : Host.Outcome State Fault Refusal :=
  let had := s.hasStandby
  let s := s.notePort p
  if p.up.count ≤ 1 ∨ !p.xh then
    if s.mstate = .standby then .next ((s.xoAlarm 0).ceaseSync)
    else
      let s := s.setXo fun x => { x with sentPages := [], peer := x.peer.map fun b => { b with sync := 1 } }
      .next (if had then s.flushHeld else s)
  else .next s

/-! ### Planned handover (R409 to R413) -/

/-- A write of `XO_CTRL` (R409). -/
def State.handoverGo (s : State) (d : Word) : State := if d.toNat.testBit 0 then s.startHandover else s

def State.handoverWriteBar (s : State) (d : Word) : Nat :=
  if d.toNat.testBit 0 then s.handoverBar.getD 0 else 0

/-- HANDOVER (R409). -/
def execHandover (p : Port) (d : Word) (s : State) : Host.Outcome State Fault Refusal :=
  .next (s.agreedWrite p Reg.XO_CTRL d (fun _ => s.handoverWriteBar d) fun _ s => s.handoverGo d)

/-- HANDOVER_OFFER (R410, R57): a synchronised standby with three ACTIVE lanes prepares to claim. -/
def execHandoverOffer (cycle : DWord) (s : State) : Host.Outcome State Fault Refusal :=
  if s.mstate = .standby ∧ s.xo.role = .standby ∧ s.xo.sync = .synced ∧ !s.twoOfTwo then
    .next (s.setXo fun x => { x with hoTaken := true, hoCycle := some cycle.toNat })
  else .next s

/-- The master change has been announced in two reference frames, where one is needed (R410). -/
def State.masterPassed (s : State) : Bool :=
  s.role == .lineside || s.link.node != .master || (s.link.next != 0 && s.link.changeLeft == 0)

/-- DUTY_TOK_STOP, 10 µs after the confirmation (R410). -/
def execDutyTokStop (s : State) : Host.Outcome State Fault Refusal :=
  if s.xo.role = .holder ∧ s.xo.handsOver ∧ s.xo.hoConf ∧ s.masterPassed ∧ s.xo.confAt + 10000 ≤ s.now then .next (s.setRole .handing) else .next s

/-- Every OUTPUT channel has completed its complete set of tests since an instant (R265, R412). -/
def State.testsSince (s : State) (t : Nat) : Bool :=
  s.outputs.all fun n =>
    decide (t ≤ (s.chan n).inAt) && ((List.range 6).all fun i => decide (t ≤ (s.chan n).swAt.getD i 0))
      && (!s.darkTestable n || decide (t ≤ (s.chan n).darkAt))

/-- OLD_LADDERS_OPEN: the old holder is a synchronised standby (R410); one that hands over at the limit of 2-out-of-2
operation then enters SAFE (R55). -/
def execOldLaddersOpen (s : State) : Host.Outcome State Fault Refusal :=
  if s.xo.role ≠ .handing then .next s
  else
    let done := s.testsSince s.xo.dutySince
    let s := s.abandonChange.updAll fun _ L => { L.closeShadows with field := { L.field with cmd := 0, want := 0 } }
    let s := (s.setRole .standby).setXo fun x => { x with
      sync := .synced, gen := s.gen, pagesGen := 2, pages := List.range copyPages, hoCycle := none, hoPaused := false, hoConf := false, holdSince := some s.now, hoTaken := false, armSeen := false
      sinceDuty := if done then s.now else x.sinceDuty, overdue := false, latch := 0 }
    let s := { s with
      prepare := none, confirmed := false, lockedGens := []
      adm := s.adm.map fun (e : Nat × UnitAdm) => (e.1, { e.2 with latch := 0 }) }
    let s := (s.enter .standby).openSessions.count Reg.XO_EVENTS 8 8 1
    let s := if s.role = .lineside ∧ s.link.node = .answering then { s with link := { s.link with node := .integrated } } else s
    .next (if s.deg.expired then s.safeByAll 0x04 else s)

/-- The peer has been a synchronised standby with three ACTIVE lanes for `REVERT_HOLD` (R412). -/
def State.revertHeld (s : State) : Bool :=
  match s.xo.peerSince with
  | some t => decide (t + s.file.revert * 1000000000 ≤ s.now)
  | none => false

/-- REVERTIVE_RETURN (R412, R57). -/
def execRevertiveReturn (s : State) : Host.Outcome State Fault Refusal :=
  if s.xo.role = .holder ∧ !s.pref ∧ !s.twoOfTwo ∧ s.revertHeld ∧ s.testsSince s.xo.dutySince then .next s.autoHandover
  else .next s

/-- The standby's `SINCE_DUTY` has reached `SWAP_INTERVAL` (R413). -/
def State.swapReached (s : State) : Bool :=
  match s.xo.peer with
  | some b => decide (s.file.swapHours ≤ b.hours.toNat)
  | none => false

/-- ROLE_SWAP (R413): a swap that cannot start is overdue until it is made, noted once per hour and tried
again after 10 s without another NOTE (R409; DEDUCED, log 140). -/
def execRoleSwap (s : State) : Host.Outcome State Fault Refusal :=
  if s.xo.role ≠ .holder ∨ !s.file.swapEn ∨ !s.swapReached ∨ s.now < s.xo.retryAt then .next s
  else match s.handoverBar with
    | none => .next s.startHandover
    | some _ =>
      let again : Bool := !s.xo.overdue || decide (s.xo.overdueAt + 3600000000000 ≤ s.now)
      let s := s.setXo fun x => { x with overdue := true, retryAt := s.now + 10000000000 }
      .next (if again then (s.setXo fun x => { x with overdueAt := s.now }).xoAlarm 5 else s)

/-! ### Registers (R417) -/

/-- The 1 bits of a map. -/
def bitCount (w : Nat) (v : BitVec w) : Nat := ((List.range w).filter fun i => v.toNat.testBit i).length

def State.viewXo (s : State) (v : Seen) (off : Nat) : Option Nat :=
  if off = Reg.XO_CFG then
    some (v.file.paired.toNat + s.pref.toNat * 2 + v.file.swapEn.toNat * 4
      + (if v.file.paired then v.file.revert % 4096 * 16 + v.file.swapHours % 256 * 65536 else 0))
  else if off = Reg.XO_STATE then
    let x := s.xo
    let sync := if x.role = .holder ∨ x.role = .handing then
        (match x.peer with | some b => if x.hb then b.sync.toNat else 0 | none => 0)
      else x.sync.code
    some (x.role.code + sync * 16 + x.hb.toNat * 64 + x.peerLive.toNat * 128 + x.peerTok.toNat * 256 + x.hoPaused.toNat * 512
      + x.overdue.toNat * 1024)
  else if off = Reg.XO_GEN then some (v.xo.gen % 2 ^ 32)
  else if off = Reg.XO_TIMERS then
    let hold := match v.xo.holdSince with | some t => min ((v.at_ - t) / 1000000000) 0xFFF | none => 0
    some (hold + (if v.file.paired then min ((v.at_ - v.xo.sinceDuty) / 3600000000000) 0xFFFF * 65536 else 0))
  else if off = Reg.XO_LATCH then
    some (bitCount 256 v.xo.latch + (v.adm.filter fun e => e.2.latch != 0).length * 65536)
  else none

end Sys2Proof.Machine
end

