-- ==== Sys2Proof/Machine/Faults.lean ====
section
/-! DEFINITION. Machine/Faults.lean: fault collection and reaction (chapter 11) as commands: reports, resets and their
overruns, the safe gate, LIVE, the common registers `BLK_CTRL`, `BLK_ERR`, `BLK_ERR_EN`, `BLK_CLASS` and `BLK_INJ`,
rejoining and restarting. -/

namespace Sys2Proof.Machine

/-! ### Detectors -/

/-- A block implements a detector. -/
def implements (k : Blk) (bit : Nat) : Bool :=
  match pageOf (Blk.base k) with
  | some (p, i) => maskBit (detMask p i) bit
  | none => false

/-- RAIL of a region collector reports in the class of the detector whose pair is broken, which the report's data name: block [11:0],
bit [16:12] (R421). -/
def State.railOf (s : State) (k : Blk) (bit data : Nat) : Option FClass :=
  match pageOf (Blk.base k) with
  | some (.rc, _) => if bit = 1 then some (s.classOf (namedBlock k data) (data / 0x1000 % 32)) else none
  | _ => none

/-- A report of a fault as a detector makes it. -/
def State.reportOf (s : State) (k : Blk) (bit data : Nat) : Report := { blk := k, bit, data, rail := s.railOf k bit data }

/-- Reports of faults that arrive at a lane's collector in one clock (R423), each with its cause present or not (R440). -/
def State.faults (s : State) (l : Lane) (fs : List FaultObs) : State :=
  let fs := fs.filter fun f => implements f.blk f.bit.toNat
  let s := fs.foldl (fun s f => s.upd l fun L => L.setStanding ⟨f.blk, f.bit.toNat⟩ f.held) s
  s.reports l (fs.map fun f => s.reportOf f.blk f.bit.toNat f.data.toNat)

/-- FAULT_REPORT: a detector reports, and its cause is present or was not (R430, R440); `also` are the reports of the same clock
(R423). -/
def execFaultReport (l : Lane) (k : Blk) (bit : BitVec 5) (data : Word) (held : Bool) (also : List FaultObs) (s : State) :
    Host.Outcome State Fault Refusal :=
  .next (if s.mstate = .off then s else s.faults l ({ blk := k, bit, data, held } :: also))

/-! ### Handshakes and rails (R23, R421, R422) -/

/-- The region collector of a block. -/
def rcOf (k : Blk) : Blk := ⟨k.region, 0xFFF⟩

/-- HS_TIMEOUT: into a scope in reset it is PEER_IN_RESET, counted, and recorded once as consequential (R436, R438, R439); otherwise
the requester's collector reports it, and the reaction resets both blocks (R431). -/
def execHsTimeout (l : Lane) (requester target : Blk) (s : State) : Host.Outcome State Fault Refusal :=
  let r := requester.region.toNat
  let names := requester.block.toNat + target.region.toNat * 0x1000 + target.block.toNat * 0x10000
  if s.mstate = .off ∨ 5 < r ∨ s.shadowed l requester then .next s
  else if s.shadowed l target then
    .next ((s.upd l fun L => L.addFld (Reg.RC_HS_CNT r) 16 16 1).echo l (Base.rc r) 0x001 names)
  else .next ((s.upd l fun L => L.addFld (Reg.RC_HS_CNT r) 0 16 1).report l (rcOf requester) 0 names)

/-- RAIL_TEST: a pair that does not show the fault value is reported RAIL with the block and bit, in the detector's own
class or LANE_RECOVER, whichever is higher (R421). A test without a broken pair counts as healthy (R422); a masked pair cannot be
found broken (R424, R436). -/
def execRailTest (l : Lane) (region : BitVec 4) (broken : Option (BitVec 12 × BitVec 5)) (s : State) :
    Host.Outcome State Fault Refusal :=
  match broken with
  | none => .next s
  | some (b, bit) =>
    let k : Blk := ⟨region, b⟩
    if s.mstate = .off ∨ !implements k bit.toNat then .next s
    else .next (s.reports l [s.reportOf (rcOf k) 1 (b.toNat + bit.toNat * 0x1000)])

/-! ### Resets (R435 to R437, R45, R432) -/

/-- A reset of a lane completes; what reactions to it explained has come to its end (R439). -/
def LaneSt.endReset (L : LaneSt) (scope : RScope) (k : Blk) : LaneSt :=
  { L with
    resets := L.resets.map fun r => if r.scope = scope ∧ r.blk = k then { r with done := true } else r
    explained := L.explained.filter fun d => decide (d.bit ≠ 0x101) }

/-- The record of a reset in progress. -/
def LaneSt.resetOf (L : LaneSt) (scope : RScope) (k : Blk) : Option ResetRec :=
  L.resets.find? fun r => decide (r.scope = scope) && decide (r.blk = k) && !r.done

/-- A cause that excludes the lane is present. -/
def State.stillExcludes (s : State) (l : Lane) : Bool :=
  (s.lane.get l).standing.any fun d => decide (2 ≤ (s.classOf d.blk d.bit).code)

/-- The lane enters HALTED for a cause of its own. When it conducted the maintenance sessions they close (R109). -/
def State.haltLane (s : State) (l : Lane) (cause : Nat) (tag : Option Byte) : State :=
  let conducts : Bool := s.lead == some l
  let s := (s.laneEntry (withLane s.inStep l) l .halted cause .laneHalt tag).setCtl l fun c =>
    { c with mode := .halted, cls := .laneHalt, rejoinReq := false, pages := [], marked := [], retry := [] }
  if conducts then s.closeSessions else s

/-- The rewritten line of a memory unit that excluded the lane for it and whose block was reset (R431, R532). -/
def LaneSt.rewriteAfter (L : LaneSt) (r : ResetRec) (causes : List Det) : LaneSt :=
  (List.range 6).foldl (fun L i =>
    let k := Blk.ofOff (Base.cv (18 + i))
    if r.covers k && (causes.contains ⟨k, 4⟩ || causes.contains ⟨k, 5⟩) then L.rewriteLine (18 + i) else L) L

/-- The lane reset of a lane that rejoins loads the active banks whose re-verification halted it (R527). -/
def LaneSt.reloadAfter (L : LaneSt) (causes : List Det) : LaneSt :=
  (List.range 16).foldl (fun L u => if causes.contains ⟨Blk.ofOff (Base.cv u), 1⟩ then L.reloadBlock u else L) L

/-- RESET_COMPLETE: recorded with its duration. When it was the last, a lane whose detector still reports enters HALTED
with cause PERSISTENT (R432); otherwise the lane waits for the next cycle boundary to enter RESYNC (R45). A module reset
completes when the lanes enter BOOT. -/
def execResetComplete (l : Lane) (scope : RScope) (k : Blk) (s : State) : Host.Outcome State Fault Refusal :=
  match (s.lane.get l).resetOf scope k with
  | none => .next s
  | some r =>
    let causes := (s.ctl.get l).watch
    let reload : Bool := scope == .lane && (s.ctl.get l).rejoinReq
    let s := s.upd l fun L =>
      let L := (L.endReset scope k).rewriteAfter r causes
      let L := if reload then L.reloadAfter causes else L
      L.record (obPath l k.region.toNat k.block.toNat 0x1F) (obCode 8 (RScope.code scope)) 0 (tagFlag r.tag) s.cyc.num
        (obData (((s.now - r.at_) / 10) % 2 ^ 32 + tagData r.tag))
    -- the lane's receive paths return to the vote on the remote sources (R32)
    let s := if scope = .lane then
        { s with fld := { s.fld with
          pathOut := s.fld.pathOut.filter fun e => !(e.1 == l && decide (256 ≤ e.2))
          minority := s.fld.minority.filter fun e => !(e.1 == l && decide (256 ≤ e.2.1)) } }
      else s
    let c := s.ctl.get l
    if (s.lane.get l).resetting ∨ s.mstate = .safe then .next s
    else match c.mode with
      | .excluded => .next (if c.watch.any (s.stillFaulty l) then s.haltLane l 0x0B r.tag else s)
      | .halted => .next (if c.rejoinReq && s.stillExcludes l then s.haltLane l 0x0B r.tag else s)
      | _ => .next s

/-- The next wider reset takes the place of one (R437). -/
def State.widen (s : State) (l : Lane) (scope : RScope) (k : Blk) (w : RScope) (tag : Option Byte) : State :=
  (s.report l (rcOf k) 2 k.block.toNat).upd l fun L => (L.endReset scope k).startReset s.now w k tag

/-- RESET_OVERRUN: a scope is still in reset at its bound, where its shadow ends. The collector above it reports and the next wider
reset starts; a lane reset leaves the lane HALTED (R436, R437). -/
def execResetOverrun (l : Lane) (scope : RScope) (k : Blk) (s : State) : Host.Outcome State Fault Refusal :=
  match (s.lane.get l).resetOf scope k with
  | none => .next s
  | some r =>
    if s.now < r.at_ + RScope.bound scope then .next s
    else match scope with
      | .cell => .next (s.widen l scope k .block r.tag)
      | .block => .next (s.widen l scope k .region r.tag)
      | .region => .next (s.widen l scope k .lane r.tag)
      | .lane => .next ((s.upd l fun L => L.endReset scope k).haltLane l 0x0C r.tag)
      | .module => .next s

/-! ### The safe gate and LIVE (R433, R448 to R451, R60) -/

/-- SAFE_GATE_LATCH: a lane asserts SAFE_REQ with a cause of R458. -/
def execSafeGateLatch (l : Lane) (cause : Byte) (s : State) : Host.Outcome State Fault Refusal :=
  .next (s.safeByLane l cause.toNat)

/-- A half-period within the window: 90.9 µs to 111.1 µs, in 10 ns; a signal without an edge for 111.1 µs has none (R450). -/
def halfInWindow : Option Half → Bool
  | some h => decide (9090 ≤ h.toNat ∧ h.toNat ≤ 11110)
  | none => false

/-- A lane measures the LIVE of lane `l`: the half-period, none when no edge has come; a register that no edge changes stands. -/
def LaneSt.measureLive (L : LaneSt) (l : Lane) (half : Option Half) : LaneSt :=
  { (match half with | some h => L.noteHalf l h.toNat | none => L) with liveOk := L.liveOk.set l (halfInWindow half) }

/-- LIVE_WINDOW: the half-period of the LIVE of lane `l` as each lane measures it, and as the drive circuit does with components of
its own (R450, R451). A lane that finds its own signal outside while its permit is set reports it; both other ACTIVE lanes exclude
it once they have found it outside for 1 ms. -/
def execLiveWindow (l : Lane) (half : LaneVec (Option Half)) (drive : Option Half) (s : State) : Host.Outcome State Fault Refusal :=
  if s.mstate = .off then .next s
  else
    let found : LaneSet := half.map fun _ h => halfInWindow h
    let s := s.updAll fun x L => L.measureLive l (half.get x)
    let s := { s with drv := { s.drv with live := s.drv.live.set l (halfInWindow drive) } }.refreshDrive
    let s := if s.liveSignals.get l then s.upd l LaneSt.repower else s
    let s := s.abortSilent
    let o := l.others
    let both : Bool := s.isActive o.1 && s.isActive o.2 && !found.get o.1 && !found.get o.2
    let since := if both then some ((s.ctl.get l).lostAt.getD s.now) else none
    let s := s.setCtl l fun c => { c with lostAt := since }
    let s := if (s.ctl.get l).permit && !found.get l then
        s.report l (Blk.ofOff Base.fc) 1 (match half.get l with | some h => h.toNat | none => 0) else s
    let long : Bool := match since with | some t => decide (t + 1000000 ≤ s.now) | none => false
    .next (if long && s.isActive l && s.mstate.voting then s.exclude l .laneHalt 0x08 none else s)

/-- SWITCH_DRIVER_DECAY: the charge pump of a lane whose LIVE has stopped runs down, and its switches open (R60); none closes
again until its LIVE is back. -/
def execSwitchDriverDecay (l : Lane) (s : State) : Host.Outcome State Fault Refusal :=
  if s.liveSignals.get l then .next s
  else .next (s.upd l fun L => { L with field := { L.field with cmd := 0, decaying := false, unpowered := true } })

/-- SAFE_CHECK: VITAL_DRV is still energised 200 µs after it should have stopped (R451). -/
def execSafeCheck (l : Lane) (s : State) : Host.Outcome State Fault Refusal :=
  if s.mstate = .off ∨ s.vdrv ∨ s.now < s.drv.offAt + 200000 then .next s else .next (s.report l (Blk.ofOff Base.fc) 2 0)

/-! ### `BLK_CTRL` (R79 to R82, R424, R425) -/

/-- What a broadcast write of `BLK_CTRL` meets (R82, R424). -/
def State.ctlBar (s : State) (k : Blk) (d : Word) : Nat :=
  let service : Bool := s.mstate == .run || s.mstate == .duty || s.mstate == .standby
  let vital : Bool := match pageOf (Blk.base k) with | some (p, i) => capVital p i | none => false
  let v := d.toNat
  if service && (!v.testBit 0 || v.testBit 1) then Reason.wrongState
  else if service && vital && v.testBit 2 then Reason.wrongState
  else 0

/-- The `BLK_ERR` bits of a block that are 1 and enabled. -/
def LaneSt.heldReports (L : LaneSt) (k : Blk) : List Report :=
  ((List.range 32).filter fun n => L.bit (Blk.base k + 0x10) n && L.bit (Blk.base k + 0x14) n).map fun n =>
    { blk := k, bit := n, data := 0 }

/-- Every `BLK_ERR` bit that is 1 and enabled reports, all in one clock (R423, R425). -/
def State.reportHeld (s : State) (l : Lane) (k : Blk) : State := s.reports l ((s.lane.get l).heldReports k)

/-- `BLK_CTRL` takes a value in one lane: `EN` and `INDIV` are kept, `RST` starts a block reset. -/
def State.ctlLane (s : State) (l : Lane) (k : Blk) (d : Word) : State :=
  let off := Blk.base k + 0x8
  let was := (s.lane.get l).bit off 2
  let s := s.upd l fun L =>
    let L := L.setReg off (BitVec.ofNat 32 (d.toNat % 2 + d.toNat / 4 % 2 * 4))
    if d.toNat.testBit 1 then L.startReset s.now .block k else L
  if was && !d.toNat.testBit 2 then s.reportHeld l k else s

def State.ctlGo (s : State) (k : Blk) (d : Word) : State :=
  Lane.list.foldl (fun s l => if s.parts.get l then s.ctlLane l k d else s) s

/-- A write of `BLK_CTRL`: by broadcast as a WB write; through a lane's own aperture, without a token, where the lane is
EXCLUDED or HALTED (R80). -/
def State.writeCtl (s : State) (ap : WAper) (k : Blk) (p : Port) (d : Word) : State :=
  let off := Blk.base k + 0x8
  if (pageOf (Blk.base k)).isNone then s
  else match ap with
    | .broadcast => s.agreedWrite p off d (fun _ => s.ctlBar k d) fun _ s => s.ctlGo k d
    | .lane l =>
      if s.accessOf p ≠ .configure then s.refuseModule p Base.acc (l.code * 0x10000000 + off) Reason.role
      else if (s.lane.get l).inReset k then s.refuseIn (oneLane l) p (l.code * 0x10000000 + off) Reason.inReset
      else if s.mode l = .excluded ∨ s.mode l = .halted then s.ctlLane l k d
      else s.refuseIn (oneLane l) p (l.code * 0x10000000 + off) Reason.notBroadcast

/-- BLOCK_ENABLE. -/
def execBlockEnable (ap : WAper) (k : Blk) (p : Port) (d : Word) (s : State) : Host.Outcome State Fault Refusal :=
  .next (s.writeCtl ap k p d)

/-- BLOCK_RESET: the write has `RST` set. -/
def execBlockReset (ap : WAper) (k : Blk) (p : Port) (d : Word) (s : State) : Host.Outcome State Fault Refusal :=
  .next (s.writeCtl ap k p (setField d 1 1 1))

/-- INDIV. -/
def execIndiv (ap : WAper) (k : Blk) (p : Port) (d : Word) (s : State) : Host.Outcome State Fault Refusal :=
  .next (s.writeCtl ap k p d)

/-! ### `BLK_ERR` (R440) -/

/-- One lane clears the `BLK_ERR` bits of a mask; a bit whose cause is present is set again at once. -/
def State.clearErr (s : State) (l : Lane) (k : Blk) (m : Nat) : State :=
  let off := Blk.base k + 0x10
  (List.range 32).foldl (fun s n =>
    if m.testBit n && (s.lane.get l).bit off n then
      if s.stillFaulty l ⟨k, n⟩ then s.eventIn l (Blk.base k) 0x00D n
      else (s.upd l fun L => L.clearBits off (2 ^ n)).eventIn l (Blk.base k) 0x00C n
    else s) s

/-- A detector of module hardware still shows fault (R578, R579). -/
def State.hwStanding (s : State) (page bit : Nat) : Bool :=
  if page = 0x1000 then
    (bit == 1 && s.power.holdLow) || (bit == 2 && s.power.tempHigh) || (bit == 3 && s.power.overtemp)
  else if page = 0x4000 then (bit == 0 && s.power.cellLow) || (bit == 1 && s.power.tamper)
  else false

/-- The `BLK_ERR` bits of a page of the module aperture cleared (R77, R440). -/
def State.clearHwErr (s : State) (page m : Nat) : State :=
  let off := page + 0x10
  (List.range 32).foldl (fun s n =>
    if m.testBit n && (s.mreg off).toNat.testBit n then
      let ev (s : State) (e : Nat) : State := s.updIn s.parts fun l L =>
        L.record (obPath l 0xF (page / 0x1000) 0x1F) (obCode 6 e) 0 0 s.cyc.num (obData n)
      if s.hwStanding page n then ev s 0x00D else ev (s.setMfld off n 1 0) 0x00C
    else s) s

/-- A write of a `BLK_ERR` register, and the reason of the lowest-lettered lane that refused it. -/
def State.writeErr (s : State) (ap : WAper) (k : Blk) (p : Port) (d : Word) (only : LaneSet := .all true) : State × Nat :=
  s.laneWrite p ap (Blk.base k + 0x10) (fun _ => 0) (fun l s => s.clearErr l k d.toNat) only

/-- BLK_ERR_CLEAR: by MAINTAIN or CONFIGURE (R95). Region 0xF names a page of the module aperture. -/
def execBlkErrClear (ap : WAper) (k : Blk) (p : Port) (d : Word) (s : State) : Host.Outcome State Fault Refusal :=
  if k.region = 0xF then
    let page := k.block.toNat * 0x1000
    if (modPageOf page).isNone then .next s
    else if s.accessOf p = .view then .next (s.refuseModule p Base.acc (0x50000000 + page + 0x10) Reason.role)
    else .next (s.clearHwErr page d.toNat)
  else if (pageOf (Blk.base k)).isNone then .next s
  else .next (s.writeErr ap k p d).1

/-! ### `BLK_ERR_EN`, `BLK_CLASS` (R81, R427 to R429) -/

/-- The vital detectors of a block as a mask. -/
def vitalOf (k : Blk) : Nat := match pageOf (Blk.base k) with | some (p, i) => vitalMask p i | none => 0

/-- A write that would silence a detector whose class is above CORRECTED (R429); vital detectors do not change (R81). -/
def State.errEnBar (s : State) (k : Blk) (d : Word) : Nat :=
  let now := s.agreedReg (Blk.base k + 0x14)
  if (List.range 32).any fun n => now.toNat.testBit n && !d.toNat.testBit n && !maskBit (vitalOf k) n
      && decide (2 ≤ (s.classOf k n).code) then Reason.wrongState else 0

def State.errEnGo (s : State) (k : Blk) (d : Word) : State :=
  s.storeWb (Blk.base k + 0x14) d

def State.writeErrEn (s : State) (k : Blk) (p : Port) (d : Word) : State :=
  s.agreedWrite p (Blk.base k + 0x14) d (fun _ => s.errEnBar k d) fun _ s => s.errEnGo k d

/-- BLK_ERR_EN_WRITE. -/
def execBlkErrEnWrite (k : Blk) (p : Port) (d : Word) (s : State) : Host.Outcome State Fault Refusal :=
  if (pageOf (Blk.base k)).isNone then .next s else .next (s.writeErrEn k p d)

/-- The fields of `BLK_CLASS` (R428): a class below the floor, or a detector that the block does not implement, is out of
range (R427). -/
def classBar (k : Blk) (d : Word) : Nat :=
  let det := fieldOf d 0 5
  match pageOf (Blk.base k), FClass.ofCode (fieldOf d 8 3) with
  | some (p, i), some c =>
    if maskBit (detMask p i) det && decide ((floorClass p i det).code ≤ c.code) then 0 else Reason.outOfRange
  | _, _ => Reason.outOfRange

/-- The class takes effect. -/
def State.classGo (s : State) (k : Blk) (d : Word) : State :=
  match FClass.ofCode (fieldOf d 8 3) with
  | some c => (s.setClass k (fieldOf d 0 5) c).updIn s.parts fun _ L =>
      L.setReg (Blk.base k + 0x24) (keepWb (Blk.base k + 0x24) 0 d)
  | none => s

def State.writeClass (s : State) (k : Blk) (p : Port) (d : Word) : State :=
  s.agreedWrite p (Blk.base k + 0x24) d (fun _ => classBar k d) fun _ s => s.classGo k d

/-- BLK_CLASS_WRITE. -/
def execBlkClassWrite (k : Blk) (p : Port) (d : Word) (s : State) : Host.Outcome State Fault Refusal :=
  if (pageOf (Blk.base k)).isNone then .next s else .next (s.writeClass k p d)

/-- `BLK_CLASS` as it reads (R428). -/
def classView (p : Page) (i : Nat) (v : Word) : Nat :=
  if v.toNat.testBit 31 then
    let det := fieldOf v 0 5
    fieldOf v 0 11 + (defaultClass p i det).code * 0x1000 + (floorClass p i det).code * 0x10000
  else 0

/-! ### Injection (R443 to R447) -/

/-- The lanes that `BLK_INJ.LANE` names. -/
def injLanes (d : Word) : LaneSet :=
  match fieldOf d 24 2 with
  | 0 => oneLane .A | 1 => oneLane .B | 2 => oneLane .C | _ => .all true

/-- The conditions of R443, those of state before the range (R88). A write of `CANCEL` meets none of them. -/
def State.injBar (s : State) (k : Blk) (d : Word) : Nat :=
  if fieldOf d 26 1 = 1 then 0
  else if !(s.comm || (s.mstate == .restartLocked && s.file.injOk)) then Reason.testOnly
  else if s.voteMode ≠ 0 then Reason.degraded
  else if s.inj.isSome ∨ (Lane.list.any fun l => (injLanes d).get l && !s.isActive l) then Reason.wrongState
  else if !implements k (fieldOf d 0 5) ∨ fieldOf d 16 8 = 0 then Reason.outOfRange
  else 0

/-- An accepted write of `BLK_INJ`: the forced report, or its end, which ignores the other fields (R443, R445, R446). -/
def State.injGo (s : State) (k : Blk) (d : Word) : State :=
  if fieldOf d 26 1 = 1 then
    match s.inj with
    | some i => if i.blk = k then { s with inj := some i.unforce } else s
    | none => s
  else
    let s := s.storeWb (Blk.base k + 0x20) d
    let tag := fieldOf d 8 8
    let det := fieldOf d 0 5
    let s := { s with inj := some { blk := k, det := det, tag := BitVec.ofNat 8 tag, left := fieldOf d 16 8,
                                    lanes := injLanes d, forced := true, excl := .all false } }
    let s := s.event (Blk.base k) 0x009 tag
    Lane.list.foldl (fun s l => if (injLanes d).get l then s.reportForced l k det (BitVec.ofNat 8 tag) else s) s

def State.writeInj (s : State) (k : Blk) (p : Port) (d : Word) : State :=
  s.agreedWrite p (Blk.base k + 0x20) d (fun _ => s.injBar k d) fun _ s => s.injGo k d

/-- INJECTION. -/
def execInjection (k : Blk) (p : Port) (d : Word) (s : State) : Host.Outcome State Fault Refusal :=
  if (pageOf (Blk.base k)).isNone then .next s else .next (s.writeInj k p d)

/-- INJECTION_CANCEL: the write has `CANCEL` set. -/
def execInjectionCancel (k : Blk) (p : Port) (d : Word) (s : State) : Host.Outcome State Fault Refusal :=
  if (pageOf (Blk.base k)).isNone then .next s else .next (s.writeInj k p (setField d 26 1 1))

/-- INJECTION_EXPIRY: once `CYCLES` cycles have passed the forced report ends (R445). -/
def execInjectionExpiry (k : Blk) (s : State) : Host.Outcome State Fault Refusal :=
  match s.inj with
  | some i => .next (if i.blk = k ∧ i.left = 0 then { s with inj := some i.unforce } else s)
  | none => .next s

/-- The reaction of an injection has completed: every lane it excluded is ACTIVE again or has been cleared (R446). -/
def State.injDone (s : State) (i : InjSt) : Bool :=
  !i.forced && Lane.list.all fun l => !i.excl.get l || s.isActive l || (s.ctl.get l).rejoinReq

/-- INJ_END: the window closes. -/
def execInjEnd (k : Blk) (s : State) : Host.Outcome State Fault Refusal :=
  match s.inj with
  | some i => .next (if decide (i.blk = k) && s.injDone i then
      ({ s with inj := none }).event (Blk.base k) 0x00A i.tag.toNat else s)
  | none => .next s

/-! ### Rejoining and restarting (R441, R442) -/

/-- A `BLK_ERR` bit of the lane is 1 whose class is at least `c`. -/
def State.errAtLeast (s : State) (l : Lane) (c : FClass) : Bool :=
  (s.lane.get l).regs.any fun e =>
    decide (e.1 % 0x1000 = 0x10) && (List.range 32).any fun n =>
      e.2.toNat.testBit n && decide (c.code ≤ (s.classOf (Blk.ofOff e.1) n).code)

/-- What a write of `FC_REJOIN` meets. -/
def State.rejoinBar (s : State) (l : Lane) : Nat :=
  if s.mode l ≠ .halted then 0x41
  else if s.errAtLeast l .laneRecover then 0x40
  else 0

/-- A write of `FC_REJOIN.REJOIN` through a lane's aperture, and the reason that refused it. -/
def State.writeRejoin (s : State) (l : Lane) (p : Port) : State × Nat :=
  s.laneWrite p (.lane l) Reg.FC_REJOIN (fun _ => s.rejoinBar l) fun l s =>
    (s.upd l fun L => L.startReset s.now .lane (Blk.ofOff Base.fc)).setCtl l fun c => { c with rejoinReq := true }

/-- REJOIN: a HALTED lane whose causes are cleared performs a lane reset (R441). -/
def execRejoin (l : Lane) (p : Port) (s : State) : Host.Outcome State Fault Refusal := .next (s.writeRejoin l p).1

/-- What a restart meets: outside SAFE, or while a cause of class MODULE_SAFE is not cleared (R442). -/
def State.restartBar (s : State) : Nat :=
  if s.mstate ≠ .safe then 0x42
  else if s.errAtLeast .A .moduleSafe || s.errAtLeast .B .moduleSafe || s.errAtLeast .C .moduleSafe
      || (s.mreg 0x1010).toNat.testBit 3 then 0x40
  else 0

/-- The module restarts: a MODULE entry with cause RESTART, and a module reset. -/
def State.restartGo (s : State) (d : Word) : State :=
  if d.toNat.testBit 0 then
    (s.updAll fun l L => L.record (obPath l 5 0 0x1F) (obCode 5 0x100) 0 0 s.cyc.num (obData s.leadLane.code)).moduleReset
  else s

def State.writeRestart (s : State) (p : Port) (d : Word) : State :=
  s.agreedWrite p Reg.FC_CTRL d (fun _ => if d.toNat.testBit 0 then s.restartBar else 0) fun _ s => s.restartGo d

/-- RESTART. -/
def execRestart (p : Port) (s : State) : Host.Outcome State Fault Refusal := .next (s.writeRestart p 1)

/-! ### Registers (R462 to R465) -/

/-- The selected Occurrence Book entry of a lane (R461). -/
def LaneSt.obEntry (L : LaneSt) (seq : Nat) : Option ObEntry :=
  (L.obKept ++ L.obRing).find? fun e => e.seq == seq

/-- The eight words of an entry (R455). -/
def ObEntry.bytes (e : ObEntry) : Bytes :=
  toLe 8 e.time ++ toLe 4 e.seq ++ toLe 4 e.path.toNat ++ toLe 2 e.code.toNat ++ [byteOf e.cls, byteOf e.flags]
    ++ toLe 4 e.cycle ++ toLe 6 e.data.toNat ++ toLe 2 e.rep

/-- The oldest entry held: the first preserved one or the first of the ring. -/
def LaneSt.obOldest (L : LaneSt) : Nat :=
  match L.obKept.head?, L.obRing.head? with
  | some a, some b => min a.seq b.seq
  | some a, none => a.seq
  | none, some b => b.seq
  | none, none => 0

/-- `RC_STAT`: the blocks of a region whose pairs show fault: an enabled error bit is set, and the pairs are not masked by
individual-status mode or a reset shadow (DEDUCED from R424, R429 and R436, log 124); whether one is in individual-status mode,
whether a shadow is in force; the earliest report. -/
def State.rcStat (s : State) (l : Lane) (r : Nat) : Nat :=
  let L := s.lane.get l
  let shows (e : Nat × Word) : Bool :=
    decide (e.2 &&& L.reg (e.1 + 4) ≠ 0) && !s.masked l (Blk.ofOff e.1)
  let errs := L.regs.filter fun e => decide (e.1 / 0x1000000 = r ∧ e.1 % 0x1000 = 0x10) && shows e
  let indiv := decide (s.mstate = .test)
    || L.regs.any fun e => decide (e.1 / 0x1000000 = r ∧ e.1 % 0x1000 = 0x8) && e.2.toNat.testBit 2
  let shadow := L.resets.any fun q =>
    q.shadows s.now && (q.scope == .lane || q.scope == .module || q.blk.region.toNat == r)
  min errs.length 255 + indiv.toNat * 0x100 + shadow.toNat * 0x200 + L.fld (Reg.RC_STAT r) 16 12 * 0x10000

/-- `RC_RESET`. -/
def LaneSt.rcReset (L : LaneSt) (r : Nat) : Nat :=
  match L.resets.find? fun q => !q.done && (q.scope == .lane || q.scope == .module || q.blk.region.toNat == r) with
  | some q => q.blk.block.toNat + (RScope.code q.scope) * 0x1000 + 0x8000
  | none => 0

/-- `FC_STAT`. -/
def State.fcStat (s : State) (l : Lane) : Nat :=
  let L := s.lane.get l
  (s.ctl.get l).permit.toNat + L.safeReq.toNat * 2 + s.gate.toNat * 4 + L.liveOk.a.toNat * 8 + L.liveOk.b.toNat * 16
    + L.liveOk.c.toNat * 32 + s.vdrv.toNat * 64 + s.inj.isSome.toNat * 128

/-- `FC_CVIEW` for a selection of `FC_CSEL`. -/
def State.fcView (s : State) (sel : Word) : Nat :=
  let k : Blk := ⟨BitVec.ofNat 4 (fieldOf sel 12 4), BitVec.ofNat 12 (fieldOf sel 0 12)⟩
  let bit := fieldOf sel 16 5
  match pageOf (Blk.base k) with
  | some (p, i) =>
    if maskBit (detMask p i) bit then
      (s.classOf k bit).code + (defaultClass p i bit).code * 0x10 + (floorClass p i bit).code * 0x100
        + (isVital p i bit).toNat * 0x1000 + 0x2000
    else 0
  | none => 0

/-- The registers of the collectors and of the Occurrence Book that are computed. -/
def State.viewFault (s : State) (v : Seen) (l : Lane) (p : Port) (off : Nat) : Option Nat :=
  let L := s.lane.get l
  if off = Reg.FC_STAT then some (s.fcStat l)
  else if off = Reg.FC_CVIEW then some (({ s with classes := v.classes }).fcView (L.sel p Reg.FC_CSEL))
  else if off = Reg.OB_STAT then
    some (L.obKept.length + L.obRing.length + (decide (256 ≤ L.obCount)).toNat * 0x2000)
  else if off = Reg.OB_HEAD then some (match L.obNewest with | some e => e.seq | none => 0)
  else if off = Reg.OB_OLDEST then some L.obOldest
  else if Base.ob + 0x80 ≤ off ∧ off < Base.ob + 0xA0 then
    match L.obEntry (L.sel p Reg.OB_SEL).toNat with
    | some e => some (ofLe (slice e.bytes (off - Base.ob - 0x80) 4))
    | none => some 0
  else if off % 0x1000000 = 0xFFF040 then some (s.rcStat l (off / 0x1000000))
  else if off % 0x1000000 = 0xFFF044 then some (L.rcReset (off / 0x1000000))
  else none

end Sys2Proof.Machine
end

