-- ==== Sys2Proof/Machine/Sessions.lean ====
section
/-! DEFINITION. Machine/Sessions.lean: writes that reopen and renew Tablet sessions (R383), install key store objects (R364,
R385, R386), request a Platform Link mode (R327), clear bank codes (R279); the restart authorisation (R477 to R481). -/

namespace Sys2Proof.Machine

/-! ### `TB_CTRL` (R383, R386) -/

def State.tbBar (s : State) (d : Word) : Nat :=
  match s.sessCfg (fieldOf d 0 6) with
  | none => 0x40
  | some c => if c.cat = 0 then 0x40 else if d.toNat.testBit 9 && decide (c.cat < 3) then 0x41 else 0

/-- REOPEN closes the session and opens it again; RENEW starts renewal with a nonce. -/
def State.tbGo (s : State) (d : Word) (nonce : BitVec 256) : State :=
  let k := fieldOf d 0 6
  let s := s.storeWb Reg.TB_CTRL (BitVec.ofNat 32 k)
  let s := if d.toNat.testBit 8 then s.reopenSession k else s
  if d.toNat.testBit 9 then s.renewSession k nonce else s

def State.writeTb (s : State) (p : Port) (d : Word) (nonce : BitVec 256) : State :=
  s.agreedWrite p Reg.TB_CTRL d (fun _ => s.tbBar d) fun _ s => s.tbGo d nonce

/-- TB_REOPEN: the write has `REOPEN` set and `RENEW` clear; a category 3 initiator sends HS_HELLO with a nonce of its
own. -/
def execTbReopen (p : Port) (d : Word) (s : State) : Host.Outcome State Fault Refusal :=
  .next (s.writeTb p (setField d 8 2 1) 0)

/-- TB_RENEW: the write has `RENEW` set and `REOPEN` clear. -/
def execTbRenew (p : Port) (d : Word) (nonce : BitVec 256) (s : State) : Host.Outcome State Fault Refusal :=
  .next (s.writeTb p (setField d 8 2 2) nonce)

/-! ### The key store (R364, R385) -/

/-- The staged bytes. -/
def LaneSt.staged (L : LaneSt) (n : Nat) : Bytes :=
  ((List.range (min 256 ((n + 3) / 4))).flatMap fun i => toLe 4 (L.reg (Reg.KS_STAGE i)).toNat).take n

/-- A lane's check of a write of `KS_LOAD` (R386). -/
def LaneSt.ksBar (L : LaneSt) (d : Word) : Nat :=
  let n := fieldOf d 0 4
  if n < 2 then 0x41
  else if 7 < n then Reason.outOfRange
  else if 1024 < fieldOf d 4 12 then 0x40
  else if d.toNat.testBit 16 then 0
  else if L.keys.objectOk n (L.staged (fieldOf d 4 12)) then 0 else 0x40

/-- The checks of a write of `KS_LOAD`: each counting lane's own verdict, LANE_DISAGREE where they differ (R90). -/
def State.ksBar (s : State) (d : Word) : Nat :=
  match (Lane.list.filter s.counting.get).map fun l => (s.lane.get l).ksBar d with
  | [] => (s.lane.get s.leadLane).ksBar d
  | r :: rs => if rs.all fun x => x == r then r else Reason.laneDisagree

/-- One lane installs the staged object, or erases it; unit 17 forms `KS_STAGE_CRC` over the staged bytes. -/
def LaneSt.ksInstall (L : LaneSt) (d : Word) : LaneSt :=
  let n := fieldOf d 0 4
  let bs := L.staged (fieldOf d 4 12)
  let L := (L.cvBegin 17).cvFeed 17 bs
  let L := L.setReg Reg.KS_STAGE_CRC (BitVec.ofNat 32 (L.cvOut 17 (L.cvUnit 17).fg.run.toNat))
  { L with keys := L.keys.put n (if d.toNat.testBit 16 then [] else bs) }

def State.ksGo (s : State) (d : Word) : State :=
  (s.storeWb Reg.KS_LOAD d).updIn s.parts fun _ L => L.ksInstall d

def State.writeKs (s : State) (p : Port) (d : Word) : State :=
  s.agreedWrite p Reg.KS_LOAD d (fun _ => s.ksBar d) fun _ s => s.ksGo d

/-- KS_LOAD: the write has `ERASE` clear. -/
def execKsLoad (p : Port) (d : Word) (s : State) : Host.Outcome State Fault Refusal :=
  .next (s.writeKs p (setField d 16 1 0))

/-- KS_ERASE: the write has `ERASE` set. -/
def execKsErase (p : Port) (d : Word) (s : State) : Host.Outcome State Fault Refusal :=
  .next (s.writeKs p (setField d 16 1 1))

/-! ### `PL_MODE_REQ` (R327, R343) -/

def State.writePlMode (s : State) (p : Port) (d : Word) : State :=
  s.agreedWrite p Reg.PL_MODE_REQ d (fun _ => s.modeReqBar (fieldOf d 0 3)) fun _ s => s.requestMode (fieldOf d 0 3)

/-- PL_MODE_REQ. -/
def execPlModeReq (p : Port) (d : Word) (s : State) : Host.Outcome State Fault Refusal := .next (s.writePlMode p d)

/-! ### `BANK_CLEAR` (R245, R279, R282) -/

def State.bankGo (s : State) (b : Nat) (d : Word) : State :=
  let s := s.clearChannels b (fieldOf d 0 16)
  if d.toNat.testBit 16 then s.clearIsolator b else s

def State.writeBank (s : State) (b : Nat) (p : Port) (d : Word) : State :=
  s.agreedWrite p (Reg.BANK_CLEAR b) d (fun _ => 0) fun _ s => s.bankGo b d

/-- BANK_CLEAR: the codes of the channels named. -/
def execBankClear (bank : BitVec 4) (p : Port) (d : Word) (s : State) : Host.Outcome State Fault Refusal :=
  .next (s.writeBank bank.toNat p (setField d 16 1 0))

/-- BANK_CLEAR_ISOLATOR: the write has `ISOLATOR` set. -/
def execBankClearIsolator (bank : BitVec 4) (p : Port) (d : Word) (s : State) : Host.Outcome State Fault Refusal :=
  .next (s.writeBank bank.toNat p (setField d 16 1 1))

/-! ### Restart authorisation (R477 to R480) -/

/-! The results of R478. -/

namespace Auth
abbrev accepted : Nat := 0
abbrev notLocked : Nat := 1
abbrev notAuthorised : Nat := 2
abbrev wrongRun : Nat := 3
abbrev staleGen : Nat := 4
abbrev noPrepare : Nat := 5
abbrev badChallenge : Nat := 6
abbrev badRecord : Nat := 7
end Auth

/-- The lanes that accept a telegram of a session (R358). -/
def State.tgAccepted (s : State) (g : Dgram) (c : SessCfg) : LaneSet :=
  LaneVec.ofFn fun l =>
    let L := s.lane.get l
    (s.checking g.lanes).get l && ((L.session c.num).receive (s.netCtx c (L.session c.num)) L.clock g.bytes).2

/-- A generation [31:0] that was published in the present RESTART_LOCKED within 60 s. -/
def State.genFresh (s : State) (gen : Nat) : Bool :=
  s.lockedGens.any fun e => e.1 % 2 ^ 32 == gen && decide (s.now ≤ e.2 + 60000000000)

/-- A generation shown is older than an accepted PREPARE's, of whichever session (DESIGN CHOICE, log 163), among those published in
the present RESTART_LOCKED. -/
def State.genOlder (s : State) (gen : Nat) (q : Prepare) : Bool :=
  !s.lockedGens.any fun e => e.1 % 2 ^ 32 == gen && decide (q.gen ≤ e.1)

/-- The checks of a RESTART_AUTH payload in the order of R479. -/
def State.authResult (s : State) (c : SessCfg) (b : Bytes) : Nat :=
  let step := byteAt b 0
  let tag := beAt b 4 4
  let gen := beAt b 12 4
  if (step ≠ 1 ∧ step ≠ 2) ∨ byteAt b 1 ≠ 0 ∨ beAt b 20 12 ≠ 0 ∨ tag = 0 then Auth.badRecord
  else if s.mstate ≠ .restartLocked ∨ (s.file.paired ∧ s.xo.role ≠ .holder) then Auth.notLocked
  else if !c.restart then Auth.notAuthorised
  else if beAt b 8 4 ≠ s.runId.toNat then Auth.wrongRun
  else if !s.genFresh gen then Auth.staleGen
  else if step = 1 then Auth.accepted
  else match s.prepare with
    | none => Auth.noPrepare
    | some q =>
      if s.genOlder gen q then Auth.staleGen
      else if q.session ≠ c.num ∨ q.tag ≠ tag ∨ q.at_ + 30000000000 < s.now then Auth.noPrepare
      else if beAt b 2 2 ≠ q.challenge then Auth.badChallenge else Auth.accepted

/-- RESTART_RESULT (R478). -/
def authAnswer (b : Bytes) (result challenge gen : Nat) : Bytes :=
  [byteOf (byteAt b 0), byteOf result] ++ toBe 2 challenge ++ toBe 4 (beAt b 4 4) ++ toBe 4 gen ++ toBe 4 0

/-- A decision: recorded with `SIGNALLER`, answered in the generation to be published. An accepted PREPARE replaces the
one before; an accepted CONFIRM takes effect at t0 of the next cycle (R480). -/
def State.authDecide (s : State) (c : SessCfg) (b : Bytes) (draw : Half) : State :=
  let r := s.authResult c b
  let step := byteAt b 0
  let fresh : Nat := if draw = 0 then 1 else draw.toNat
  let challenge := if r = Auth.accepted ∧ step = 1 then fresh else beAt b 2 2
  let gen := s.nextGen
  let ev := if r ≠ Auth.accepted then 0x108 else if step = 1 then 0x106 else 0x107
  let s := s.event Base.sv ev (beAt b 16 4)
  let s := s.formTelegram c.num Tg.restartResult (authAnswer b r challenge gen) gen
  if r ≠ Auth.accepted then s
  else if step = 1 then
    { s with prepare := some { session := c.num, tag := beAt b 4 4, gen := gen, challenge := challenge, at_ := s.now } }
  else { s with prepare := none, confirmed := true }

/-- The first of each session among the telegrams that wait, and the others: a session answers one in a cycle, since it sends no more
than four telegrams in one (R407; DEDUCED, log 123). -/
def firstAuths (xs : List AuthWait) : List AuthWait × List AuthWait :=
  xs.foldl (fun q a => if q.1.any fun b => b.session == a.session then (q.1, q.2 ++ [a]) else (q.1 ++ [a], q.2)) ([], [])

/-- The RESTART_AUTH telegrams that await it are decided at input agreement, in the order they came (R122, R479). -/
def State.decideAuths (s : State) : State :=
  let q := firstAuths s.auths
  q.1.foldl (fun s a => match s.sessCfg a.session with
    | some c => s.authDecide c a.payload a.draw
    | none => s) { s with auths := q.2 }

/-- A RESTART_AUTH telegram: received as every telegram is, and waiting for input agreement when two lanes accept it. -/
def State.restartAuth (s : State) (g : Dgram) (draw : Half) : State :=
  if !s.mstate.netUp then s
  else
    let q := s.deliver g
    let t := s.netTelegram g Tg.restartAuth fun _ _ L => L
    match q.1 with
    | some c =>
      if tgType g.bytes = Tg.restartAuth ∧ 2 ≤ (q.2.tgAccepted g c).count then 
        { t with auths := t.auths ++ [{ session := c.num, payload := tgPayload g.bytes, draw }] }
      else t
    | none => t

/-- The telegram's `STEP` is CONFIRM. -/
def isConfirm (g : Dgram) : Bool := byteAt (tgPayload g.bytes) 0 == 2

/-- PREPARE: `draw` is the challenge that the lowest-lettered active lane draws. -/
def execPrepare (g : Dgram) (draw : Half) (s : State) : Host.Outcome State Fault Refusal :=
  if isConfirm g then .next s else .next (s.restartAuth g draw)

/-- CONFIRM. -/
def execConfirm (g : Dgram) (s : State) : Host.Outcome State Fault Refusal :=
  if isConfirm g then .next (s.restartAuth g 1) else .next s

end Sys2Proof.Machine
end

