-- ==== Sys2Proof/Machine/Writes.lean ====
section
/-! DEFINITION. Machine/Writes.lean: one written word, by its address (R67 to R93): which register it meets, what refuses it,
what it does. -/

namespace Sys2Proof.Machine

/-! ### Registers with WB fields: steps 6 and 7 of R88, and the effect, by offset -/

/-- The check of a register's own chapter in a lane: the reason, or 0. -/
def State.wbBar (s : State) (L : LaneSt) (w : Writer) (off : Nat) (d : Word) : Nat :=
  let k := Blk.ofOff off
  match pageOf off, off % 0x1000 with
  | some _, 0x08 => s.ctlBar k d
  | some _, 0x14 => s.errEnBar k d
  | some _, 0x20 => s.injBar k d
  | some _, 0x24 => classBar k d
  | some (.lf, b), 0x4C => s.shdBar b d
  | some (.plt, _), 0x50 => s.modeReqBar (fieldOf d 0 3)
  | some (.tb, _), 0x6C => s.tbBar d
  | some (.ks, _), 0x4C => L.ksBar d
  | some (.fc, _), 0x58 => if d.toNat.testBit 0 then s.restartBar else 0
  | some (.sv, _), 0x44 => s.forceBar w d
  | some (.sv, _), 0x4C => s.possBar w d
  | some (.sv, _), 0x54 => s.modeBar w d
  | some (.sv, _), 0x58 => s.changeBar d
  | some (.vote, _), 0x44 => if fieldOf d 0 8 = 0 ∨ 168 < fieldOf d 0 8 then Reason.outOfRange else 0
  | some (.xo, _), 0x48 => s.handoverWriteBar d
  | _, _ => 0

/-- The effect of an accepted value. -/
def State.wbGo (s : State) (w : Writer) (off : Nat) (d : Word) : State :=
  let k := Blk.ofOff off
  match pageOf off, off % 0x1000 with
  | some _, 0x08 => s.ctlGo k d
  | some _, 0x14 => s.errEnGo k d
  | some _, 0x20 => s.injGo k d
  | some _, 0x24 => s.classGo k d
  | some (.lf, b), 0x4C => s.shdGo b d
  | some (.bank, b), 0x48 => s.bankGo b d
  | some (.plt, _), 0x50 => s.requestMode (fieldOf d 0 3)
  | some (.tb, _), 0x6C =>
    let q := s.freshNonce
    q.2.tbGo d q.1
  | some (.tally, _), 0x48 => s.tallyClearGo d []
  | some (.ks, _), 0x4C => s.ksGo d
  | some (.fc, _), 0x58 => s.restartGo d
  | some (.sv, _), 0x44 => s.forceGo w d
  | some (.sv, _), 0x4C => s.possGo d
  | some (.sv, _), 0x54 => s.modeGo d
  | some (.sv, _), 0x58 => s.changeGo d
  | some (.xo, _), 0x48 => s.handoverGo d
  | _, _ => s.storeWb off d

/-! ### Pending writes (R88, R90, R91) -/

/-- The verdict of a lane on a WB write, in the order of R88; so a write of `BLK_CTRL` that a STANDBY refuses is refused with
STANDBY, the first step, not with the WRONG_STATE of R82 (DEDUCED, log 86). -/
def State.verdict (s : State) (L : LaneSt) (w : Writer) (off : Nat) (d : Word) (token : Half) : Nat :=
  let page := off / 0x1000 * 0x1000
  if s.mstate = .standby ∧ !ownOfStandby off then Reason.standby
  else if w.access ≠ .configure then Reason.role
  else if L.tokenCheck w.port page token ≠ 0 then L.tokenCheck w.port page token
  else s.agreedBar w off (s.wbBar L w off d)

/-- The writes that a lane holds for the next cycle: those that no freeze has assigned yet (R90). -/
def LaneSt.unassigned (L : LaneSt) : Nat := (L.pend.filter fun w => !w.frozen).length

/-- One lane takes a WB write: its token is used up (R87); a block in reset refuses it (R69), a seventeenth pending write
for one cycle is refused with BUSY (R91). The reason is 0 when the lane holds the write. -/
def State.takePending (s : State) (l : Lane) (w : Writer) (off : Nat) (d : Word) (token : Half) (tag : Byte) :
    State × Nat :=
  let L := s.lane.get l
  let v := s.verdict L w off d token
  let r := if L.inReset (Blk.ofOff off) then Reason.inReset else if 16 ≤ L.unassigned then Reason.busy else 0
  (s.upd l fun L =>
    let L := L.useToken (off / 0x1000 * 0x1000) token
    if r ≠ 0 then L.refuse l w.port (0x40000000 + off) r s.cyc.num
    else { L with pend := L.pend ++ [{ addr := off, value := d, token, tag, port := w.port, access := w.access,
                                       cert := w.cert, certId := w.certId, verdict := v, age := 0 }] }, r)

/-- The status codes of R102. -/
abbrev stOk : Nat := 0
abbrev stPending : Nat := 1
abbrev stQueued : Nat := 2
abbrev stRefused : Nat := 3
abbrev stNoMajority : Nat := 4
abbrev stUnmapped : Nat := 5
abbrev stCrcError : Nat := 6
abbrev stBadFrame : Nat := 7

/-- What an access did and how it is answered: status and reason. -/
structure Answer where
  state  : State
  status : Nat
  reason : Nat

/-- An access that is done or refused. -/
def answered (q : State × Nat) : Answer := if q.2 = 0 then ⟨q.1, stOk, 0⟩ else ⟨q.1, stRefused, q.2⟩

/-- A WB write refused where it stands: for role in the module access block (R83), otherwise in the lanes of a set. -/
def State.refuseWb (s : State) (ls : LaneSet) (p : Port) (off r : Nat) : State :=
  if r = Reason.role then s.refuseModule p Base.acc (0x40000000 + off) r else s.refuseIn ls p (0x40000000 + off) r

/-- What a lane answers to a WB write in a state that has no input agreement step: a block in reset (R69), its verdict, or WRONG_STATE
where that would accept it (DESIGN CHOICE, log 87). -/
def State.earlyReason (s : State) (w : Writer) (off : Nat) (d : Word) (token : Half) (l : Lane) : Nat :=
  let L := s.lane.get l
  let v := s.verdict L w off d token
  if L.inReset (Blk.ofOff off) then Reason.inReset else if v = 0 then Reason.wrongState else v

/-- Such a write: its token is used up, and each lane refuses it. -/
def State.refuseEarly (s : State) (w : Writer) (off : Nat) (d : Word) (token : Half) (tag : Byte) (got : LaneSet) : Answer :=
  let rs := (Lane.list.filter got.get).map fun l => (l, s.earlyReason w off d token l)
  let r := match rs.head? with | some e => e.2 | none => Reason.wrongState
  let s := s.updIn got fun _ L => L.useToken (off / 0x1000 * 0x1000) token
  let s := if rs.any fun e => e.2 == Reason.role then s.refuseWb got w.port off Reason.role else s
  let s := rs.foldl (fun s e => if e.2 = Reason.role then s else s.refuseIn (oneLane e.1) w.port (0x40000000 + off) e.2) s
  ⟨s.ringResult w.port tag r, stRefused, r⟩

/-- The lanes of a set take a WB write; the reason of the lowest-lettered one that refused, 0 when each holds it. -/
def State.takeAll (s : State) (w : Writer) (off : Nat) (d : Word) (token : Half) (tag : Byte) (got : LaneSet) : State × Nat :=
  Lane.list.foldl (fun (q : State × Nat) l =>
    if got.get l then
      let t := q.1.takePending l w off d token tag
      (t.1, if q.2 = 0 then t.2 else q.2)
    else q) (s, 0)

/-- A broadcast write of a register with WB fields: every lane that received it holds it with its verdict (R88), under an
entry of the result ring (R94); QUEUED when every one of them holds it (R104), otherwise refused as R75 says. -/
def State.pendWrite (s : State) (p : Port) (off : Nat) (d : Word) (token : Half) (tag : Byte) (got : LaneSet) : Answer :=
  let w := s.writerOf p
  let s := s.ringPut p tag
  if !s.mstate.agrees then s.refuseEarly w off d token tag got
  else
    let q := s.takeAll w off d token tag got
    if q.2 = 0 then ⟨q.1, stQueued, 0⟩
    else
      let held : Bool := Lane.list.any fun l => got.get l && decide ((s.lane.get l).pend.length < (q.1.lane.get l).pend.length)
      ⟨if held then q.1 else q.1.ringResult p tag q.2, stRefused, q.2⟩

/-! ### Writes that take effect on receipt (R75) -/

/-- The common registers that hold software-written bits on pages that have any: where a page has none, they are reserved (R8, R78). -/
def reservedHere (off : Nat) : Bool := off % 0x1000 == 0x14 || off % 0x1000 == 0x18 || off % 0x1000 == 0x1C

/-- What a register with RW, W1C and WO fields only meets in a lane; a write of nothing but reserved bits has no effect (R8). The own
registers of check-value units 0 to 23 take no write (DEDUCED, log 162), and the parameters of the others none while a computation
runs (R520). -/
def plainBar (L : LaneSt) (ap : WAper) (off : Nat) (d : Word) : Nat :=
  match rowOf off, pageOf off with
  | some r, some (pg, i) =>
    if r.rw = 0 ∧ r.w1c = 0 ∧ r.wo = 0 then (if reservedHere off then 0 else Reason.readOnly)
    else if pg = .cv ∧ i < 24 ∧ 0x40 ≤ off % 0x1000 then Reason.readOnly
    else if pg = .cv ∧ 0x40 ≤ off % 0x1000 ∧ off % 0x1000 < 0x60 ∧ (L.cvUnit i).fg.st = 1 then 0x41
    else if pg = .cv ∧ off % 0x1000 = 0x40 ∧ (fieldOf d 0 7 < 8 ∨ 64 < fieldOf d 0 7) then Reason.outOfRange
    else if pg = .ks ∧ 0x500 ≤ off % 0x1000 then (match ap with | .broadcast => 0 | .lane _ => Reason.notBroadcast)
    else 0
  | _, _ => 0

/-- RW fields take the value, W1C bits written 1 clear; a register held per port takes it for the port. -/
def LaneSt.plainGo (L : LaneSt) (p : Port) (off : Nat) (d : Word) : LaneSt :=
  match rowOf off with
  | some r =>
    if perPort off then L.setSel p off (maskWrite (L.sel p off) d r.rw)
    else L.setReg off (maskWrite (L.reg off) d r.rw &&& ~~~(d &&& BitVec.ofNat 32 r.w1c))
  | none => L

/-- A write of a register without a behaviour of its own; a reserved address takes nothing, whatever the role (R8). -/
def State.plainWrite (s : State) (p : Port) (ap : WAper) (off : Nat) (d : Word) (only : LaneSet := .all true) : State × Nat :=
  if (rowOf off).isNone then s.laneTake p ap off (fun _ => 0) (fun _ s => s) only
  else s.laneWrite p ap off (fun L => plainBar L ap off d) (fun l s => s.upd l fun L => L.plainGo p off d) only

/-- `FC_REJOIN` acts through a lane's own aperture only. -/
def State.rejoinWrite (s : State) (p : Port) (ap : WAper) (d : Word) (only : LaneSet := .all true) : State × Nat :=
  match ap with
  | .lane l => if d.toNat.testBit 0 then s.writeRejoin l p else s.laneWrite p ap Reg.FC_REJOIN (fun _ => 0) fun _ s => s
  | .broadcast => s.laneWrite p ap Reg.FC_REJOIN (fun _ => 0) (fun _ s => s) only

/-- A word written to a register without WB fields, through a lane aperture or broadcast; `only` are the lanes that
answer. -/
def State.laneWord (s : State) (p : Port) (ap : WAper) (off : Nat) (d : Word) (only : LaneSet := .all true) : State × Nat :=
  if inImageWindow off then s.laneWrite p ap off (fun _ => Reason.readOnly) (fun _ s => s) only
  else match pageOf off, off % 0x1000 with
  | some _, 0x10 => s.writeErr ap (Blk.ofOff off) p d only
  | some (.lf, b), 0x50 => s.writeShdAddr ap b p d only
  | some (.lf, b), 0x54 => s.writeShdData ap b p d only
  | some (.sv, _), 0x60 => s.writeStageAddr ap p d only
  | some (.sv, _), 0x64 => s.writeStage ap p d only
  | some (.fc, _), 0x5C => s.rejoinWrite p ap d only
  | some (.cv, u), 0x60 => s.cvCommand ap u p d only
  | some (.cv, u), 0x64 => s.cvData ap u p off 1 d only
  | some (.cv, u), 0x68 => s.cvData ap u p off 2 d only
  | some (.cv, u), 0x6C => s.cvData ap u p off 4 d only
  | some (.cv, u), 0x80 => s.cvStage ap u p d only
  | some (.cv, u), 0x84 => s.cvLoad ap u p d only
  | _, _ => s.plainWrite p ap off d only

/-- A register holds WB fields. -/
def holdsWb (off : Nat) : Bool := match rowOf off with | some r => r.wb != 0 | none => false

/-- A write to a register with WB fields through a lane aperture: a token that it presents is used up (R87); `BLK_CTRL` of a
lane outside the vote takes it (R80), every other is refused. -/
def State.wbByLane (s : State) (p : Port) (l : Lane) (off : Nat) (d : Word) (token : Half) : State × Nat :=
  let s := s.upd l fun L => L.useToken (off / 0x1000 * 0x1000) token
  let r := if s.accessOf p ≠ .configure then Reason.role
    else if (s.lane.get l).inReset (Blk.ofOff off) then Reason.inReset
    else if off % 0x1000 = 0x08 ∧ (s.mode l = .excluded ∨ s.mode l = .halted) then 0 else Reason.notBroadcast
  if r = 0 then (s.writeCtl (.lane l) (Blk.ofOff off) p d, 0)
  else if r = Reason.role then (s.refuseModule p Base.acc (l.code * 0x10000000 + off) r, r)
  else (s.refuseIn (oneLane l) p (l.code * 0x10000000 + off) r, r)

/-! ### The module aperture (R77) -/

/-- The lamp test: every LED lights for 5 s (R598). -/
def State.ledGo (s : State) (d : Word) : State :=
  if d.toNat.testBit 0 then { s with power := { s.power with ledTest := true, ledAt := s.now } } else s

/-- The tamper record cleared with its time (R599). -/
def State.tamperGo (s : State) (d : Word) : State :=
  if d.toNat.testBit 2 then ({ s with power := { s.power with tamper := false } }).setMreg Reg.KA_TAMPER 0 else s

/-- A word written through the module aperture, where `BLK_CTRL`, `BLK_ERR_EN`, `BLK_INJ` and `BLK_CLASS` are read-only
(R579). -/
def State.moduleWord (s : State) (p : Port) (off : Nat) (d : Word) : Answer :=
  let page := off / 0x1000 * 0x1000
  let o := off % 0x1000
  if (modPageOf off).isNone then ⟨s, stUnmapped, 0⟩
  else match modRowOf off with
    | none => ⟨s, stOk, 0⟩
    | some r =>
      if s.accessOf p = .view then
        ⟨s.refuseModule p Base.acc (0x50000000 + off) Reason.role, stRefused, Reason.role⟩
      else if r.rw = 0 ∧ r.w1c = 0 ∧ (o = 0x18 ∨ o = 0x1C) then ⟨s, stOk, 0⟩
      else if r.rw = 0 ∧ r.w1c = 0 then ⟨s.refuseModule p page (0x50000000 + off) Reason.readOnly, stRefused, Reason.readOnly⟩
      else if o = 0x10 then ⟨s.clearHwErr page d.toNat, stOk, 0⟩
      else if off = Reg.LED_TEST then ⟨s.ledGo d, stOk, 0⟩
      else if off = Reg.KA_STAT then ⟨s.tamperGo d, stOk, 0⟩
      else ⟨s.setMreg off (maskWrite (s.mreg off) d r.rw &&& ~~~(d &&& BitVec.ofNat 32 r.w1c)), stOk, 0⟩

/-! ### One word, by its address -/

/-- The lane of a lane aperture. -/
def laneOfAper : Nat → Option Lane
  | 0 => some .A | 1 => some .B | 2 => some .C | _ => none

/-- An offset lies in a mapped page or in the image window (R113). -/
def mapped (off : Nat) : Bool := (pageOf off).isSome || inImageWindow off

/-- How a request reaches the lanes: those that took it as the module executes it, and those that answer its accesses within
3 µs (R69, R71). -/
structure Reach where
  took    : LaneSet := .all true
  answers : LaneSet := .all true
  deriving DecidableEq, Repr

/-- One word written at a 32-bit address (R67, R68, R74, R75, R77). The module aperture refuses an access to a lane that does
not answer on the lane's behalf (R69). -/
def State.writeWord (s : State) (p : Port) (addr : Nat) (d : Word) (token : Half) (tag : Byte) (got : Reach) : Answer :=
  let ap := addr / 0x10000000
  let off := addr % 0x10000000
  if 6 ≤ ap ∨ off % 4 ≠ 0 then ⟨s, stUnmapped, 0⟩
  else if ap = 5 then s.moduleWord p off d
  else if !mapped off then ⟨s, stUnmapped, 0⟩
  else match laneOfAper ap with
    | some l =>
      if !got.answers.get l then ⟨s.refuseModule p Base.acc addr Reason.noAnswer, stRefused, Reason.noAnswer⟩
      else if holdsWb off then answered (s.wbByLane p l off d token)
      else answered (s.laneWord p (.lane l) off d)
    | none =>
      if ap = 3 then ⟨s.refuseModule p Base.acc addr Reason.votedWrite, stRefused, Reason.votedWrite⟩
      else if holdsWb off then s.pendWrite p off d token tag got.took
      else answered (s.laneWord p .broadcast off d got.answers)

/-- REGISTER_WRITE: one word as software writes it, with the token and the tag of its request; a WB write waits for the
lanes to agree it (R88 to R93). -/
def execRegisterWrite (addr : Word) (p : Port) (d : Word) (token : Half) (tag : Byte) (s : State) :
    Host.Outcome State Fault Refusal :=
  if s.mstate = .off then .next s else .next (s.writeWord p addr.toNat d token tag {}).state

end Sys2Proof.Machine
end

