-- ==== Sys2Proof/Machine/Agreement.lean ====
section
/-! DEFINITION. Machine/Agreement.lean: the input agreement step (R30 to R33, R90 to R93, R180, R181, R199 to R204, R232,
R250, R251, R333, R492, R493): the agreed input image, edges, timer marks, pending writes, element headers. -/

namespace Sys2Proof.Machine

/-! ### The vote on inputs (R30 to R33) -/

/-- The first INP source of the remote source that an INP source belongs to: a lineside unit has one, a Tablet session 32, a
Cabinet Bus buffer two (R161). -/
def remoteOf (k : Nat) : Nat :=
  if 0x1000 ≤ k ∧ k < 0x1800 then k / 32 * 32 else if 0x2000 ≤ k ∧ k < 0x2200 then k / 2 * 2 else k

/-- The key of a remote source among the paths (`FieldAg.pathOut`), by any of its INP sources. -/
def srcKey (k : Nat) : Nat := 256 + remoteOf k

/-- The ROUTE_REQUEST payloads of a session belong to the session's source (R32, R208). -/
def sessPath (n : Nat) : Nat := srcKey (0x1000 + 32 * n)

/-- A map of the local channels as the lanes that count on each agree it. -/
def State.voteMap (s : State) (f : FieldSt → BitVec 256) : BitVec 256 :=
  let v : LaneVec (BitVec 256) := LaneVec.ofFn fun l => f (s.lane.get l).field
  let base := voteWord s.counting v
  s.fld.pathOut.foldl (fun x e =>
    if e.2 < 256 then chanPut x e.2 (chanBit (voteWord (s.voters e.2) v) e.2) else x) base

/-- The agreed states of the local channels. -/
def State.voteLocal (s : State) : BitVec 256 := s.voteMap fun F => F.frozen

/-- The configured channels. -/
def State.usedMask (s : State) : BitVec 256 :=
  s.file.chans.foldl (fun v e => if e.2.mode = 0 then v else chanPut v e.1 true) 0

/-- The remote sources that any lane holds data of. -/
def State.rxSources (s : State) : List Nat :=
  Lane.list.foldl (fun xs l => (s.lane.get l).rxFrozen.foldl (fun xs e => insertNat e.1 xs) xs) []

/-- The agreed content of a remote source: all 0 while it is not VALID (R163). -/
def State.voteSource (s : State) (k : Nat) : BitVec 512 :=
  let x := voteWord (s.voters (srcKey k)) (LaneVec.ofFn fun l => getD 0 (s.lane.get l).rxFrozen k)
  if x.toNat.testBit 511 then x else 0

/-- Three lanes vote on a key. -/
def State.threeVote (s : State) (key : Nat) : Bool := (s.voters key).count == 3

/-- The lanes that differ from the agreed request payloads of the sessions on which three lanes vote. -/
def State.requestMinorities (s : State) : List (Lane × Nat) :=
  s.file.sessions.flatMap fun c =>
    let v : LaneVec (List Bytes) := LaneVec.ofFn fun l => ((s.lane.get l).session c.num).reqs
    if s.threeVote (sessPath c.num) then
      match minorityOf (s.voters (sessPath c.num)) v with
      | some l => [(l, sessPath c.num)]
      | none => []
    else []

/-- What a lane holds of a unit that the vote on its source covers besides its inputs (R299, R302, R332): service bits, state, flags,
digest and edge records. -/
def UnitRx.content (x : UnitRx) : BitVec 256 × Byte × Byte × Word × List Edge := (x.serv, x.ustate, x.flags, x.digest, x.edges)

/-- What a lane latched of a unit. -/
def LaneSt.unitFrozen (L : LaneSt) (u : Nat) : UnitRx := getD {} L.unitsFrozen u

/-- The lanes that differ from the agreed content of the units on which three lanes vote: the source's other data as its inputs
(R32). -/
def State.unitMinorities (s : State) : List (Lane × Nat) :=
  s.file.units.flatMap fun c =>
    let v : LaneVec (BitVec 256 × Byte × Byte × Word × List Edge) := LaneVec.ofFn fun l => ((s.lane.get l).unitFrozen c.unit).content
    if s.threeVote (srcKey c.unit) then
      match minorityOf (s.voters (srcKey c.unit)) v with
      | some l => [(l, srcKey c.unit)]
      | none => []
    else []

/-- The lanes in the minority this cycle, each once by key: on a channel, on a source. -/
def State.minorities (s : State) : List (Lane × Nat) :=
  let v := s.voteLocal
  let chans := Lane.list.flatMap fun l =>
    let d := ((s.lane.get l).field.frozen ^^^ v) &&& s.usedMask
    if s.counting.get l ∧ d ≠ 0 then
      ((List.range 256).filter fun n => chanBit d n && s.threeVote n).map fun n => (l, n)
    else []
  let srcs := s.rxSources.flatMap fun k =>
    if s.threeVote (srcKey k) then
      let v : LaneVec (BitVec 512) := LaneVec.ofFn fun l => getD 0 (s.lane.get l).rxFrozen k
      let x := voteWord (s.voters (srcKey k)) v
      (Lane.list.filter fun l => v.get l != x).map fun l => (l, srcKey k)
    else []
  chans ++ (srcs ++ s.requestMinorities ++ s.unitMinorities).dedup

/-- The run of a lane on a key. -/
def State.minorityRun (s : State) (l : Lane) (key : Nat) : Nat :=
  match s.fld.minority.find? fun e => e.1 == l && e.2.1 == key with
  | some e => e.2.2
  | none => 0

/-- R32: a third consecutive cycle in the minority leaves the lane's path out; a channel takes code SENSE_LANE. -/
def State.countMinorities (s : State) : State :=
  let now := (s.minorities).map fun e => (e.1, e.2, s.minorityRun e.1 e.2 + 1)
  let out := now.filter fun e => decide (3 ≤ e.2.2)
  let s := { s with fld := { s.fld with
    minority := now.filter fun e => decide (e.2.2 < 3)
    pathOut := s.fld.pathOut ++ out.map fun e => (e.1, e.2.1) } }
  out.foldl (fun s e => if e.2.1 < 256 then s.due e.2.1 Code.senseLane 0 0 (oneLane e.1) else s) s

/-- The codes and readings that wait are agreed (R255, R263); a lane that alone read an input test wrongly is left out. -/
def State.takeDue (s : State) : State :=
  let due := s.fld.due
  let s := { s with fld := { s.fld with due := [] } }
  due.foldl (fun s c =>
    let s := s.addCodeActing c.ch c.code c.switch c.partner c.acts
    if c.code = Code.senseLane then
      Lane.list.foldl (fun s l =>
        if c.lanes.get l ∧ !s.fld.pathOut.contains (l, c.ch) then
          { s with fld := { s.fld with pathOut := s.fld.pathOut ++ [(l, c.ch)] } }
        else s) s
    else s) s

/-- In wire-break mode the agreed class BROKEN, or a gap, gives the channel its code (R253). -/
def State.wireBreaks (s : State) : State :=
  let br := s.voteMap fun F => F.brokenFrz
  let gp := s.voteMap fun F => F.gapFrz
  if br = 0 ∧ gp = 0 then s
  else ((List.range 256).filter s.wireBreak).foldl (fun s n =>
    let s := if chanBit br n then s.addCode n Code.wireBroken 0 0 else s
    if chanBit gp n then s.addCode n Code.bandGap 0 0 else s) s

/-! ### Forced inputs (R492) -/

/-- The forces on inputs, as source, bit and value. -/
def State.forcedInputs (s : State) : List (Nat × Nat × Bool) :=
  s.forces.filterMap fun e =>
    if e.2.kind = 2 then (s.forcedChan e.2).map fun x => (x.1, x.2, e.2.value) else none

def putBit {w : Nat} (v : BitVec w) (n : Nat) (b : Bool) : BitVec w :=
  if b then v ||| BitVec.ofNat w (2 ^ n) else v &&& ~~~(BitVec.ofNat w (2 ^ n))

/-- A channel is in service by the cycle's agreed input image: source 0x0401 for the local channels, the diagnostics in its response for
a lineside unit (R200). -/
def State.inService (s : State) (src n : Nat) : Bool :=
  if src = 0 then chanBit ((s.inpSrc 0x401).setWidth 256) n else chanBit (getD 0 s.serv src) n

/-- A channel counts as in service for its element (R200, R492). -/
def State.serves (s : State) (forced : List (Nat × Nat × Bool)) (src n : Nat) : Bool :=
  forced.any (fun f => f.1 == src && f.2.1 == n) || s.inService src n

/-- Source 0x0401: the local channels in service. -/
def State.localService (s : State) : BitVec 512 :=
  (List.range 256).foldl (fun v n => if s.chanOos n then v else putBit v n true) (BitVec.ofNat 512 (2 ^ 511))

/-! ### The agreed input image -/

/-- A forced bit in an input image. -/
def forceBit (m : List (Nat × BitVec 512)) (f : Nat × Nat × Bool) : List (Nat × BitVec 512) :=
  putD 0 m f.1 (putBit (getD 0 m f.1) f.2.1 f.2.2)

/-- The agreed in-service bits of the units, voted as the rest of their data (R30 to R33). -/
def State.voteService (s : State) : List (Nat × BitVec 256) :=
  s.file.units.foldl (fun m c =>
    putD 0 m c.unit (voteWord (s.voters (srcKey c.unit))
      (LaneVec.ofFn fun l => ((s.lane.get l).unitFrozen c.unit).serv))) []

/-- The image of the cycle; the one before is kept for edges. An UNUSED channel reads 0 (R241). Source 0x0401 shows a local channel in service whatever its input
diagnostic is, as R278 says (DEDUCED, log 96: R161 names channels without an input diagnostic). -/
def State.formInputs (s : State) : State :=
  let local_ := (s.voteLocal &&& s.usedMask).setWidth 512 ||| BitVec.ofNat 512 (2 ^ 511)
  let m := s.rxSources.foldl (fun m k => putD 0 m k (s.voteSource k)) ([] : List (Nat × BitVec 512))
  let m := putD 0 (putD 0 m 0 local_) 0x401 s.localService
  { s with inpPrev := s.inp, inp := s.forcedInputs.foldl forceBit m, serv := s.voteService }

/-- A lane that entered PROBATION at this cycle's freeze seeds its input filters from the agreed input image; a run that
begins where its reading differs is unbounded in its stamp (R50). In STANDBY no agreed image is formed, and the filters stay
as they are (DESIGN CHOICE, log 97). -/
def State.seedProbation (s : State) : State :=
  let v := (getD 0 s.inp 0).setWidth 256
  Lane.list.foldl (fun s x =>
    if s.mode x = .probation ∧ (s.ctl.get x).liveAt = s.cyc.frzAt then
      s.upd x fun L => { L with field := { L.field with filt := v, seeded := L.field.raw ^^^ v } }
    else s) s

/-- The ROUTE_REQUEST payloads of the cycle, agreed as a remote source is (R30 to R33, R208). -/
def State.voteRequests (s : State) : State :=
  s.file.sessions.foldl (fun s c =>
    let v := LaneVec.ofFn fun l => ((s.lane.get l).session c.num).reqs
    let x := (majority (s.voters (sessPath c.num)) v).getD []
    s.updIn s.parts fun _ L =>
      if (L.session c.num).reqs = x then L else L.setSession c.num fun S => { S with reqs := x }) s

/-! ### Edges (R30, R31, R180, R251) -/

/-- A lane's latest stamp of an edge in the entries of this cycle. -/
def LaneSt.stampOf (L : LaneSt) (n : Nat) (rise : Bool) : Option Edge :=
  (L.field.drained.filter fun e => e.ch == n && e.rise == rise).getLast?

/-- The agreed stamp and uncertainty of what some lanes stamped: the median of three, the earlier of two; in 2-out-of-2
operation two stamps more than 2 µs apart add their difference (R31). -/
def agreeStamp (two : Bool) (es : List Edge) : Option (Nat × Nat) :=
  let unc := es.foldl (fun m e => max m e.unc) 0
  match es with
  | [] => none
  | [e] => some (e.stamp, unc)
  | [e, f] =>
    let d := max e.stamp f.stamp - min e.stamp f.stamp
    some (min e.stamp f.stamp, if two ∧ 2000 < d then min (unc + d) 0xFFFFFFFF else unc)
  | e :: f :: g :: _ => some (median e.stamp f.stamp g.stamp, unc)

/-- The agreed edge of a local channel. -/
def State.agreeEdge (s : State) (n : Nat) (rise : Bool) : Option Edge :=
  let ls := s.voters n
  let es := (Lane.list.filter ls.get).filterMap fun l => (s.lane.get l).stampOf n rise
  (agreeStamp (ls.count == 2 && s.twoOfTwo) es).map fun q =>
    { ch := n, rise := rise, stamp := q.1, unc := q.2, defer := es.any fun e => e.defer }

/-- A stamp in an edge slot with its valid flag. -/
def LaneSt.putStamp (L : LaneSt) (c : SlotCfg) (rise : Bool) (time unc : Nat) : LaneSt :=
  let a := slotBase c.slot
  let L := L.blkPut c.block (if rise then a else a + 8) (toLe 8 time)
  let L := L.blkPut c.block (if rise then a + 16 else a + 20) (toLe 4 unc)
  let L := L.blkPut c.block (a + 24) (toLe 3 (c.addr % 2 ^ 23))
  L.blkPut c.block (a + 27) [byteOf (setBitOf (L.blkByte c.block (a + 27)) (if rise then 0 else 1) true)]

/-- One polarity's valid flag of a slot cleared. -/
def LaneSt.dropStamp (L : LaneSt) (c : SlotCfg) (rise : Bool) : LaneSt :=
  let a := slotBase c.slot + 27
  L.blkPut c.block a [byteOf (setBitOf (L.blkByte c.block a) (if rise then 0 else 1) false)]

/-- A change of every slot that a test picks. -/
def LaneSt.eachSlot (L : LaneSt) (pick : Nat → Bool) (f : LaneSt → SlotCfg → LaneSt) : LaneSt :=
  L.logic.slotMap.foldl (fun L c => if pick c.addr then f L c else L) L

/-- Two of the lanes voted on a channel have stamped an edge of it in this cycle (R30). -/
def State.edgeSeen (s : State) (n : Nat) (rise : Bool) : Bool :=
  decide (2 ≤ ((Lane.list.filter (s.voters n).get).filter fun l => ((s.lane.get l).stampOf n rise).isSome).length)

/-- The edges of a channel in this cycle: the change of its agreed state, and an edge of the other polarity, or of both, that two
lanes have stamped between the freezes (R180: the latest edge of each polarity; DEDUCED, log 101). -/
def State.edgesOf (s : State) (n : Nat) : List (Nat × Bool) :=
  let now := (getD 0 s.inp 0).toNat.testBit n
  let changed : Bool := now != (getD 0 s.inpPrev 0).toNat.testBit n
  (if s.edgeSeen n (!now) then [(n, !now)] else []) ++ (if changed || s.edgeSeen n now then [(n, now)] else [])

/-- The channels that a lane has stamped an edge of in this cycle. -/
def State.stamped (s : State) : List Nat :=
  Lane.list.foldl (fun xs l => (s.lane.get l).field.drained.foldl (fun xs e => insertNat e.ch xs) xs) []

/-- The edges of the local channels, with the polarity; forced channels show no edge (R493). -/
def State.localEdges (s : State) (forced : List (Nat × Nat × Bool)) : List (Nat × Bool) :=
  let d := ((getD 0 s.inp 0) ^^^ (getD 0 s.inpPrev 0)).setWidth 256
  let changed := if d = 0 then [] else (List.range 256).filter (chanBit d)
  let hit := changed.foldl (fun xs n => insertNat n xs) s.stamped
  (hit.filter fun n => !forced.any fun f => f.1 == 0 && f.2.1 == n).flatMap s.edgesOf

/-- EDGE_LOST clears by itself at the next cycle (R277). -/
def State.dropEdgeLost (s : State) : State :=
  (s.fld.chan.filter fun e => e.2.codes.contains Code.edgeLost).foldl (fun s e => s.dropCode e.1 Code.edgeLost) s

/-- The edges of the local channels enter the slots, and in LINESIDE role the edges to be reported (R302); an edge without
a stamp clears the flags and gives an INPUT EDGE_LOST for the cycle. -/
def State.takeEdges (s : State) (slots : Bool) (forced : List (Nat × Nat × Bool)) : State :=
  (s.localEdges forced).foldl (fun s e =>
    match s.agreeEdge e.1 e.2 with
    | none =>
      let s := if slots then s.updIn s.parts fun _ L => L.eachSlot (fun a => a == e.1) fun L c => L.dropStamp c e.2 else s
      if s.isInput e.1 then s.addCode e.1 Code.edgeLost 0 0 else s
    | some g =>
      let s := if slots then
          s.updIn s.parts fun _ L => L.eachSlot (fun a => a == e.1) fun L c => L.putStamp c e.2 g.stamp g.unc
        else s
      if s.role = .lineside ∧ s.file.edgeChans.contains e.1 then
        { s with link := { s.link with newEdges := (s.link.newEdges.filter fun x => !(x.ch == e.1 && x.rise == e.2)) ++ [g] } }
      else s) s

/-- The slots of a lineside unit's bits: a later edge record is written, `EDGE_OVF` clears both flags (R333). -/
def State.takeUnitEdges (s : State) (u : Nat) : State :=
  let ls := s.voters (srcKey u)
  let v : LaneVec (Byte × List Edge) := LaneVec.ofFn fun l => (((s.lane.get l).unitFrozen u).flags, ((s.lane.get l).unitFrozen u).edges)
  let own : Nat → Bool := fun a => a / 512 == u
  match majority ls v with
  | none => s
  | some r =>
    if r.1.toNat.testBit 4 then
      s.updIn s.parts fun _ L => L.eachSlot own fun L c => L.clearSlot c.block c.slot
    else s.updIn s.parts fun _ L => r.2.foldl (fun L e =>
      L.eachSlot (fun a => a == u * 512 + e.ch) fun L c =>
        let t := slotStamp L c.block c.slot e.rise
        if t.time < e.stamp then L.putStamp c e.rise e.stamp e.unc else L) L

/-- R180, R181, R333, R493 for the remote sources and the forced bits. -/
def State.takeRemoteEdges (s : State) (forced : List (Nat × Nat × Bool)) : State :=
  let s := s.file.units.foldl (fun s c => if s.inpValid c.unit then s.takeUnitEdges c.unit else s) s
  s.updIn s.parts fun _ L =>
    let L := L.eachSlot (fun a => !s.inpValid (a / 512)) fun L c => L.clearSlot c.block c.slot
    L.eachSlot (fun a => forced.any fun f => f.1 * 512 + f.2.1 == a) fun L c => L.clearSlot c.block c.slot

/-- What the pending writes of the step leave: the channel diagnostics agreed in it (R200), the forces with their bits in the image, and
no edge of theirs (R492, R493). -/
def State.formForced (s : State) : State :=
  let forced := s.forcedInputs
  let s := { s with inp := forced.foldl forceBit (putD 0 s.inp 0x401 s.localService) }
  s.updIn s.parts fun _ L =>
    L.eachSlot (fun a => forced.any fun f => f.1 * 512 + f.2.1 == a) fun L c => L.clearSlot c.block c.slot

/-! ### Timer marks (R232) -/

/-- A timer is expired by the marks of the lanes that count. -/
def State.timerVoted (s : State) (n : Nat) (watchdog : Bool) : Bool :=
  let k := (LaneVec.ofFn fun l => s.counting.get l && (s.lane.get l).marks.contains n).count
  if s.counting.count = 3 then decide (2 ≤ k) else if watchdog then decide (1 ≤ k) else decide (2 ≤ k)

/-- An expired timer in the starting image: EXPIRED 1, RUNNING 0, no expiry instant. -/
def LaneSt.expireTimer (L : LaneSt) (n : Nat) : LaneSt :=
  let a := Img.timer n
  let fl := L.timerFlags n
  if fl.testBit 0 then
    (L.imgPutLe a 8 0).imgPutLe (a + 12) 1 (setBitOf (setBitOf fl 0 false) 1 true)
  else L

/-- A timer runs as WATCHDOG: a running timer keeps the mode that it started in (R231). -/
def State.runsWatchdog (s : State) (n : Nat) : Bool := (s.lane.get s.leadLane).timerFlags n / 4 % 4 == 2

/-- The vote on one timer, once for the marks of a freeze; a lane in the minority counts a split. -/
def State.voteTimer (s : State) (n : Nat) : State :=
  let ex := s.timerVoted n (s.runsWatchdog n)
  let s := if s.counting.count = 3 then
      s.updIn s.counting fun _ L => if L.marks.contains n ≠ ex then L.addFld Reg.TMR_EVENTS 16 16 1 else L
    else s
  let s := s.updAll fun _ L => { L with marks := L.marks.filter fun m => m != n }
  if ex then s.updIn s.parts fun _ L => L.expireTimer n else s

/-- TIMER_EXPIRY: the marks of one timer are voted. -/
def execTimerExpiry (n : BitVec 13) (s : State) : Host.Outcome State Fault Refusal :=
  if !s.mstate.evaluates || (s.timerCfg n.toNat).isNone then .next s else .next (s.voteTimer n.toNat)

/-- Every mark of the cycle is voted. -/
def State.voteTimers (s : State) : State :=
  (s.file.timers.filter fun t => Lane.list.any fun l => (s.lane.get l).marks.contains t.1).foldl
    (fun s t => s.voteTimer t.1) s

/-! ### Element headers and route records (R199 to R204) -/

/-- The bytes put into the working buffer where they differ from what it holds. -/
def LaneSt.imgKeep (L : LaneSt) (a : Nat) (bs : Bytes) : LaneSt :=
  if memBytes L.image.working a bs.length = bs then L else L.imgPut a bs

/-- An element's header, but for `VALID_CYCLE`, and whether it reads UNKNOWN. -/
def State.headerOf (s : State) (forced : List (Nat × Nat × Bool)) (e : ElemCfg) : Bytes × Bool :=
  let chans := (List.range e.nchan).map fun i => e.first + i
  let out := chans.any fun n => !s.serves forced e.source n
  let age := if e.source = 0 then 0 else (s.unitAdm e.source).age
  let maxAge := match s.unitCfg e.source with | some c => if e.source = 0 then 0 else c.maxAge | none => 0
  let unknown := !s.inpValid e.source || out
  let oos := chans.any fun n => !s.inService e.source n
  let poss := s.file.areas.any fun a => s.areas.toNat.testBit a.area && a.elems.contains e.num
  let status := unknown.toNat + (decide (age ≠ 0)).toNat * 2 + oos.toNat * 4
    + (s.forces.any fun f => f.2.ident == e.ident).toNat * 8 + poss.toNat * 16 + (decide (e.source = 0)).toNat * 32
  ([byteOf e.type, byteOf status, byteOf age, byteOf maxAge] ++ toLe 2 e.source ++ toLe 2 e.ident
    ++ [byteOf e.first, byteOf e.nchan, 0, 0], unknown)

/-- The bytes of element records whose numbers the file does not use; they read 0 (R203), cleared in the starting image
(DEDUCED, log 103: a swap itself changes no image bit, R187). -/
def State.unusedElems (s : State) (L : LaneSt) : List Nat :=
  (L.image.working.filter fun e => decide (Img.elem 0 ≤ e.1 ∧ e.1 < Img.elem 4096)
    && !s.file.elems.any fun c => c.num == (e.1 - Img.elem 0) / 64).map fun e => e.1

/-- The controller's part of the starting image: element headers, route fields. -/
def State.putStarting (s : State) (forced : List (Nat × Nat × Bool)) : State :=
  let hs := s.file.elems.map fun e => (e.num, s.headerOf forced e)
  let rs := s.routes.map fun r => (r, r.areas.any fun a => s.areas.toNat.testBit a)
  let num := s.cyc.num
  s.updIn s.parts fun _ L =>
    let L := (s.unusedElems L).foldl (fun L a => L.imgPut a [0]) L
    let L := hs.foldl (fun L h =>
      let a := Img.elem h.1
      let L := L.imgKeep a h.2.1
      if h.2.2 then L else L.imgKeep (a + 12) (toLe 4 num)) L
    rs.foldl (fun L r =>
      let a := Img.route r.1.num
      let cf := L.routeCflags r.1.num
      let L := L.imgKeep (a + 3) [byteOf (setBitOf cf 1 r.2)]
      let L := if cf.testBit 2 then L else L.imgKeep (a + 4) (toLe 2 0xFFFF)
      L.imgKeep (a + 6) (toLe 2 r.1.id ++ toLe 2 r.1.entry ++ toLe 2 r.1.exit)) L

/-- A forced variable reads its value in the starting image (R492). -/
def State.putForcedVars (s : State) : State :=
  let vs := s.forces.filterMap fun e =>
    if e.2.kind = 1 then (s.varByIdent e.2.ident).map fun v => (v.bit, e.2.value) else none
  s.updIn s.parts fun _ L => vs.foldl (fun L v => if L.imgBit v.1 = v.2 then L else L.imgSetBit v.1 v.2) L

/-! ### Pending writes (R90 to R94) -/

/-- A lane holds the same write. -/
def PendWrite.same (w x : PendWrite) : Bool :=
  w.addr == x.addr && w.value == x.value && w.token == x.token && w.tag == x.tag && w.port == x.port

/-- Two requests of one port under one tag. -/
def PendWrite.rival (w x : PendWrite) : Bool := w.addr == x.addr && w.tag == x.tag && w.port == x.port

/-- The write as a lane holds it. -/
def LaneSt.holds_ (L : LaneSt) (w : PendWrite) : Option PendWrite := L.pend.find? fun x => x.frozen && w.same x

/-- The outcome of a pending write: none while it waits for the next agreement, otherwise the reason, 0 for accepted. -/
def State.outcome (s : State) (w : PendWrite) : Option Nat :=
  let ls := s.counting
  let held := (Lane.list.filter ls.get).map fun l => (s.lane.get l).holds_ w
  if held.all fun x => x.isSome then
    let vs := held.filterMap fun x => x.map fun y => y.verdict
    match vs with
    | [] => some Reason.laneDisagree
    | v :: r =>
      if !r.all fun y => y == v then some Reason.laneDisagree
      else if v = 0 ∧ s.mstate ≠ .standby ∧ ((s.lane.get s.leadLane).journalPlace w.addr).isNone then some Reason.busy
      else some v
  else if (Lane.list.filter ls.get).any fun l =>
      ((s.lane.get l).holds_ w).isNone && (s.lane.get l).pend.any fun x => w.rival x then some Reason.laneDisagree
  else if 1 ≤ (held.foldl (fun m x => match x with | some y => max m y.age | none => m) 0) then some Reason.missing
  else none

/-- The lanes that a refusal of a pending write reaches: those that take part, and those that received it (R83, R90). -/
def State.refusedIn (s : State) (hit : PendWrite → Bool) : LaneSet :=
  LaneVec.ofFn fun l => s.parts.get l || (s.lane.get l).pend.any hit

/-- A pending write leaves every lane. -/
def State.dropPending (s : State) (w : PendWrite) : State :=
  s.updAll fun _ L => { L with pend := L.pend.filter fun x => !w.same x }

/-- A pending write settled: in effect, refused in every lane, or one cycle older. -/
def State.settleWrite (s : State) (w : PendWrite) : State :=
  match s.outcome w with
  | none => s.updAll fun _ L => { L with pend := L.pend.map fun x => if w.same x then { x with age := x.age + 1 } else x }
  | some r =>
    let ls := s.refusedIn w.same
    let s := s.dropPending w
    if r = 0 then
      ((s.keepJournal w.addr w.value).ringResult w.port w.tag 0).wbGo w.writer w.addr w.value
    else (s.refuseWb ls w.port w.addr r).ringResult w.port w.tag r

/-- The writes that any counting lane holds, each once. -/
def State.pendingWrites (s : State) : List PendWrite :=
  Lane.list.foldl (fun ws l => if s.counting.get l then
    ((s.lane.get l).pend.filter fun x => x.frozen).foldl (fun ws w => if ws.any fun x => w.same x then ws else ws ++ [w]) ws else ws) []

/-- The pending writes of the cycle, in the order of their receipt. -/
def State.agreeWrites (s : State) : State :=
  s.pendingWrites.foldl (fun s w => if s.mstate.agrees then s.settleWrite w else s) s

/-! ### Module hardware (R578, R579) -/

/-- The detectors of module hardware: page, bit, class. -/
def hwDetectors : List (Nat × Nat × FClass) :=
  [(0x1000, 0, .note), (0x1000, 1, .note), (0x1000, 2, .note), (0x1000, 3, .moduleSafe), (0x4000, 0, .note), (0x4000, 1, .note)]

/-- A detector of module hardware found at fault reports in the lane collector of every ACTIVE lane, once. -/
def State.hwReport (s : State) (page bit : Nat) (c : FClass) : State :=
  let s := s.setMfld (page + 0x10) bit 1 1
  let s := s.addMfld (page + 0x2C) 0 16 1
  let s := s.updIn s.parts fun l L =>
    let L := L.record (obPath l 0xF (page / 0x1000) 0x1F) (obCode 1 bit) c.code 0 s.cyc.num 0
    if c = .note then L.addFld Reg.FC_CNT 0 8 1 else L
  if c = .moduleSafe then s.safeByAll 0x01 else s

/-- What the lanes read of module hardware at the freeze: the detectors that show fault and have not reported it; a bridged
interruption reports once more each time (R572). -/
def State.readHardware (s : State) : State :=
  let seen := hwDetectors.filter fun d =>
    (s.hwStanding d.1 d.2.1 && !(s.mreg (d.1 + 0x10)).toNat.testBit d.2.1) || (d.1 == 0x1000 && d.2.1 == 0 && s.power.dip)
  { s with power := { s.power with dip := false, atFreeze := seen.map fun d => (d.1, d.2.1) } }

/-- The readings are agreed, and each detector found at fault reports (R579). -/
def State.agreeHardware (s : State) : State :=
  let found := s.power.atFreeze
  let s := { s with power := { s.power with atFreeze := [] } }
  (hwDetectors.filter fun d => found.contains (d.1, d.2.1)).foldl (fun s d => s.hwReport d.1 d.2.1 d.2.2) s

/-! ### The step -/

/-- The bytes that the step sends are not stated: a free value (log 10). -/
def State.noteLoad (s : State) : State :=
  let q := s.fresh
  let n := q.1.toNat % 65536
  q.2.updIn q.2.parts fun _ L => { L with opn := { L.opn with lxLast := n, lxMax := max L.opn.lxMax n } }

/-- The module forms and changes the working image this cycle. -/
def State.worksImage (s : State) : Bool := s.mstate.evaluates && !s.xo.hoPaused

/-- A lane whose test schedule of the cycle differs from those of both other lanes reports it (R281). -/
def State.checkSchedules (s : State) : State :=
  let sch (l : Lane) : Word := (s.lane.get l).field.sched
  let all3 : Bool := s.inStep.count == 3
  Lane.list.foldl (fun s l =>
    if all3 && sch l != sch l.others.1 && sch l != sch l.others.2 then s.report l (Blk.ofOff Base.fs) 1 0 else s) s

/-- The agreed inputs and what follows from them. A standby takes them from the copies instead. -/
def State.agreeInputs (s : State) : State :=
  let s := s.settleTests.checkSchedules.countMinorities
  let s := (s.dropEdgeLost.takeDue).wireBreaks
  if s.mstate = .standby then s
  else
    let s := (s.formInputs).seedProbation.voteRequests
    let forced := s.forcedInputs
    let w := s.worksImage
    let s := s.takeEdges w forced
    if w then (s.takeRemoteEdges forced).voteTimers else s

/-- INPUT_AGREEMENT. -/
def execInputAgreement (s : State) : Host.Outcome State Fault Refusal :=
  if !s.mstate.agrees ∨ s.cyc.step ≠ .frozen then .next s
  else
    let s := { s with cyc := { s.cyc with step := .agreed }, lx := { s.lx with retry := [], missed := [] } }
    let s := (s.noteLoad).agreeInputs
    let s := ((s.agreeWrites).decideAuths).agreeHardware
    let s := s.confirmArmed
    let s := if s.worksImage then
        let s := s.formForced
        (s.putStarting s.forcedInputs).putForcedVars
      else s
    .next s.checkLast

end Sys2Proof.Machine
end

