-- ==== Sys2Proof/Machine/Evaluate.lean ====
section
/-! DEFINITION. Machine/Evaluate.lean: the start of evaluation, the barriers with what they commit, the end of
evaluation (R125 to R130, R156, R157, R164, R172 to R178, R202, R207, R218, R230 to R234), and the digest vote (R41 to
R43, R50 to R52, R129, R185). -/

namespace Sys2Proof.Machine

/-! ### The start of evaluation -/

/-- A cell at the start of a phase (R156). -/
def CellSt.phaseStart (c : CellSt) (phase : Nat) : CellSt :=
  { c with
    a := false, e := true, stack := [], t0 := { c.t0 with valid := false }, t1 := { c.t1 with valid := false },
    phase := phase, wait := false, phClk := 0 }

/-- A cell at the start of a cycle's evaluation: at its first word, no clock spent. -/
def CellSt.cycleStart (c : CellSt) : CellSt := { c.phaseStart 0 with pc := 0, done := false, clk := 0 }

/-- A change of every listed cell. -/
def LaneSt.eachCell (L : LaneSt) (f : CellSt → CellSt) : LaneSt :=
  L.logic.cells.foldl (fun L e => L.setCell e.1 f) L

/-- The lane starts phase 0 in all its cells, with its output image at 0 (R125, R164). -/
def LaneSt.startEvaluation (L : LaneSt) : LaneSt :=
  let L := L.eachCell CellSt.cycleStart
  { L with logic := { L.logic with
      evaluating := true, ended := false, phase := 0, evalClk := 0, held := [], holdPeak := [], tcCmds := [],
      asserts := [], out := [], decided := 0, answers := [], throws := [] } }

/-- EVALUATION_START: a lane in step starts phase 0 after the input agreement of its cycle. -/
def execEvaluationStart (l : Lane) (s : State) : Host.Outcome State Fault Refusal :=
  if s.worksImage ∧ s.cyc.step = .agreed ∧ s.inStep.get l = true ∧ (s.lane.get l).logic.evaluating = false
      ∧ (s.lane.get l).logic.ended = false then
    .next (s.upd l LaneSt.startEvaluation)
  else .next s

/-! ### What a barrier commits (R128, R173, R174, R202) -/

/-- A word to be committed: its space, for BLK its block, the bits that some cell set to 1 and to 0. -/
structure CommitWord where
  space : HSpace
  block : Nat
  word  : Nat
  ones  : Word
  zeros : Word
  deriving DecidableEq, Repr

/-- A held write joined to the words to be committed. -/
def addCommit (h : HeldW) : List CommitWord → List CommitWord
  | [] => [⟨h.space, if h.space = .blk then h.cell / 16 else 0, h.word, h.mask &&& h.val, h.mask &&& ~~~h.val⟩]
  | c :: cs =>
    if c.space = h.space ∧ c.word = h.word ∧ (h.space = .blk → c.block = h.cell / 16) then
      { c with ones := c.ones ||| (h.mask &&& h.val), zeros := c.zeros ||| (h.mask &&& ~~~h.val) } :: cs
    else c :: addCommit h cs

/-- The held writes of a phase by word. -/
def commitWords (hs : List HeldW) : List CommitWord := hs.foldl (fun cs h => addCommit h cs) []

/-- The entries in use of the sixteen held-write buffers. -/
def heldEntries (hs : List HeldW) : Nat := ((List.range 16).map fun b => (heldWords hs b).length).foldl (· + ·) 0

/-- The bits written with different values: they are committed as 0 (R128). -/
def CommitWord.clash (c : CommitWord) : Word := c.ones &&& c.zeros

/-- The bits written, and their committed values. -/
def CommitWord.mask (c : CommitWord) : Word := c.ones ||| c.zeros
def CommitWord.val (c : CommitWord) : Word := c.ones &&& ~~~c.zeros

/-- The numbers of the 1 bits of a word. -/
def bitsOf (w : Word) : List Nat := (List.range 32).filter fun i => w.toNat.testBit i

/-- The bits of an image word that lie in controller-owned bytes (R202). -/
def ownedMask (word : Nat) : Word :=
  BitVec.ofNat 32 (((List.range 4).map fun i => if imgOwned (4 * word + i) then 255 * 2 ^ (8 * i) else 0).foldl (· + ·) 0)

/-- The forced bits of an image word (R492). -/
def forcedMask (bits : List Nat) (word : Nat) : Word :=
  bits.foldl (fun m b => if b / 32 = word then m ||| BitVec.ofNat 32 (2 ^ (b % 32)) else m) 0

/-- Some bits of a word replaced. -/
def mergeWord (old m v : Word) : Word := (old &&& ~~~m) ||| (v &&& m)

/-- A word committed in a lane; `forced` are the image bits of forced variables. -/
def LaneSt.commitWord (L : LaneSt) (forced : List Nat) (c : CommitWord) : LaneSt :=
  match c.space with
  | .blk =>
    let a := c.block * 32768 + 4 * c.word
    L.blkPut c.block (4 * c.word)
      (toLe 4 (mergeWord (BitVec.ofNat 32 (memLe L.logic.blkMem a 4)) c.mask c.val).toNat)
  | .img =>
    let m := c.mask &&& ~~~(ownedMask c.word) &&& ~~~(forcedMask forced c.word)
    if m = 0 then L
    else L.imgPutLe (4 * c.word) 4 (mergeWord (BitVec.ofNat 32 (L.imgLe (4 * c.word) 4)) m c.val).toNat
  | .out =>
    let k := c.word / 8
    let sh := 32 * (c.word % 8)
    let m := c.mask.setWidth 256 <<< sh
    let v := (L.outSrc k &&& ~~~m) ||| (c.val.setWidth 256 <<< sh)
    { L with logic := { L.logic with out := putD 0 L.logic.out k v } }

/-- The image bits of the forced variables of a lane. -/
def State.forcedBits (s : State) (L : LaneSt) : List Nat :=
  L.forces.filterMap fun e => if e.2.kind = 1 then (s.varByIdent e.2.ident).map fun v => v.bit else none

/-- The bit address of a space as format A has it (R159). -/
def clashData (c : CommitWord) (bit : Nat) : Nat :=
  match c.space with
  | .blk => 2 * 2 ^ 23 + c.word * 32 + bit
  | .img => 3 * 2 ^ 23 + c.word * 32 + bit
  | .out => 5 * 2 ^ 23 + c.word / 8 * 512 + c.word % 8 * 32 + bit

/-- WRITE_CLASH of a word: by the logic block for a block-memory bit, by the image controller for any other (R128). -/
def State.noteClash (s : State) (l : Lane) (c : CommitWord) : State :=
  (bitsOf c.clash).foldl (fun s i =>
    match c.space with
    | .blk => s.report l (Blk.ofOff (Base.lf c.block)) 17 (clashData c i)
    | _ => s.report l (Blk.ofOff Base.image) 2 (clashData c i)) s

/-- OWNED_WRITE: the discarded part of a held write, named by its first byte (R202). -/
def State.noteOwned (s : State) (l : Lane) (h : HeldW) : State :=
  let m := h.mask &&& ownedMask h.word
  if h.space = .img ∧ m ≠ 0 then
    let b := ((bitsOf m).headD 0) / 8
    (s.upd l fun L => L.addFld Reg.BO_EVENTS 16 16 1).report l (Blk.ofOff Base.bo) 1 (4 * h.word + b)
  else s

/-- A held write of one block's cells to one word: its first entry stands for the buffer entry. -/
def blockWrites (hs : List HeldW) : List HeldW :=
  hs.foldl (fun xs h =>
    match xs.find? fun x => x.cell / 16 == h.cell / 16 && x.space == h.space && x.word == h.word with
    | none => xs ++ [h]
    | some _ => xs.map fun x => if x.cell / 16 = h.cell / 16 ∧ x.space = h.space ∧ x.word = h.word then
        { x with mask := x.mask ||| h.mask } else x) []

/-- The routes whose first word is committed. -/
def routesOf (cs : List CommitWord) : List Nat :=
  cs.filterMap fun c =>
    let a := 4 * c.word
    if c.space = .img ∧ 0x50000 ≤ a ∧ a < 0x90000 ∧ a % 16 = 0 then some ((a - 0x50000) / 16) else none

/-- The point elements whose `THROW_MS` is committed (R562). -/
def State.throwsOf (s : State) (cs : List CommitWord) : List Nat :=
  cs.filterMap fun c =>
    let a := 4 * c.word
    if c.space = .img ∧ 0x10000 ≤ a ∧ a < 0x50000 ∧ a % 64 = 0x24 ∧ c.mask.setWidth 16 ≠ 0 then
      let n := (a - 0x10000) / 64
      if s.file.elems.any fun e => e.num == n && e.type == 1 then some n else none
    else none

/-- TRANSITION_REFUSED of a route (R218). -/
def State.noteRefused (s : State) (l : Lane) (r : Nat) : State :=
  let s := s.upd l fun L => (L.addFld Reg.BO_EVENTS 0 16 1).setBits (Base.bo + 0x18) 2
  s.report l (Blk.ofOff Base.bo) 0 r

/-- The most entries of each block in any phase so far. -/
def LaneSt.notePeak (L : LaneSt) : LaneSt :=
  { L with logic := { L.logic with holdPeak := (List.range 16).foldl (fun m b =>
      let n := (heldWords L.logic.held b).length
      if n = 0 then m else putD 0 m b (max n (getD 0 m b))) L.logic.holdPeak } }

/-- The clocks of a phase in a lane, of its slowest cell. -/
def LaneSt.phaseClocks (L : LaneSt) : Nat := L.logic.cells.foldl (fun m e => max m e.2.phClk) 1

/-- The barrier of a lane commits every held write (R127), costs 8 clocks and one for each entry (R174), and lets the
Booking Office judge the routes (R218). -/
def State.commitPhase (s : State) (l : Lane) : State :=
  let L := s.lane.get l
  let hs := L.logic.held
  let cs := commitWords hs
  let forced := s.forcedBits L
  let put := cs.foldl (fun L c => L.commitWord forced c) L.notePeak
  let q := put.checkRoutes s L (routesOf cs)
  let spent := L.phaseClocks + 8 + heldEntries hs
  let s := s.upd l fun _ => { q.1 with logic := { q.1.logic with
      held := [], evalClk := L.logic.evalClk + spent,
      throws := (s.throwsOf cs).foldl (fun xs n => insertNat n xs) L.logic.throws } }
  let s := cs.foldl (fun s c => s.noteClash l c) s
  let s := (blockWrites hs).foldl (fun s h => s.noteOwned l h) s
  q.2.foldl (fun s r => s.noteRefused l r) s

/-! ### Timers and counters (R176 to R178, R230 to R234) -/

/-- A quotient rounded up. -/
def ceilDiv (n d : Nat) : Nat := (n + d - 1) / d

/-- The effective count of a timer for a preset (R230); `cycle` is T in ns. -/
def TimerCfg.effective (c : TimerCfg) (cycle preset : Nat) : Nat :=
  let d := match preset with | 0 => c.d0 | 1 => c.d1 | 2 => c.d2 | _ => c.d3
  match c.mode.toNat with
  | 1 => d + ceilDiv d 1000 + 1
  | 2 => d - ceilDiv d 1000 - 1 - ceilDiv cycle 100000
  | _ => d

/-- A timer starts (R231): `t0` is the agreed Station Clock at t0 of the cycle. -/
def LaneSt.startTimer (L : LaneSt) (n : Nat) (c : TimerCfg) (cycle t0 preset : Nat) : LaneSt :=
  let e := c.effective cycle preset
  let a := Img.timer n
  ((L.imgPutLe a 8 (t0 + e * 100000)).imgPutLe (a + 8) 4 e).imgPutLe (a + 12) 1 (1 + c.mode.toNat * 4 + preset * 16)

/-- A timer stops: RUNNING, EXPIRED and the expiry instant at 0 (R176, R231, R233). -/
def LaneSt.stopTimer (L : LaneSt) (n : Nat) : LaneSt :=
  let a := Img.timer n
  let fl := L.timerFlags n
  (L.imgPutLe a 8 0).imgPutLe (a + 12) 1 (setBitOf (setBitOf fl 0 false) 1 false)

/-- One timer command (R176): 0 START, 1 RESTART, otherwise STOP. -/
def LaneSt.timerCommand (L : LaneSt) (s : State) (k : TcCmd) : LaneSt :=
  match s.timerCfg k.idx with
  | none => L
  | some c =>
    if k.stop then L.stopTimer k.idx
    else if k.fn ≠ 1 ∧ (L.timerFlags k.idx).testBit 0 then L
    else L.startTimer k.idx c s.cycleNs s.cyc.t0 k.preset

/-- One counter command (R177): 0 INC, 1 DEC, 2 CLR, 3 LOAD. -/
def LaneSt.counterCommand (L : LaneSt) (s : State) (k : TcCmd) : LaneSt :=
  match s.counterCfg k.idx with
  | none => L
  | some c =>
    let v := L.counterValue k.idx
    L.imgPutLe (Img.counter k.idx) 4
      (match k.fn with | 0 => satAdd 32 v 1 | 1 => v - 1 | 2 => 0 | _ => c.preset)

/-- The flags of a counter follow its value (R234). -/
def LaneSt.counterFlags (L : LaneSt) (n : Nat) (c : CounterCfg) : LaneSt :=
  let v := L.counterValue n
  L.imgKeep (Img.counter n + 4) [byteOf ((decide (c.limit ≤ v)).toNat + (decide (v = 0)).toNat * 2)]

/-- A command put in its place: ascending by cell and instruction address (R178). -/
def insertCmd (k : TcCmd) : List TcCmd → List TcCmd
  | [] => [k]
  | x :: xs => if k.cell * 16384 + k.pc < x.cell * 16384 + x.pc then k :: x :: xs else x :: insertCmd k xs

/-- The commands of a cycle in the order in which the engines apply them: a STOP after all others. -/
def orderCmds (ks : List TcCmd) : List TcCmd :=
  let ks := ks.foldl (fun xs k => insertCmd k xs) []
  (ks.filter fun k => !k.stop) ++ ks.filter fun k => k.stop

/-- The timers or counters that two commands of the cycle name, of two cells or of one (R178, R237; DEDUCED, log 109). -/
def clashed (ks : List TcCmd) (counter : Bool) : List Nat :=
  let ks := ks.filter fun k => k.counter == counter
  (ks.foldl (fun xs k => insertNat k.idx xs) []).filter fun n => decide (2 ≤ (ks.filter fun k => k.idx == n).length)

/-- The engines apply the commands of the cycle; TC_CLASH is recorded with the index (R178). -/
def State.applyCommands (s : State) (l : Lane) : State :=
  let ks := (s.lane.get l).logic.tcCmds
  let s' := s
  let s := s.upd l fun L =>
    let L := (orderCmds ks).foldl (fun L k => if k.counter then L.counterCommand s' k else L.timerCommand s' k) L
    s'.file.counters.foldl (fun L c => L.counterFlags c.1 c.2) L
  let s := (clashed ks false).foldl (fun s n =>
    (s.upd l fun L => L.addFld Reg.TMR_EVENTS 0 16 1).report l (Blk.ofOff Base.tmr) 0 n) s
  (clashed ks true).foldl (fun s n =>
    (s.upd l fun L => L.addFld Reg.CNT_EVENTS 0 16 1).report l (Blk.ofOff Base.cnt) 0 n) s

/-! ### The end of evaluation -/

/-- Clocks of a lane's logic clock in units of 10 ns, rounded up: 500, 487.5 and 512.5 MHz (R21). -/
def evalUnits (l : Lane) (clk : Nat) : Nat :=
  match l with
  | .A => ceilDiv clk 5
  | .B => ceilDiv (clk * 8) 39
  | .C => ceilDiv (clk * 8) 41

/-- `LF_HOLD` after a cycle. -/
def LaneSt.showHold (L : LaneSt) : LaneSt :=
  (List.range 16).foldl (fun L b =>
    let n := getD 0 L.logic.holdPeak b
    (L.setFld (Reg.LF_HOLD b) 0 10 n).maxFld (Reg.LF_HOLD b) 16 10 n) L

/-- The evaluation time of a cycle: `EVAL_LAST`, `EVAL_MAX`, the Tally Recorder, the margin of R130. -/
def State.noteEvalTime (s : State) (l : Lane) : State :=
  let L := s.lane.get l
  let t := min (evalUnits l L.logic.evalClk) 0xFFFFFF
  let s := s.upd l fun L =>
    let L := (L.setFld Reg.EVAL_LAST 0 24 t).maxFld Reg.EVAL_MAX 0 24 t
    if s.tallies then L.tallyEval t else L
  if 90 * s.budget < t then
    let s := s.upd l fun L => L.addFld Reg.CYC_EVENTS 8 8 1
    let due := match L.logic.marginAt with | none => true | some a => decide (a + 10000000000 ≤ s.now)
    if due then
      (s.upd l fun L => { L with logic := { L.logic with marginAt := some s.now } }).eventIn l Base.cyc 0x004 t
    else s
  else s

/-- The commit of the last phase completes: the Booking Office decides (R207), the engines apply their commands (R178),
every previous-state bit takes its local bit (R157). -/
def State.endEvaluation (s : State) (l : Lane) : State :=
  let q := (s.lane.get l).bookingOffice l s
  let s := s.upd l fun _ => { q.1 with logic := { q.1.logic with evalClk := q.1.logic.evalClk + q.2 } }
  let s := s.applyCommands l
  let tallies := s.tallies
  let b := s.budget
  let s := s.upd l fun L =>
    let L := { L with logic := { L.logic with prv := L.logic.loc, evaluating := false, ended := true } }
    let L := L.showHold
    if tallies then L.logic.throws.foldl (fun L n => L.tallyThrow b n) L else L
  s.noteEvalTime l

/-- Every cell that holds a program stands at the end of the phase (R127, R172). -/
def LaneSt.atBarrier (L : LaneSt) : Bool :=
  (List.range 256).all fun c => (L.cell c).wait || (L.cell c).done || !(L.holdsProgram L.logic.bank c)

/-- BARRIER: the lane commits the phase, and starts the next or ends its evaluation. -/
def execBarrier (l : Lane) (s : State) : Host.Outcome State Fault Refusal :=
  let L := s.lane.get l
  if !L.logic.evaluating || !L.atBarrier then .next s
  else
    let last := decide (L.phaseCount ≤ L.logic.phase + 1)
    let s := s.commitPhase l
    if last then
      .next ((s.upd l fun M => { M with logic := { M.logic with idleClk := L.logic.evalClk + 1, idleBank := M.logic.bank } }).endEvaluation l)
    else
      .next (s.upd l fun L =>
        let p := L.logic.phase + 1
        let L := L.eachCell fun c => if c.done then c else c.phaseStart p
        { L with logic := { L.logic with phase := p } })

/-! ### The digest vote -/

/-- EVAL_OVERRUN of the lanes that have not ended their evaluation (R129). -/
def State.overruns (s : State) : State :=
  if s.worksImage then
    let late := LaneVec.ofFn fun l => s.inStep.get l && !(s.lane.get l).logic.ended
    Lane.list.foldl (fun s l =>
      if late.get l then
        let s := s.upd l fun L => L.addFld Reg.CYC_EVENTS 0 8 1
        s.report l (Blk.ofOff Base.cyc) 0 0
      else s) s
  else s

/-- What the telegrams of a generation are formed from besides its image (R347): the outgoing payloads, the answers, the sending
counters. -/
def LaneSt.telFields (L : LaneSt) : List (Nat × BitVec 256) × List (Nat × Bytes) × List (Nat × Nat) :=
  (L.logic.out.filter fun e => decide (0 < e.1), L.logic.answers,
    (L.sess.map fun e => (e.1, e.2.seqTx)).filter fun e => decide (0 < e.2))

/-- The segments in which two lanes differ; what their telegrams are formed from counts as one more, 64 (R347; DESIGN CHOICE of its
place, log 143). -/
def State.segsDiffer (s : State) (x y : Lane) : List Nat :=
  segDiffer (s.lane.get x).image.working (s.lane.get y).image.working
    ++ (if (s.lane.get x).telFields = (s.lane.get y).telFields then [] else [64])

/-- What the comparison of three lanes finds: no difference, one lane in the minority, or no majority (R41, R42). -/
inductive DigestVerdict where
  | agree
  | minority (l : Lane)
  | noMajority
  deriving DecidableEq, Repr

/-- The verdict on one segment, from which pairs differ in it. -/
def segVerdict (ab bc ca : Bool) : DigestVerdict :=
  match ab, bc, ca with
  | false, false, _ => .agree
  | false, true, true => .minority .C
  | false, true, false => .agree
  | true, false, true => .minority .A
  | true, true, false => .minority .B
  | true, false, false => .agree
  | true, true, true => .noMajority

/-- The verdicts on two segments together. -/
def DigestVerdict.join : DigestVerdict → DigestVerdict → DigestVerdict
  | .agree, v => v
  | v, .agree => v
  | .minority x, .minority y => if x = y then .minority x else .noMajority
  | _, _ => .noMajority

/-- The verdict over the 64 segments and the telegrams. -/
def State.digestVerdict (s : State) : DigestVerdict :=
  let ab := s.segsDiffer .A .B
  let bc := s.segsDiffer .B .C
  let ca := s.segsDiffer .C .A
  (List.range 65).foldl (fun v k => v.join (segVerdict (ab.contains k) (bc.contains k) (ca.contains k))) .agree

/-- The comparison among the ACTIVE lanes (R41 to R43, R52). `MINORITY_CNT` counts what this vote finds, and no input minority (R65;
DESIGN CHOICE, log 155). -/
def State.voteDigests (s : State) : State :=
  match s.active.a, s.active.b, s.active.c with
  | true, true, true =>
    match s.digestVerdict with
    | .agree => s
    | .minority l => s.minority l 0x02
    | .noMajority => (s.count Reg.MINORITY_CNT 24 8 1).safeByAll 0x02
  | true, true, false => if s.segsDiffer .A .B = [] then s else (s.count Reg.MINORITY_CNT 24 8 1).safeByAll 0x03
  | true, false, true => if s.segsDiffer .C .A = [] then s else (s.count Reg.MINORITY_CNT 24 8 1).safeByAll 0x03
  | false, true, true => if s.segsDiffer .B .C = [] then s else (s.count Reg.MINORITY_CNT 24 8 1).safeByAll 0x03
  | _, _, _ => s

/-- A lane in PROBATION that agrees with every ACTIVE lane counts the cycle; one that differs returns to EXCLUDED (R50,
R51). -/
def State.judgeProbation (s : State) (x : Lane) : State :=
  if s.mode x ≠ .probation ∨ s.mstate = .safe then s
  else if Lane.list.all fun y => !s.isActive y || (s.segsDiffer x y).isEmpty then
    s.setCtl x fun c => { c with agreed := c.agreed + 1 }
  else s.exclude x .laneRecover 0x09 none

/-- The reaction to one failed assertion in a lane (R185). -/
def State.assertReact (s : State) (l : Lane) (a : AssertRec) : State :=
  if a.cls = 4 then s.safeByLane l 0x06
  else if !a.fresh then s
  else if a.cls = 1 then
    let s := s.upd l fun L => (L.addFld (Reg.LF_ASSERT a.block) 16 16 1).setBits (Base.lf a.block + 0x18) 1
    s.eventIn l (Base.lf a.block) 0x003 a.bit
  else (s.upd l fun L => L.addFld (Reg.LF_ASSERT a.block) 0 16 1).eventIn l (Base.lf a.block) 0x002 a.bit

/-- Each lane that remains ACTIVE reacts to the assertions that failed in it. -/
def State.assertions (s : State) : State :=
  let ls := s.active
  Lane.list.foldl (fun s l =>
    if ls.get l then (s.lane.get l).logic.asserts.foldl (fun s a => s.assertReact l a) s else s) s

/-- DIGEST_VOTE: overrunning lanes leave first; the others compare; then PROBATION and the assertions. -/
def execDigestVote (s : State) : Host.Outcome State Fault Refusal :=
  if !s.mstate.voting ∨ s.cyc.step ≠ .agreed then .next s
  else
    let s := { s with cyc := { s.cyc with step := .voted }, lx := { s.lx with retry := [], missed := [] } }
    let s := s.overruns.voteDigests
    let s := Lane.list.foldl (fun s l => s.judgeProbation l) s
    let s := if s.worksImage then s.assertions else s
    .next s.checkLast

end Sys2Proof.Machine
end

