-- ==== Sys2Proof/Machine/Cycle.lean ====
section
/-! DEFINITION. Machine/Cycle.lean: the cycle but for agreement and evaluation: SYNC and the freeze (R26, R27, R45 to R50,
R121, R122, R222 to R225, R332, R357, R480), the output instant (R34, R50, R123, R124, R405), publication, release and
roll-forward (R131 to R133), the Lane Exchange (R28, R29, R61), paired transmitters (R38 to R40), resynchronisation pages
(R47, R48) and the limit of 2-out-of-2 operation (R53 to R55). -/

namespace Sys2Proof.Machine

/-! ### SYNC -/

/-- SYNC_REQUEST: a lane asserts its request; one in EXCLUDED or HALTED asserts none (R121). Two requests raise the
module SYNC line. -/
def execSyncRequest (l : Lane) (s : State) : Host.Outcome State Fault Refusal :=
  if !s.mstate.agrees ∨ s.mode l = .excluded ∨ s.mode l = .halted then .next s
  else
    let r := withLane s.cyc.syncReq l
    .next { s with cyc := { s.cyc with syncReq := r, syncLine := s.cyc.syncLine || decide (2 ≤ r.count) } }

/-! ### The freeze: time, numbers and states -/

/-- Time since the last freeze, on every lane's clock and outside them. -/
def State.freezeTime (s : State) (o : LaneVec FreezeObs) : State :=
  (s.advance (o.get s.leadLane).elapsed.toNat).updAll fun l L => L.runClock (o.get l).elapsed.toNat

/-- The next cycle begins with its freeze. -/
def State.beginCycle (s : State) : State :=
  { s with
    cyc := { s.cyc with step := .frozen, num := s.cyc.num + 1, syncLine := true, frzAt := s.now }
    lx := { s.lx with retry := [], missed := [] } }

/-- A CONFIRM accepted in the cycle before takes the module to RUN, or to DUTY as a paired role holder (R480). -/
def State.confirmRestart (s : State) : State :=
  if s.confirmed ∧ s.mstate = .restartLocked then
    ({ s with confirmed := false, prepare := none, lockedGens := [] }).enter (if s.file.paired then .duty else .run)
  else s

/-- Every lane but one is ACTIVE (R46). -/
def State.othersActive (s : State) (x : Lane) : Bool := Lane.list.all fun y => y == x || s.isActive y

/-- A lane enters RESYNC (R45, R46); a change in LOADING or VERIFYING is abandoned and open shadow windows close (R190,
R505). The lane asserts SYNC requests again: its run of R27 begins anew (DEDUCED, log 133: until then `SYNC_SKEW` keeps what it
held). -/
def State.enterResync (s : State) (x : Lane) (cause : Nat) : State :=
  let s := (s.abandonChange.updAll fun _ L => L.closeShadows.setReg Reg.LX_RESYNC 0).upd x fun L => L.setFld Reg.SYNC_SKEW 16 2 0
  let s := s.setCtl x fun c =>
    { c with mode := .resync, pages := [], marked := [], retry := [], rejoinReq := false, watch := [] }
  s.laneEntry (withLane s.inStep x) x .resync cause .note

/-- The number of the pages of a lane state (`writtenPages`). -/
def resyncPages : Nat := 705

/-- The registers of a lane with the RV fields that a publication shows taken from another lane (R47). -/
def copyShown (own src : List (Nat × Word)) : List (Nat × Word) :=
  let put (m : List (Nat × Word)) (k : Nat) : List (Nat × Word) :=
    match rowOf k with
    | some r => if r.rv = 0 then m
      else SMap.put resetOf m k (maskWrite (SMap.get resetOf m k) (SMap.get resetOf src k) r.rv)
    | none => m
  src.foldl (fun m e => put m e.1) (own.foldl (fun m e => put m e.1) own)

/-- A lane with the copied lane state of another (R47): images, block memories, cell bits, session state, RV fields.
Filters, edge FIFOs, pins and holding copies are its own, and so are the instruction banks and what a cell keeps for one
cycle (R155). -/
def LaneSt.takeState (L src : LaneSt) : LaneSt :=
  let g := L.logic
  { L with
    regs := copyShown L.regs src.regs
    shown := src.shown, keysShown := (L.keys, src.keysShown.2)
    image := { src.image with pins := [], store := [] }
    logic := { src.logic with
      banks := g.banks, cells := g.cells, idleClk := g.idleClk, idleBank := g.idleBank, evaluating := false, ended := false, held := [], tcCmds := [], asserts := [], throws := [],
      answers := [], evalClk := 0, holdPeak := [], marginAt := g.marginAt }
    rx := src.rx
    rxFrozen := src.rxFrozen
    sess := src.sess
    units := src.units
    unitsFrozen := src.unitsFrozen
    can := src.can
    field := { L.field with fifo := [], drained := [] } }

/-- A lane enters PROBATION: it holds the copied state with the journal's values (R49, R93), and LIVE restarts (R50). -/
def State.enterProbation (s : State) (x : Lane) : State :=
  let src := s.lane.get s.leadLane
  let s := s.upd x fun L => (L.takeState src).applyJournal (s.mstate != .standby)
  let s := s.setCtl x fun c => { c with mode := .probation, agreed := 0, liveAt := s.now }
  (s.setPermit x true).laneEntry (withLane s.inStep x) x .probation 0 .note

/-- The changes of lane state that a cycle boundary brings (R45 to R49). -/
def State.laneBoundary (s : State) (x : Lane) : State :=
  let c := s.ctl.get x
  let L := s.lane.get x
  if !s.mstate.voting || !s.othersActive x || L.resetting then s
  else match c.mode with
    | .excluded => if c.cls = .laneRecover then s.enterResync x 0 else s
    | .halted => if c.rejoinReq && !s.stillExcludes x then s.enterResync x 0x10 else s
    | .resync => if decide (resyncPages ≤ c.pages.length) && c.retry.isEmpty then s.enterProbation x else s
    | _ => s

/-- A planned handover pauses the old holder after the last cycle it evaluates, and its master change is announced; the new holder
evaluates from the first cycle whose t0 follows its entry by 20 µs (R410). -/
def State.pauseDue (s : State) : State :=
  match s.xo.hoCycle with
  | some c =>
    if c < s.cyc.num ∧ !s.xo.hoPaused ∧ s.xo.role = .holder then (s.setXo fun x => { x with hoPaused := true }).passMaster else s
  | none =>
    if s.xo.hoPaused ∧ s.xo.role = .holder ∧ s.xo.evalFrom ≤ s.now then s.setXo fun x => { x with hoPaused := false } else s

/-! ### The freeze: clocks (R138, R223, R225) -/

/-- The agreed Station Clock at t0: the median of three readings, the earlier of two. -/
def State.agreedT0 (s : State) : Nat :=
  let r := (Lane.list.filter s.counting.get).map fun l => (s.lane.get l).clock
  match r with
  | [a, b, c] => median a b c
  | [a, b] => min a b
  | [a] => a
  | _ => (s.lane.get s.leadLane).clock

/-- A lane's crystal over the next cycle: within 50 ppm of nominal (R224), by a free value (log 105). -/
def State.drawCrystals (s : State) : State :=
  Lane.list.foldl (fun s l =>
    let q := s.fresh
    q.2.upd l fun L => { L with osc := { L.osc with xtal := within 5000 q.1 } }) s

/-- The median of the three crystals. -/
def State.medianCrystal (s : State) : Int := median3 s.lane.a.osc.xtal s.lane.b.osc.xtal s.lane.c.osc.xtal

/-- The rates of the lanes over the next cycle, without slew (R224). With the source locked each lies within 20 ppm of the source's, by
free values; otherwise each follows the median of the three crystals. In HOLDOVER the last ones stay (R226). The source's own rate and
what holds before it is locked the spec does not state (log 105). -/
def State.drawRates (s : State) : State :=
  let s := s.drawCrystals
  if s.stcBit 1 then s
  else if s.stcBit 0 then
    let q := s.fresh
    Lane.list.foldl (fun s l =>
      let r := s.fresh
      r.2.upd l fun L => { L with osc := { L.osc with rate := within 10000 q.1 + within 2000 r.1 } }) q.2
  else s.updAll fun _ L => { L with osc := { L.osc with rate := s.medianCrystal } }

/-- Each lane's offset from the agreed t0 and the agreed offset from the source; the slew over the cycle that follows (R223), and
the rate against the median (R225). -/
def State.slewClocks (s : State) : State :=
  let t0 := s.agreedT0
  let follows := s.followsSource
  let s := if follows then s.setSrcOffset (s.offsetAt t0) else s
  let src := if follows then s.srcOffset else 0
  let cycle := s.cycleNs
  let s := { s with cyc := { s.cyc with t0 := t0, t0s := (t0 :: s.cyc.t0s).take 4 } }
  let s := s.updAll fun _ L =>
    let off := diff64 L.clock t0
    { L.setReg Reg.STC_OFFSET (satInt32 off) with
      osc := { L.osc with slew := slewOf (off + src) cycle, run := 0, runs := (L.osc.run :: L.osc.runs).take 1024 }
      offRun := if 3000 < off.natAbs then L.offRun + 1 else 0 }
  let dev : LaneVec Int := LaneVec.ofFn fun l => s.rateDev s.inStep l
  (s.updAll fun l L => L.setReg Reg.STC_RATE (satInt32 (dev.get l))).drawRates

/-- A lane's measured rate, 0.01 ppm. -/
def LaneSt.rateSeen (L : LaneSt) : Int := (L.reg Reg.STC_RATE).toInt

/-- CLOCK_OFFSET and CLOCK_RATE (R225). -/
def State.checkClocks (s : State) : State :=
  let ls := s.inStep
  let two := s.twoOfTwo
  let act := Lane.list.filter s.active.get
  let s := Lane.list.foldl (fun s l =>
    let s := if ls.get l && decide (3 ≤ (s.lane.get l).offRun) then s.report l (Blk.ofOff Base.stc) 1 0 else s
    if ls.get l && !two && decide (10000 < (s.lane.get l).rateSeen.natAbs) then s.report l (Blk.ofOff Base.stc) 0 0 else s) s
  match two, act with
  | true, [x, y] => if 10000 < ((s.lane.get x).rateSeen - (s.lane.get y).rateSeen).natAbs then s.safeByAll 0x08 else s
  | _, _ => s

/-- The SYNC interval of each lane that asserts a request; a third consecutive one beyond 2 µs is reported and puts the lane in
the minority, one that resynchronises too (R27). -/
def State.checkSkew (s : State) (o : LaneVec FreezeObs) : State :=
  Lane.list.foldl (fun s l =>
    if s.mode l = .excluded ∨ s.mode l = .halted then s
    else
      let i := (o.get l).interval
      let n := if 200 < i.toInt.natAbs then min 3 ((s.lane.get l).fld Reg.SYNC_SKEW 16 2 + 1) else 0
      let s := s.upd l fun L => (L.setFld Reg.SYNC_SKEW 0 16 i.toNat).setFld Reg.SYNC_SKEW 16 2 n
      if n = 3 then (s.eventIn l Base.vote 0x005 i.toNat).minority l 0x04 else s) s

/-! ### The freeze: received data and its currency (R122, R163, R332, R357) -/

/-- A source that is VALID with its data. -/
def validSource (L : LaneSt) (k : Nat) : BitVec 512 := getD 0 L.rx k ||| BitVec.ofNat 512 (2 ^ 511)

/-- The age of a unit in a lane, and whether its data is current (R332). -/
def State.unitCurrent (s : State) (L : LaneSt) (c : UnitCfg) : Bool :=
  (s.unitAdm c.unit).admitted && decide (L.unitAge s.link.bc64 c.unit ≤ c.maxAge)

/-- A session's data is current (R357): OPEN, and the echo of its latest DATA telegram not older than T_EXP. -/
def sessCurrent (L : LaneSt) (c : SessCfg) : Bool :=
  let S := L.session c.num
  (S.st == .opened || S.st == .renewing) && S.dataEcho != 0 && decide (sub48 L.micros S.dataEcho ≤ c.tExp * 1000)

/-- The sources that are VALID in a lane at the freeze. -/
def State.validSources (s : State) (L : LaneSt) : List Nat :=
  ((s.file.units.filter fun c => s.unitCurrent L c).map fun c => c.unit)
    ++ ((s.file.sessions.filter fun c => sessCurrent L c).flatMap fun c => (List.range 32).map fun j => 0x1000 + 32 * c.num + j)
    ++ ((s.file.canBufs.filter fun c => c.dir == 1 && (L.canBuf (canKey c.port c.buf)).valid).flatMap fun c =>
      [0x2000 + 128 * c.port + 2 * c.buf, 0x2000 + 128 * c.port + 2 * c.buf + 1])

/-- Received data as the freeze latches it; a source that is not VALID reads 0 (R163). `TB_S_STATE.VALID` shows each
session's VALID bit (R357). -/
def State.latchSources (s : State) (L : LaneSt) : LaneSt :=
  { s.file.sessions.foldl (fun M c => M.setSession c.num fun S => { S with valid := sessCurrent L c }) L with
    rxFrozen := (s.validSources L).foldl (fun m k => putD 0 m k (validSource L k)) []
    unitsFrozen := L.units }

/-- One ROUTE_REQUEST telegram of each session belongs to the cycle; the next waits its turn (R208). -/
def LaneSt.nextRequests (L : LaneSt) : LaneSt :=
  L.sess.foldl (fun L e =>
    if e.2.nextReq.isNone ∧ e.2.reqs.isEmpty ∧ e.2.waiting.isEmpty then L
    else L.setSession e.1 fun S =>
      match S.nextReq with
      | some t => { S with reqs := [t], nextReq := none }
      | none => { S with reqs := S.waiting.head?.toList, waiting := S.waiting.tail }) L

/-- The timers that have expired on a lane's own clock (R232). -/
def State.timerMarks (s : State) (L : LaneSt) : List Nat :=
  (s.file.timers.filter fun t => (L.timerFlags t.1).testBit 0 && decide (L.timerExpiry t.1 ≤ L.clock)).map fun t => t.1

/-- What one lane latches at the freeze (R121). -/
def State.latchLane (s : State) (L : LaneSt) : LaneSt :=
  let q := L.canLatch s.file.canBufs
  let L := (s.latchSources q.1).nextRequests
  let n := L.field.fifo.length
  let L := L.eachCell fun c => { c with done := false }
  let L := (L.setFld Reg.FS_FIFO 0 11 n).maxFld Reg.FS_FIFO 16 11 n
  { L with
    marks := s.timerMarks L
    pend := L.pend.map fun w => { w with frozen := true }
    field := { L.field with frozen := L.field.filt, drained := L.field.fifo, fifo := [] }
    logic := { L.logic with evaluating := false, ended := false }
    image := { L.image with done := false } }

/-- The receive buffers that lose VALID at the freeze (R547). -/
def State.lostBuffers (s : State) (l : Lane) : List (Nat × Nat) := ((s.lane.get l).canLatch s.file.canBufs).2

/-- The lanes latch their inputs. -/
def State.latchInputs (s : State) : State :=
  let lost : LaneVec (List (Nat × Nat)) := LaneVec.ofFn s.lostBuffers
  let s := s.updAll fun _ L => s.latchLane L
  let s := Lane.list.foldl (fun s l => if s.parts.get l then s.canTimeouts l (lost.get l) else s) s
  { s with link := { s.link with cmdsFrozen := s.link.cmds, ackFrozen := s.link.cmdAck } }

/-- The link record of a LINESIDE module: the basic cycles since the last valid poll addressed to it (R561). -/
def State.tallyPoll (s : State) : State :=
  match s.role, s.link.pollAt with
  | .lineside, some t =>
    if s.tallies && s.mstate.evaluates then
      s.updIn s.parts fun _ L => L.tallyAge 80 ((s.link.bc64 % 2 ^ 32 + 2 ^ 32 - t.2) % 2 ^ 32)
    else s
  | _, _ => s

/-- The agreed age of each unit (R201, R332), with the largest of the second for the Tally Recorder. -/
def State.ageUnits (s : State) : State :=
  let L := s.lane.get s.leadLane
  s.file.units.foldl (fun s c =>
    let a := L.unitAge s.link.bc64 c.unit
    let s := s.setUnit c.unit fun x => { x with age := a, valid := s.unitCurrent L c }
    if s.tallies && s.mstate.evaluates then s.updIn s.parts fun _ L => L.tallyAge (79 + c.unit) a else s) s

/-- The sessions of the Platform Link and of the Cabinet Bus, which no command of the table watches, where the module receives on them
(R348, R360). -/
def State.lapseLinks (s : State) : State :=
  if !s.mstate.evaluates then s else
  let s : State := match s.role with
    | .central => s.file.units.foldl (fun s c => s.lapse (unitSess c.unit) (unitTExp s c true)) s
    | .lineside => s.lapse ownSess (unitTExp s s.ownUnit false)
  s.file.canBufs.foldl (fun s c => if c.tablet && c.dir == 1 then s.lapse (canSess c.port c.buf) (c.tExp * 1000) else s) s

/-- An injection's cycles pass (R445). -/
def State.countInjection (s : State) : State := { s with inj := s.inj.map fun i => { i with left := i.left - 1 } }

/-- FREEZE: on the rising edge of the module SYNC line. -/
def execFreeze (o : LaneVec FreezeObs) (s : State) : Host.Outcome State Fault Refusal :=
  if !s.mstate.agrees then .next s
  else
    let s := (s.freezeTime o).beginCycle.confirmRestart
    let s := Lane.list.foldl (fun s x => s.laneBoundary x) s
    let s := s.swapDue.pauseDue.formWaiting
    let s := s.slewClocks
    let s := if s.mstate.voting then s.checkClocks.checkSkew o else s
    let s := s.countInjection.latchInputs
    let s := s.ageUnits.tallyPoll.lapseLinks
    let s := s.fieldFreeze (o.map fun _ x => x.field) s.mirrored
    let s := s.canFreeze.tallyTick.readHardware
    .next s.checkLast

/-! ### The output instant -/

/-- The forces on the outputs of a source: bit and value (R492). -/
def State.forcedOutputs (s : State) (src : Nat) : List (Nat × Bool) :=
  s.forces.filterMap fun e =>
    if e.2.kind = 3 then
      match s.forcedChan e.2 with
      | some x => if x.1 = src then some (x.2, e.2.value) else none
      | none => none
    else none

/-- A map with forced bits replaced. -/
def applyForces (v : BitVec 256) (fs : List (Nat × Bool)) : BitVec 256 := fs.foldl (fun v f => chanPut v f.1 f.2) v

/-- The commands that one lane gives its switches: its logic's, forced, only for channels in service (R262), not those
the takeover latch holds off (R405), and in LINESIDE role only what the latest valid command demands (R18). -/
def State.laneCommands (s : State) (L : LaneSt) : BitVec 256 :=
  s.permitted s.link.cmdsFrozen (applyForces (L.outSrc 0) (s.forcedOutputs 0) &&& ~~~s.xo.latch)

/-- The latch lets go of the outputs that the logic commands OFF (R405). -/
def State.releaseLatch (s : State) : State :=
  if s.worksImage then s.setXo fun x => { x with latch := x.latch &&& (s.lane.get s.leadLane).outSrc 0 } else s

/-- A lane in PROBATION that has agreed twice and toggled LIVE for 1 ms enters ACTIVE (R50); the conducting lane passes it the
keys of the open sessions (DESIGN CHOICE, log 94). It commands the isolators, and every switch is to be tested within 8 s (R59,
R242). -/
def State.rejoin (s : State) (x : Lane) : State :=
  let c := s.ctl.get x
  if c.mode = .probation ∧ 2 ≤ c.agreed ∧ c.liveAt + 1000000 ≤ s.now then
    let e := s.entries24 x ++ [s.now]
    let keys := (s.lane.get s.leadLane).tlsKeys
    let s := s.setCtl x fun c => { c with mode := .active, cls := .note, watch := [], entries := e }
    let s := s.upd x fun L => { L with tlsKeys := keys }
    let s := s.setIsolators.restartTests
    s.laneEntry s.inStep x .active 0x11 .note
  else s

/-- The channels whose switches take the commands again after a trip (R260). -/
def State.endTrips (s : State) : State :=
  (s.fld.chan.filter fun e => e.2.heldOff && decide (e.2.offTill ≤ s.now)).foldl
    (fun s e => s.setChan e.1 fun c => { c with heldOff := false }) s

/-- The switch drivers of every lane take its commands (R34, R123); those of a lane outside the vote, and of one whose charge
pump has run down (R60), are open. -/
def State.driveSwitches (s : State) : State :=
  let drives := s.mstate.drives
  let tallies := s.tallies
  let outs := s.outputs
  s.updAll fun l L =>
    if L.field.decaying then L
    else
      let v := if drives && s.isActive l && !L.field.unpowered then s.laneCommands L else 0
      let on := v &&& ~~~L.field.cmd
      let want := if s.worksImage && s.inStep.get l then applyForces (L.outSrc 0) (s.forcedOutputs 0) else 0
      let L := { L with field := { L.field with cmd := v, want := want } }
      if tallies && on != 0 then outs.foldl (fun L n => if chanBit on n then L.tallyOn n else L) L else L

/-- In a cycle that a planned handover pauses, the commands stand as far as the switches may keep them (R18, R262, R410). -/
def State.holdSwitches (s : State) : State :=
  s.updAll fun _ L =>
    if L.field.decaying then L else { L with field := { L.field with cmd := s.permitted s.link.cmdsFrozen L.field.cmd } }

/-- What an output instant does to the tests (R265, R266): a test of a channel whose command changes ends; a test that waits may
run; the dark pulses of an output that turns ON are due from here. -/
def State.testsAtOutput (before s : State) : State :=
  let s := (List.range 16).foldl (fun s b => s.setBank b fun q => { q with retry := q.retry.map fun r => { r with ready := true } }) s
  let s := s.abortTests fun t => before.commanded t.ch != s.commanded t.ch
  (s.outputs.filter fun n => s.commanded n && !before.commanded n).foldl (fun s n => s.setChan n fun c => { c with onFrom := s.now }) s

/-- The cycle has come to its output instant: after the digest vote, or after input agreement in a cycle that evaluates
nothing (R120). -/
def State.outputDue (s : State) : Bool := s.cyc.step == .voted || (s.cyc.step == .agreed && !s.worksImage)

/-- OUTPUT_INSTANT: the module SYNC line falls, in SAFE too, where the lanes keep it and drive nothing (R434). -/
def execOutputInstant (s : State) : Host.Outcome State Fault Refusal :=
  if !s.mstate.agrees || !s.outputDue then .next s
  else if !s.mstate.voting then .next { s with cyc := { s.cyc with step := .output, syncLine := false, syncReq := .all false } }
  else
    let s := { s with cyc := { s.cyc with step := .output, syncLine := false, syncReq := .all false } }
    let s := Lane.list.foldl (fun s x => s.rejoin x) s
    let s := s.endTrips
    .next (State.testsAtOutput s (if s.xo.hoPaused then s.holdSwitches else s.releaseLatch.driveSwitches)).sendMirrors

/-- OUT_EDGE_MISSING: a lane has seen no falling edge; `late` is the lane whose request still stood. -/
def execOutEdgeMissing (l late : Lane) (s : State) : Host.Outcome State Fault Refusal :=
  if !s.mstate.voting || !s.inStep.get l then .next s
  else
    let two := s.twoOfTwo
    let s := s.upd l fun L => L.addFld Reg.CYC_EVENTS 16 8 1
    let s := if two then s.safeByAll 0x09 else if s.isActive late then s.minority late 0x07 else s
    .next (s.report l (Blk.ofOff Base.cyc) 1 0).checkLast

/-! ### Publication, release, roll-forward -/

/-- The inputs, the service bits and the edges that a LINESIDE module reports from this generation on (R301, R302). -/
def State.publishLink (s : State) : State :=
  let new := s.link.newEdges
  let old := s.link.edges.filter fun x => !new.any fun e => e.ch == x.1.ch && e.rise == x.1.rise
  { s with link := { s.link with
      pubIn := (getD 0 s.inp 0).setWidth 256, pubServ := (getD 0 s.inp 0x401).setWidth 256
      newEdges := [], edges := old ++ new.map fun e => (e, neverSent) } }

/-- What the first lane to publish settles for all: the number, the commands of the units with the takeover latch (R298,
R405), what RV registers show, FORCE_IND (R485), the generations of RESTART_LOCKED (R478). -/
def State.firstPublication (s : State) : State :=
  let L := s.lane.get s.leadLane
  let s := { s.publishLink with gen := s.nextGen, cyc := { s.cyc with pubAt := s.now } }
  let s : State := s.file.units.foldl (fun (s : State) c =>
    let raw := L.outSrc c.unit
    s.setUnit c.unit fun (a : UnitAdm) =>
      let latch := a.latch &&& raw
      { a with prevCmds := a.cmds, latch := latch, cmds := applyForces raw (s.forcedOutputs c.unit) &&& ~~~latch }) s
  let s := if s.mstate = .restartLocked then { s with lockedGens := s.lockedGens ++ [(s.gen, s.now)] } else s
  ({ s with power := { s.power with forceInd := decide (s.hdrWord L / 64 % 8 ≠ 0) } }).sendLinkMirrors.noteSeen

/-- PUBLICATION: a lane writes the header and its buffers exchange their roles (R131). -/
def execPublication (l : Lane) (s : State) : Host.Outcome State Fault Refusal :=
  if !s.worksImage || s.cyc.step != .output || !s.inStep.get l || (s.lane.get l).image.done then .next s
  else
    let first := Lane.list.all fun x => !(s.lane.get x).image.done
    let s := if first then s.firstPublication.markPages else s
    .next (s.upd l fun L => (L.publish s s.gen).ageClosed)

/-- PUB_LATE: a lane in step that has not exchanged its buffers by t_pub (R132). -/
def State.lateLanes (s : State) : State :=
  if s.worksImage then
    let late := LaneVec.ofFn fun l => s.inStep.get l && !(s.lane.get l).image.done
    Lane.list.foldl (fun s l => if late.get l then s.report l (Blk.ofOff Base.image) 0 0 else s) s
  else s

/-- The size and the time of the copy that the holder sends are not stated: free values within 1 MiB and 340 µs (R394; log 10). -/
def State.noteCopy (s : State) : State :=
  if s.xo.role = .holder then
    let q := s.fresh
    let r := q.2.fresh
    let size := q.1.toNat % 32769
    let time := r.1.toNat % 341
    r.2.updIn r.2.parts fun _ L => { L with opn := { L.opn with
      copySize := size, copyTime := time, sizeMax := max L.opn.sizeMax size, timeMax := max L.opn.timeMax time } }
  else s

/-- RELEASE: telegrams are formed, the copy and the transmit queues start. -/
def execRelease (s : State) : Host.Outcome State Fault Refusal :=
  if !s.mstate.voting ∨ s.cyc.step ≠ .output then .next s
  else
    let s := { s with cyc := { s.cyc with step := .released } }
    let s := s.lateLanes.checkLast
    if s.mstate.voting then
      let paused := s.xo.hoPaused
      let s := s.setXo fun x => { x with takeover := false }
      let s := s.noteCopy.sendCopies s.worksImage
      .next (if paused then s else s.releaseFormed.formTelegrams.canRelease)
    else .next s

/-- The copy of a generation is abandoned: the standby is no longer synchronised, and what was held for it leaves (R133,
R147). -/
def State.copyAbandoned (s : State) : State :=
  if s.hasStandby then
    ((s.setXo fun x => { x with sentPages := [], peer := x.peer.map fun b => { b with sync := 1 } }).count
      Reg.XO_EVENTS 16 8 1).flushHeld
  else if s.xo.role = .holder ∧ s.peerCatches then (s.setXo fun x => { x with sentPages := [] }).count Reg.XO_EVENTS 16 8 1
  else s

/-- ROLL_FORWARD: `copied` tells whether the Crossover engine had finished reading, `late` whether the roll-forward has
not completed by t0 + 60 µs. -/
def execRollForward (l : Lane) (copied late : Bool) (s : State) : Host.Outcome State Fault Refusal :=
  if (s.lane.get l).image.rolled then .next s
  else
    let s := if copied then s else s.copyAbandoned
    let s := s.upd l LaneSt.rollForward
    .next (if late then (s.report l (Blk.ofOff Base.image) 1 0).checkLast else s)

/-- PIN_EXPIRY: a pin of a port expires, that of generation g once g + 3 has been published (R141). -/
def execPinExpiry (l : Lane) (p : Port) (s : State) : Host.Outcome State Fault Refusal :=
  .next (s.upd l fun L => L.expirePins 0 16 fun q => q.port == p && decide (q.gen + 3 ≤ L.pubGen))

/-! ### The Lane Exchange (R28, R29, R52, R61) -/

/-- The ends of a link. -/
def linkEnds : LxLink → Lane × Lane
  | .ab => (.A, .B) | .bc => (.B, .C) | .ca => (.C, .A)

/-- The higher-lettered lane of a link. -/
def higherEnd : LxLink → Lane
  | .ab => .B | .bc => .C | .ca => .C

/-- The number of a link at a lane: 0 for link 1, 1 for link 2 (R66); none where the lane does not end it. -/
def linkAt (l : Lane) (k : LxLink) : Option Nat :=
  match l, k with
  | .A, .ab => some 0 | .A, .ca => some 1 | .B, .ab => some 0 | .B, .bc => some 1 | .C, .bc => some 0 | .C, .ca => some 1
  | _, _ => none

def linkNo : LxLink → Nat
  | .ab => 0 | .bc => 1 | .ca => 2

/-- The other link of a lane, and the lane at the other end of a link. -/
def otherLink (l : Lane) (k : LxLink) : LxLink :=
  match l, k with
  | .A, .ab => .ca | .A, _ => .ab | .B, .ab => .bc | .B, _ => .ab | .C, .bc => .ca | .C, _ => .bc

def farEnd (l : Lane) (k : LxLink) : Lane := if (linkEnds k).1 = l then (linkEnds k).2 else (linkEnds k).1

/-- A lane exchanges: it is in step or resynchronises. -/
def State.exchanges (s : State) (l : Lane) : Bool := s.mode l == .active || s.mode l == .probation || s.mode l == .resync

/-- A link is trained. -/
def LxSt.train (x : LxSt) : LxLink → LxSt
  | .ab => { x with ab := true } | .bc => { x with bc := true } | .ca => { x with ca := true }

/-- A link has failed twice in one window: a lane that resynchronises over it enters HALTED (R29, R438); two ACTIVE
lanes alone cannot go on (R52); otherwise the higher-lettered lane is excluded (R28). -/
def State.linkFailed (s : State) (k : LxLink) : State :=
  let e := linkEnds k
  if s.mode e.1 = .resync then s.exclude e.1 .laneHalt 0x05 none
  else if s.mode e.2 = .resync then s.exclude e.2 .laneHalt 0x05 none
  else if s.twoOfTwo ∧ s.isActive e.1 = true ∧ s.isActive e.2 = true then s.safeByAll 0x03
  else s.exclude (higherEnd k) .laneRecover 0x05 none

/-- A lane asks for the repetition of a transfer (R28). -/
def State.askAgain (s : State) (k : LxLink) (rcv : Lane) : State :=
  let s := { s with lx := { s.lx with retry := s.lx.retry ++ [(k, rcv)] } }
  (s.upd rcv fun L => L.addFld Reg.LX_LINK (8 + 8 * linkNo k) 8 1).eventIn rcv Base.lx 0x008 (linkNo k)

/-- A transfer that a lane could not use: it asks once for a repetition; the second failure decides (R28). -/
def State.transferFailed (s : State) (k : LxLink) (rcv : Lane) : State :=
  if s.lx.retry.contains (k, rcv) then s.linkFailed k else s.askAgain k rcv

/-- LX_TRANSFER: a transfer arrives at a lane, good or with a bad CRC. -/
def execLxTransfer (k : LxLink) (rcv : Lane) (crcOk : Bool) (s : State) : Host.Outcome State Fault Refusal :=
  match linkAt rcv k with
  | none => .next s
  | some n =>
    if !s.mstate.voting || !s.exchanges rcv || !s.exchanges (farEnd rcv k) then .next s
    else
    -- the lane at the far end has sent on this link in the window (R61)
    let s := { s with lx := { s.lx with missed := s.lx.missed.filter fun e => e != (k, farEnd rcv k) } }
    if crcOk then
      .next { s with lx := { s.lx.train k with retry := s.lx.retry.filter fun e => e != (k, rcv) } }
    else
      let s := s.upd rcv fun L => L.addFld (if n = 0 then Reg.LX_L1_ERR else Reg.LX_L2_ERR) 0 16 1
      let s := s.report rcv (Blk.ofOff Base.lx) n 0
      .next (s.transferFailed k rcv).checkLast

/-- A silent lane is excluded; its switches stay as they were until their charge runs down (R60, R61). -/
def State.excludeSilent (s : State) (x : Lane) : State :=
  let cmd := (s.lane.get x).field.cmd
  (s.exclude x .laneRecover 0x06 none).upd x fun L => { L with field := { L.field with cmd := cmd, decaying := true } }

/-- STEP_WINDOW_MISSED: a lane has sent nothing on a link within a step window; the lane at the far end, where it exchanges,
asks for a repetition. On neither of its links, the lane is silent (R61). What a lane outside the vote does not send because of its
state is explained: recorded once, and counted against no lane (R438, R439). -/
def execStepWindowMissed (k : LxLink) (silent : Lane) (s : State) : Host.Outcome State Fault Refusal :=
  let rcv := farEnd silent k
  match linkAt silent k, linkAt rcv k with
  | some _, some n =>
    if !s.mstate.voting then .next s
    else if s.mode silent = .excluded ∨ s.mode silent = .resync ∨ s.mode silent = .halted then
      .next (if s.inStep.get rcv then s.echo rcv Base.lx 0x008 (linkNo k) else s)
    else
      let hears := s.exchanges rcv
      let s := if hears then s.upd rcv fun L => L.addFld (if n = 0 then Reg.LX_L1_ERR else Reg.LX_L2_ERR) 16 16 1 else s
      if s.lx.missed.contains (otherLink silent k, silent) then
        let s := if hears && !s.lx.retry.contains (k, rcv) then s.askAgain k rcv else s
        .next (s.excludeSilent silent).checkLast
      else
        let s := { s with lx := { s.lx with missed := s.lx.missed ++ [(k, silent)] } }
        .next (if hears then (s.transferFailed k rcv).checkLast else s)
  | _, _ => .next s

/-! ### Paired transmitters (R38 to R40) -/

/-- The first frame at a transmitter, and the queue without it. -/
def takeFrame (ch : TxChan) : List TxFrame → Option (TxFrame × List TxFrame)
  | [] => none
  | f :: fs => if f.ch = ch then some (f, fs)
    else match takeFrame ch fs with
      | some q => some (q.1, f :: q.2)
      | none => none

/-- What leaves next at a transmitter, and the queue after it: the first frame that waits; on XH, where none does, the heartbeat
(R390, R391). -/
def State.nextFrame (s : State) (ch : TxChan) : Option (TxFrame × List TxFrame) :=
  match takeFrame ch s.txq with
  | some q => some q
  | none => if ch = .xh ∧ s.beat.isSome then some (⟨.xh, [], s.txPair, none⟩, s.txq) else none

/-- The last frame that left a transmitter. -/
def State.sent (s : State) (f : TxFrame) (bs : Bytes) : State :=
  { s with txLast := (s.txLast.filter fun t => t.ch != f.ch) ++ [{ f with bytes := bs }] }

/-- The third ACTIVE lane, which is not of a transmitting pair (R40). -/
def State.thirdLane (s : State) (pr : Lane × Lane) : Option Lane :=
  Lane.list.find? fun l => s.isActive l && l != pr.1 && l != pr.2

/-- The transmitter compares the copies of the pair as it sends (R38, R40). Equal copies leave; a third lane that differs is in the
minority. Different copies are lost and counted; the lane that differs from the third lane is in the minority, and without a third
lane the module enters SAFE. -/
def State.sendCompared (s : State) (f : TxFrame) (pr : Lane × Lane) (copies : LaneVec Bytes) : State :=
  let a := copies.get pr.1
  let b := copies.get pr.2
  if a = b then
    let s := s.sent f a
    match s.thirdLane pr with
    | some t => if copies.get t ≠ a then s.minority t 0x03 else s
    | none => s
  else
    let s := (s.count Reg.TX_ERR_CNT 0 16 1).event Base.vote 0x006 0
    match s.thirdLane pr with
    | some t =>
      let s := if copies.get t ≠ a then s.minority pr.1 0x03 else s
      let s := if copies.get t ≠ b then s.minority pr.2 0x03 else s
      s.checkLast
    | none => s.safeByAll 0x03

/-- TX_FRAME_START: the paired transmitter sends the first frame that waits at it. Where a lane of the pair that coded it has left the
vote, its copy is withheld, and the frame is abandoned (R25, R39). -/
def execTxFrameStart (ch : TxChan) (copies : LaneVec Bytes) (s : State) : Host.Outcome State Fault Refusal :=
  match s.nextFrame ch with
  | none => .next s
  | some q =>
    if !s.mstate.voting then .next (if ch = .xh ∧ copies.a = copies.b then s.sent q.1 copies.a else s)
    else
      let s := { s with txq := q.2 }
      match pairLanes q.1.pair with
      | none => .next s
      | some pr =>
        .next (if s.isActive pr.1 && s.isActive pr.2 then s.sendCompared q.1 pr copies else s.countTxLate q.1.pair)

/-- TX_LATE: the second copy falls more than 20 µs behind; the frame is abandoned and counted. -/
def execTxLate (ch : TxChan) (s : State) : Host.Outcome State Fault Refusal :=
  match takeFrame ch s.txq with
  | some q => .next (({ s with txq := q.2 }).countTxLate q.1.pair)
  | none => .next s

/-! ### Resynchronisation pages (R47, R48) -/

/-- RESYNC_PAGE: both copies of a page have arrived, the same or not. The ACTIVE lanes count every page they send, the
resynchronising lane those it receives in agreement; a marked page counts as sent again. A second difference ends the
resynchronisation in HALTED. -/
def execResyncPage (l : Lane) (page : BitVec 20) (same : Bool) (s : State) : Host.Outcome State Fault Refusal :=
  let p := page.toNat
  if s.mode l ≠ .resync ∨ !s.othersActive l ∨ resyncPages ≤ p then .next s
  else
    let c := s.ctl.get l
    let again := c.marked.contains p
    let s := s.updAll fun x L =>
      if x == l && !same then L
      else
        let L := L.addFld Reg.LX_RESYNC 0 16 1
        if again then L.addFld Reg.LX_RESYNC 16 16 1 else L
    if same then
      .next (s.setCtl l fun c => { c with
        pages := insertNat p c.pages, marked := c.marked.filter fun q => q != p, retry := c.retry.filter fun q => q != p })
    else if c.retry.contains p then .next (s.exclude l .laneHalt 0x0A none)
    else .next (s.setCtl l fun c => { c with
      pages := c.pages.filter fun q => q != p, retry := insertNat p c.retry })

/-! ### The limit of 2-out-of-2 operation (R53 to R55) -/

/-- The limit of 2-out-of-2 operation, ns: `VOTE_CFG.DEG_LIMIT` in hours (R53, R64). -/
def State.degLimit (s : State) : Nat := fieldOf (s.agreedReg Reg.VOTE_CFG) 0 8 * 3600000000000

/-- DEG_WARN: the count reaches 75 % of the limit (R54). -/
def execDegWarn (s : State) : Host.Outcome State Fault Refusal :=
  if s.deg.warn ∨ 4 * s.deg.ns < 3 * s.degLimit then .next s
  else .next (({ s with deg := { s.deg with warn := true } }).event Base.vote 0x00F 0)

/-- DEG_EXPIRED: the count reaches the limit (R55). -/
def execDegExpired (s : State) : Host.Outcome State Fault Refusal :=
  if !s.mstate.voting ∨ s.deg.ns < s.degLimit then .next s
  else
    let s := { s with deg := { s.deg with expired := true } }
    .next s.degExpire

/-- DEG_COUNT_RESET: the module has run with three ACTIVE lanes for 10 min without interruption. -/
def execDegCountReset (s : State) : Host.Outcome State Fault Refusal :=
  if s.activeCount = 3 ∧ 600000000000 ≤ s.deg.clean then .next { s with deg := {} } else .next s

end Sys2Proof.Machine
end

