-- ==== Sys2Proof/Machine/Power.lean ====
section
/-! DEFINITION. Machine/Power.lean: supply input, hold-up store, temperature, the keep-alive domain, the LEDs (R571 to R581,
R595 to R599). The detectors of this hardware are read at each freeze and agreed at input agreement (R579). -/

namespace Sys2Proof.Machine

/-! ### Supply input (R571 to R573) -/

/-- The input power that the monitor measures is not stated: a free value (log 10). -/
def State.noteX1 (s : State) (volts : Nat) : State :=
  let q := s.fresh
  q.2.setMreg Reg.PM_X1 (BitVec.ofNat 32 (volts % 65536 + q.1.toNat % 65536 * 65536))

/-- The lane at power-up: what is not volatile stands. When X1 came back before the reserve ran out, so do the MODULE entry
with cause PFAIL and `FC_LAST_SAFE` (R573); the rest of the Occurrence Book is lost (R454). -/
def LaneSt.powerOn (L : LaneSt) (reserve : Bool) : LaneSt :=
  let L' : LaneSt := { LaneSt.reset with mram := L.mram, flash := L.flash, keys := { L.keys with hasKey := false }, standing := L.standing }
  if reserve then
    { L'.setReg Reg.FC_LAST_SAFE (L.reg Reg.FC_LAST_SAFE) with obRing := L.obNewest.toList, obNext := L.obNext }
  else L'

/-- The registers of the module aperture that the keep-alive domain holds (R573, R580). -/
def keptAlive (off : Nat) : Bool := off == Reg.PM_DIPS || off == Reg.KA_TAMPER || off == Reg.KA_VBAT

/-- The module starts from OFF: every lane enters BOOT, and the start-up counts from here (R468, R571). -/
def State.powerOn (s : State) (reserve : Bool) : State :=
  { State.reset with
    pending := s.pending, now := s.now, freeCtr := s.freeCtr, startAt := s.now, drv := { State.reset.drv with offAt := s.drv.offAt }
    lane := s.lane.map fun _ L => L.powerOn reserve
    mregs := s.mregs.filter fun e => keptAlive e.1
    power := { s.power with strapped := false, x1 := true, x1At := s.now - 100000000, held := false, tempHigh := false, overtemp := false, holdLow := false, dip := false,
                            atFreeze := [], cellOk := false, ledTest := false, forceInd := false }
    xo := { hb := s.xo.hb, peerLive := s.xo.peerLive, peerTok := s.xo.peerTok, linkUp := s.xo.linkUp, peer := s.xo.peer,
            hbLost := s.xo.hbLost, liveLost := s.xo.liveLost } }

/-- POWER_UP: X1 has stayed at 16.8 V or more for 100 ms. `reserve` tells that it came back before the reserve ran out. -/
def execPowerUp (volts : Half) (reserve : Bool) (s : State) : Host.Outcome State Fault Refusal :=
  if s.mstate ≠ .off ∨ volts.toNat < 1680 then .next s else .next ((s.powerOn reserve).noteX1 volts.toNat)

/-- X1_INTERRUPTED: X1 below 16.0 V, the module runs from the hold-up store; the interruption counts from here. -/
def execX1Interrupted (volts : Half) (s : State) : Host.Outcome State Fault Refusal :=
  if s.mstate = .off ∨ 1600 ≤ volts.toNat then .next s
  else .next ({ s with power := { s.power with x1 := false, held := true, x1At := if s.power.held then s.power.x1At else s.now } }.noteX1 volts.toNat)

/-- SUPPLY_DIP: an interruption ends that the store has bridged; `tenths` is its length in units of 0.1 ms (R572). -/
def execSupplyDip (tenths : Half) (s : State) : Host.Outcome State Fault Refusal :=
  if s.mstate = .off ∨ !s.power.held then .next s
  else
    let dips := s.mreg Reg.PM_DIPS
    let s := { s with power := { s.power with x1 := true, x1At := s.now, held := false, dip := true } }
    .next (s.setMreg Reg.PM_DIPS (BitVec.ofNat 32
      (satAdd 16 (fieldOf dips 0 16) 1 + max (fieldOf dips 16 16) tenths.toNat * 65536)))

/-- The changed records of group 0 go to MRAM, but for the copies whose read-back fails (R559, R573). -/
def State.saveGroup0 (s : State) (bad : List (Lane × BitVec 13)) : State :=
  Lane.list.foldl (fun s l =>
    (List.range 20).foldl (fun s r =>
      if ((s.lane.get l).tallyRec r).dirty then s.storeRecord l r (!(badOf bad l).contains r) else s) s) s

/-- The module runs from the hold-up store, 10 ms and more after the interruption began (R573). -/
def State.reserveDue (s : State) : Bool := s.power.held && decide (s.power.x1At + 10000000 ≤ s.now)

/-- PFAIL: the store is at its reserve level. The safe gate latches at no lane's request, each lane records it, writes
group 0, and is then held in reset (R573). -/
def execPfail (bad : List (Lane × BitVec 13)) (s : State) : Host.Outcome State Fault Refusal :=
  if s.mstate = .off ∨ !s.reserveDue then .next s
  else
    let s := { s with drv := { s.drv with gate := false } }.enterSafe 0x0C 3 (.all false)
    let s := s.saveGroup0 bad
    .next { s with drv := { s.drv with mstate := .off, vdrv := false, offAt := s.driveOffAt }, power := { s.power with x1 := false, held := false },
                   hp := {}, maint := [] }

/-! ### Hold-up store and heat (R574, R578) -/

/-- A measurement of the hold-up store, percent of what R572 needs. -/
def State.noteHoldup (s : State) (percent : Nat) : State :=
  { s.setMfld Reg.PM_TEMP 16 8 percent with power := { s.power with holdLow := decide (percent < 100), measured := s.now } }

/-- A measurement is due: 60 s after the last, with X1 present without interruption for 10 s (R574). -/
def State.holdupDue (s : State) : Bool :=
  !s.power.held && decide (s.power.measured + 60000000000 ≤ s.now) && decide (s.power.x1At + 10000000000 ≤ s.now)

/-- HOLDUP_MEASURE (R574). -/
def execHoldupMeasure (percent : Byte) (s : State) : Host.Outcome State Fault Refusal :=
  if s.mstate = .off ∨ !s.holdupDue then .next s else .next (s.noteHoldup percent.toNat)

/-- A measurement of the base plate, 0.1 °C. -/
def State.noteBase (s : State) (base : Half) : State := s.setMfld Reg.PM_TEMP 0 16 base.toNat

/-- TEMP_HIGH: above 72 °C for 10 s. -/
def execTempHigh (base : Half) (s : State) : Host.Outcome State Fault Refusal :=
  if s.mstate = .off ∨ base.toInt ≤ 720 then .next s
  else .next ({ s with power := { s.power with tempHigh := true } }.noteBase base)

/-- TEMP_HIGH_CLEAR: below 68 °C. -/
def execTempHighClear (base : Half) (s : State) : Host.Outcome State Fault Refusal :=
  if s.mstate = .off ∨ 680 ≤ base.toInt then .next s
  else .next ({ s with power := { s.power with tempHigh := false } }.noteBase base)

/-- OVERTEMP: above 80 °C for 10 s; the cause stays present until OVERTEMP_CLEAR. -/
def execOvertemp (base : Half) (s : State) : Host.Outcome State Fault Refusal :=
  if s.mstate = .off ∨ base.toInt ≤ 800 then .next s
  else .next ({ s with power := { s.power with overtemp := true } }.noteBase base)

/-- OVERTEMP_CLEAR: below 68 °C for 10 s. -/
def execOvertempClear (base : Half) (s : State) : Host.Outcome State Fault Refusal :=
  if s.mstate = .off ∨ 680 ≤ base.toInt then .next s
  else .next ({ s with power := { s.power with overtemp := false } }.noteBase base)

/-! ### The keep-alive domain (R580, R581) -/

/-- CELL_LOW: VBAT as measured, mV; at 2.5 V or more the cell is good again (log 24). -/
def execCellLow (mv : BitVec 12) (s : State) : Host.Outcome State Fault Refusal :=
  let low := decide (mv.toNat < 2500)
  .next { s.setMfld Reg.KA_VBAT 0 12 mv.toNat with power := { s.power with cellLow := low, cellOk := !low } }

/-- TAMPER: the first one is recorded with the time of the backup clock. The loss of both supplies stops the clock and
counts as tamper; it happens only without X1. -/
def execTamper (lostBoth : Bool) (s : State) : Host.Outcome State Fault Refusal :=
  if lostBoth ∧ s.mstate ≠ .off then .next s
  else
    let s := if s.power.tamper then s
      else s.setMreg Reg.KA_TAMPER (BitVec.ofNat 32 (s.power.backupClock / 1000000000))
    .next { s with power := { s.power with tamper := true, clkValid := s.power.clkValid && !lostBoth } }

/-- TAMPER_CLEAR: the write has `TAMPER` set. -/
def execTamperClear (p : Port) (d : Word) (s : State) : Host.Outcome State Fault Refusal :=
  .next (if s.mstate = .off then s else (s.moduleWord p Reg.KA_STAT (setField d 2 1 1)).state)

/-! ### LEDs (R598) -/

/-- LED_TEST: the write has `TEST` set. -/
def execLedTest (p : Port) (d : Word) (s : State) : Host.Outcome State Fault Refusal :=
  .next (if s.mstate = .off then s else (s.moduleWord p Reg.LED_TEST (setField d 0 1 1)).state)

/-- LED_TEST_END: 5 s after the write (R598). -/
def execLedTestEnd (s : State) : Host.Outcome State Fault Refusal :=
  .next (if s.power.ledAt + 5000000000 ≤ s.now then { s with power := { s.power with ledTest := false } } else s)

end Sys2Proof.Machine
end

