-- ==== Sys2Proof/Machine/Startup.lean ====
section
/-! DEFINITION. Machine/Startup.lean: from power to service (R467 to R475): BOOT, LOAD, TEST, SYNC, and the external reset
(R482, R483). -/

namespace Sys2Proof.Machine

/-! ### BOOT (R469, R589) -/

/-- The lanes that still take part in the start-up. -/
def State.starting (s : State) : LaneSet := LaneVec.ofFn fun l => s.mode l != .halted

/-- A lane fails in the start-up and enters HALTED. A failed self-test is a report whose entry precedes (R457, R473); the checks of
BOOT have no detector and no lane cause of their own, and the entry that they leave stands alone (DESIGN CHOICE, log 134). -/
def State.failLane (s : State) (l : Lane) (det : Option Det) : State :=
  let conducts : Bool := s.lead == some l
  let s := match det with
    | some d => s.upd l fun L => (L.setBits (Blk.base d.blk + 0x10) (2 ^ d.bit)).takeReport l d.blk d.bit (s.classOf d.blk d.bit) 0 s.cyc.num 0
    | none => s
  let s := (s.laneEntry s.starting l .halted 0x01 .laneHalt).setCtl l fun c =>
    { c with mode := .halted, cls := .laneHalt, permit := false }
  if conducts then s.closeSessions else s

/-- Lanes that fail, each with its detector where it has one. -/
def State.failLanes (s : State) (bad : LaneVec (Option (Option Det))) : State :=
  Lane.list.foldl (fun s l => match bad.get l with
    | some d => if s.mode l != .halted then s.failLane l d else s
    | none => s) s

/-- The module enters SAFE in the start-up with a cause, requested by the lowest-lettered lane that takes part. -/
def State.refuseStart (s : State) (cause : Nat) : State :=
  s.enterSafe cause (match firstOf s.starting with | some l => l.code | none => 3) s.starting

/-- A strap as the three lanes read it: linked or open when all agree (R589). -/
def strapOf (o : LaneVec BootObs) (f : BootObs → Strap) : Option Bool :=
  match f o.a, f o.b, f o.c with
  | .linked, .linked, .linked => some true
  | .opened, .opened, .opened => some false
  | _, _, _ => none

/-- The role and PREF: sampled in the first BOOT since power came, and as sampled then in every later one (R1, R589). -/
def State.readStraps (s : State) (o : LaneVec BootObs) : Option (Role × Bool) :=
  if s.power.strapped then some (s.role, s.pref)
  else match strapOf o fun b => b.role, strapOf o fun b => b.pref with
    | some r, some p => some (if r then .lineside else .central, p)
    | _, _ => none

/-- A lane at the start of a start-up: the Station Clock seeded from the backup clock, the tally records from MRAM, the
entries START and of the module reset, which took `took` ns (R456). -/
def LaneSt.bootLane (L : LaneSt) (l : Lane) (seed took : Nat) (keyOk : Bool) : LaneSt :=
  let L := { L with clock := seed, keys := { L.keys with hasKey := keyOk } }
  let L := (L.setReg Reg.OB_START (BitVec.ofNat 32 L.obNext)).record (obPath l 4 0 0x1F) (obCode 6 0x00E) 0 0 0 0
  (L.record (obPath l 4 0 0x1F) (obCode 8 (RScope.code .module)) 0 0 0 (obData (took / 10 % 2 ^ 32))).loadTally

/-- What every lane does first in BOOT: the clock, the recorders, the hold-up store, the keep-alive domain. -/
def State.bootLanes (s : State) (o : LaneVec BootObs) (holdup : Byte) : State :=
  let seed := if s.power.clkValid then s.power.backupClock else 0
  let s := s.updAll fun l L => L.bootLane l seed (s.now - s.startAt) (o.get l).keyOk
  let s := s.noteHoldup holdup.toNat
  let s := { s with power := { s.power with cellOk := !s.power.cellLow } }
  if s.power.tamper then s.event Base.ks 0x105 0 else s

/-- BOOT. -/
def execBoot (o : LaneVec BootObs) (holdup : Byte) (s : State) : Host.Outcome State Fault Refusal :=
  if s.mstate ≠ .boot then .next s
  else
    let s := s.bootLanes o holdup
    let s := s.failLanes (o.map fun _ b => if b.romOk && b.keyOk then none else some none)
    match s.readStraps o with
    | some q =>
      let s : State := { s with role := q.1, pref := q.2, power := { s.power with strapped := true } }
      if s.starting.count < 2 then .next ((s.event Base.sv 0x103 0).refuseStart 0x05)
      else
        let up (x y : Lane) : Bool := s.starting.get x && s.starting.get y
        .next { s with drv := { s.drv with mstate := .load }, lx := { ab := up .A .B, bc := up .B .C, ca := up .C .A } }
    | none => .next ((s.event Base.sv 0x103 0).enterSafe 0x0B 3 s.starting)

/-! ### LOAD (R470 to R472) -/

/-- The digest on which two lanes agree whose files passed, and the file. -/
def State.agreedFile (s : State) (o : LaneVec LoadObs) : Option StationFile :=
  let ok : LaneSet := LaneVec.ofFn fun l => s.starting.get l && (o.get l).checkOk
  majority ok (LaneVec.ofFn fun l => (s.lane.get l).flash.active)

/-- The lanes that must repair their file. -/
def State.needRepair (s : State) (o : LaneVec LoadObs) (f : StationFile) : LaneSet :=
  LaneVec.ofFn fun l => s.starting.get l && !((o.get l).checkOk && decide ((s.lane.get l).flash.active = f))

/-- The repair: recorded FILE_REPAIRED for each lane. -/
def State.repairFiles (s : State) (bad : LaneSet) (f : StationFile) : State :=
  Lane.list.foldl (fun s l =>
    if bad.get l then
      ({ s.upd l fun L => { L with flash := { L.flash with active := f } } with repaired := true }).event Base.sv 0x104 l.code
    else s) s

/-- The bits that a bank's edge slots follow, and their flags cleared (R179, R181). -/
def LaneSt.loadSlots (L : LaneSt) (f : StationFile) : LaneSt :=
  f.slots.foldl LaneSt.nameSlot { L with logic := { L.logic with slotMap := f.slots } }

/-- What each lane takes from the agreed file: token seeds, registers, the active bank, the slots. -/
def LaneSt.loadFile (L : LaneSt) (f : StationFile) (seed : Half) : LaneSt :=
  let L := (L.loadBank f 0).loadSlots f
  { L with seed := seed, gens := [], tokens := [] }.setReg Reg.VOTE_CFG (f.voteCfg &&& 0x1FF)

/-- A KEPT file: during its REVERT window the shadow banks hold its program and the change state reads SWAPPED; after it
the slot is emptied, recorded CHANGE_COMMITTED (R504). -/
def State.loadKept (s : State) : State :=
  let L := s.lane.get (firstOf s.starting |>.getD .A)
  match L.flash.kept with
  | none => s
  | some k =>
    if L.clock < L.flash.keptTill then
      let s := s.updAll fun _ L =>
        let L := L.loadBank k 1
        (List.range 16).foldl (fun L b => L.setFld (Reg.LF_SHD_STAT b) 0 2 3) L
      { s with chg := { s.chg with st := .swapped, endAt := L.flash.keptTill } }
    else
      (s.updAll fun _ L => { L with flash := { L.flash with kept := none, keptTill := 0 } }).event Base.sv 0x113 0

/-- The settings that the file makes in the module (R427, R472). -/
def State.loadModule (s : State) (f : StationFile) (seed : Half) (runId : Word) : State :=
  let s := { s with file := f, runId := if runId = 0 then 1 else runId, gen := 0 }
  let s := f.classes.foldl (fun s c => s.setClass c.blk c.det c.cls) s
  s.updAll fun _ L => (L.loadFile f seed).bindUnits s.now

/-- LOAD: each lane's file checked, repaired and agreed; the further checks; the settings and the banks. -/
def execLoad (o : LaneVec LoadObs) (seed : Half) (runId : Word) (s : State) : Host.Outcome State Fault Refusal :=
  if s.mstate ≠ .load then .next s
  else match s.agreedFile o with
    | none => .next (s.refuseStart 0x0A)
    | some f =>
      let bad := s.needRepair o f
      if Lane.list.any fun l => bad.get l && !(o.get l).repairOk then .next (s.refuseStart 0x0A)
      else
        let s := s.repairFiles bad f
        if !fileOk s f then .next (s.refuseStart 0x0A)
        else
          let s := (s.loadModule f seed runId).loadKept
          .next ({ s with drv := { s.drv with mstate := .test } }).setIsolators

/-! ### TEST (R243, R473) -/

/-- The pass of input tests and de-energised switch tests: every test is dated from here; each that fails gives the code of R255 or
R264 and puts its channel out of service, whatever the code (R243, R473; until `BANK_CLEAR` clears it, DEDUCED, log 113). -/
def State.testChannels (s : State) (inputs : List InTestObs) (switches : List SwTestObs) : State :=
  let used := s.file.chans.filter fun e => e.2.mode != 0
  let s := used.foldl (fun s e => s.setChan e.1 fun c => { c with swAt := List.replicate 6 s.now, inAt := s.now }) s
  let ins := (inputs.filter fun t => (s.chanCfg t.ch.toNat).mode != 0).flatMap fun t => s.inputVerdict t.ch.toNat t.r
  let sws := (switches.filter fun t => s.isOutput t.ch.toNat && decide (t.sw.toNat < 6)).flatMap fun t =>
    pendCodes t.ch.toNat (switchVerdict false t.sw.toNat (s.voteReadings t.ch.toNat t.r))
  let s := (ins ++ sws).foldl (fun s c => s.setChan c.ch fun x => { x with failed := true }) s
  ({ s with fld := { s.fld with due := s.fld.due ++ (ins ++ sws) } }).takeDue

/-- A cell reset of lane firmware (R435): the cell's own state is lost. One that runs beyond its bound of 1 µs is RESET_OVERRUN, and
the block's reset follows (R437). -/
def State.cellReset (s : State) (l : Lane) (c len : Nat) : State :=
  let k := Blk.ofOff (Base.lf (c / 16))
  let s := s.upd l fun L =>
    let L := L.setCell c fun _ => {}
    L.record (obPath l k.region.toNat k.block.toNat (c % 16)) (obCode 8 (RScope.code .cell)) 0 0 s.cyc.num (obData len)
  if len * 10 ≤ RScope.bound .cell then s
  else (s.report l (rcOf k) 2 k.block.toNat).upd l fun L => L.startReset s.now .block k

/-- The self-tests of a lane (R473): its cell resets. -/
def State.selfTest (s : State) (l : Lane) (o : SelfTest) : State :=
  o.resets.foldl (fun s r => s.cellReset l r.1.toNat r.2.toNat) s

/-- Every `BLK_ERR` bit of a lane that is 1 and enabled. -/
def LaneSt.allHeld (L : LaneSt) : List Report :=
  (L.regs.filter fun e => decide (e.1 % 0x1000 = 0x10)).flatMap fun e => L.heldReports (Blk.ofOff e.1)

/-- Individual-status mode ends with TEST, and what it masked reports (R425, R473). -/
def State.leaveTest (s : State) : State := Lane.list.foldl (fun s l => s.reports l (s.lane.get l).allHeld) s

/-- TEST. -/
def execTest (o : LaneVec SelfTest) (inputs : List InTestObs) (switches : List SwTestObs) (s : State) : Host.Outcome State Fault Refusal :=
  if s.mstate ≠ .test then .next s
  else
    let s := Lane.list.foldl (fun s l => if s.starting.get l then s.selfTest l (o.get l) else s) s
    let s := s.failLanes (o.map fun _ x => x.failed.map fun d => some ⟨d.1, d.2.toNat⟩)
    if s.starting.count < 2 then .next (s.refuseStart 0x05)
    else .next ((s.testChannels inputs switches).enter .sync).leaveTest

/-! ### SYNC (R475) -/

/-- The Station Clock set once, from the discipline source or the peer; the backup clock is set with it. -/
def State.setClock (s : State) (source : Option DWord) : State :=
  match source with
  | none => s
  | some t =>
    let s := s.updAll fun _ L => { L with clock := t.toNat, osc := { L.osc with slew := 0, frac := 0 } }
    { s with cyc := { s.cyc with t0 := t.toNat }, power := { s.power with clkSet := t.toNat, clkFor := 0, clkValid := true } }

/-- The ports of the station network come up. -/
def State.netStart (s : State) : State :=
  let s := (s.setPtp .net1 fun q => { q with st := if s.runsPtp .net1 then 1 else 0 }).setPtp .net2 fun q =>
    { q with st := if s.runsPtp .net2 then 1 else 0 }
  s.updAll fun _ L => (L.setBits (Reg.NET_STAT 0) 1).setBits (Reg.NET_STAT 1) 1

/-- SYNC: LIVE starts, the clock is set, the Platform Link listens, the ports start, the pair role is settled. -/
def execSync (source : Option DWord) (s : State) : Host.Outcome State Fault Refusal :=
  if s.mstate ≠ .sync then .next s
  else
    let s := Lane.list.foldl (fun s l => if s.isActive l then s.setPermit l true else s) s
    let s := (s.setClock source).linkListen.netStart.canStart
    let s := s.setXo fun x => { x with sinceDuty := s.now, syncAt := s.now }
    .next s.settleRole

/-! ### External reset (R482, R483) -/

/-- RESET_PRESS: recorded, then a module reset. RESET_N was high before it fell, so it counts again. -/
def execResetPress (s : State) : Host.Outcome State Fault Refusal :=
  if s.mstate = .off then .next s
  else .next { (s.event Base.sv 0x101 0).moduleReset with stuck := false }

/-- RESET_STUCK, 2 s after the module reset or power-up: recorded; RESET_N is ignored and the start-up goes on. -/
def execResetStuck (s : State) : Host.Outcome State Fault Refusal :=
  if s.mstate = .off ∨ s.stuck ∨ s.now < s.startAt + 2000000000 then .next s
  else .next ({ s with stuck := true }.event Base.sv 0x102 0)

end Sys2Proof.Machine
end

