-- ==== Sys2Proof/Machine/Views.lean ====
section
/-! DEFINITION. Machine/Views.lean: what each register reads (R62 to R66, R73, R78, R79, R105, R116, R153, R154, R192 to
R195, R237, R238, R385, R417, R596 to R599): of a lane, and of the module aperture. -/

namespace Sys2Proof.Machine

/-! ### What a voted reader sees (R73) -/

/-- Voted readers see what the last publication, or the last copy, showed: while generations are published or copied, and in SAFE
after them (R73, R434). -/
def State.showsLast (s : State) : Bool :=
  s.mstate.evaluates || s.mstate == .standby || (s.mstate == .safe && s.gen != 0)

/-- The module's data behind RV registers: as the last publication showed them, before any as they stand. -/
def State.view (s : State) : Seen := if s.showsLast then s.seen else (s.noteSeen).seen

/-- RV registers of the second kind: they change at the moment of agreement (R73). -/
def agreedAtOnce (off : Nat) : Bool :=
  off == Reg.ACK_HOLD || off == Reg.ACK_LAT_MAX || off == Reg.ACK_FLUSH
    || (decide (0x3003000 ≤ off) && decide (off < 0x3006000)) || (decide (Base.stc ≤ off) && decide (off < Base.stc + 0x1000))
    || (decide (Base.vote ≤ off) && decide (off < Base.vote + 0x1000)) || (decide (Base.xo ≤ off) && decide (off < Base.xo + 0x1000))

/-- A stored register as a port reads it. -/
def State.readStored (s : State) (l : Lane) (p : Port) (off : Nat) (r : RegRow) : Nat :=
  let L := s.lane.get l
  if perPort off then (L.sel p off).toNat
  else if r.rv ≠ 0 ∧ !agreedAtOnce off ∧ s.showsLast then
    let m := BitVec.ofNat 32 r.rv
    ((SMap.get resetOf L.shown off &&& m) ||| (L.reg off &&& ~~~m)).toNat
  else (L.reg off).toNat

/-! ### Region 5 -/

/-- `VOTE_STATE` (R63). -/
def State.voteState (s : State) : Nat :=
  (s.mode .A).code + (s.mode .B).code * 16 + (s.mode .C).code * 256 + s.voteMode * 0x1000 + s.activePair * 0x10000
    + s.deg.warn.toNat * 0x100000 + s.deg.expired.toNat * 0x200000

/-- The links of a lane as links 1 and 2 of `LX_STAT`: trained, and the lane at the far end, which reads 0 until the link is
trained (DEDUCED from the register's reset value, log 95). -/
def State.lxStat (s : State) (l : Lane) : Nat :=
  let k : (Bool × Lane) × (Bool × Lane) := match l with
    | .A => ((s.lx.ab, .B), (s.lx.ca, .C))
    | .B => ((s.lx.ab, .A), (s.lx.bc, .C))
    | .C => ((s.lx.bc, .B), (s.lx.ca, .A))
  k.1.1.toNat + k.2.1.toNat * 2 + (if k.1.1 then k.1.2.code * 16 else 0) + (if k.2.1 then k.2.2.code * 64 else 0)

/-- The vote block, the cycle sequencer, the Lane Exchange, the copy registers of the Crossover. `DEG_ELAPSED` shows the last
publication's value (DEDUCED, log 40). -/
def State.viewVote (s : State) (v : Seen) (l : Lane) (off : Nat) : Option Nat :=
  let L := s.lane.get l
  if off = Reg.VOTE_STATE then some s.voteState
  else if off = Reg.DEG_ELAPSED then some (min (v.degNs / 1000000000) 0xFFFFFFFF)
  else if off = Reg.REJOIN_CNT then
    let n (x : Lane) : Nat := min 15 (s.entries24 x).length
    some (n .A + n .B * 16 + n .C * 256)
  else if off = Reg.LX_LINK then
    some ((L.reg off).toNat / 256 * 256 + s.lx.ab.toNat + s.lx.bc.toNat * 2 + s.lx.ca.toNat * 4)
  else if off = Reg.LX_STAT then some (s.lxStat l)
  else if off = Reg.LX_LOAD then some (L.opn.lxLast + L.opn.lxMax * 65536)
  else if off = Reg.CYC_CFG then some (v.file.tUnits % 128 + v.file.pct % 128 * 256)
  else if off = Reg.CYC_TIMES then
    let b := budgetUs v.file.tUnits v.file.pct
    some (b % 65536 + (100 + b) % 65536 * 65536)
  else if off = Reg.EVAL_WCET then some (v.file.wcet % 2 ^ 24)
  else if off = Reg.XO_COPY then some (L.opn.copySize % 65536 + L.opn.copyTime % 65536 * 65536)
  else if off = Reg.XO_COPY_MAX then some (L.opn.sizeMax % 65536 + L.opn.timeMax % 65536 * 65536)
  else none

/-! ### Region 0 (R192 to R195) -/

/-- The length of a cell's program in the active bank: up to and including END, its last word. -/
def LaneSt.cellLen (L : LaneSt) (cell : Nat) : Nat :=
  let lo := bankKey L.logic.bank cell 0
  if L.holdsProgram L.logic.bank cell then
    L.logic.banks.foldl (fun n e => if lo ≤ e.1 ∧ e.1 < lo + 2 ^ 14 then max n (e.1 - lo + 1) else n) 0
  else L.phases (cell / 16)

/-- A cell's state as its area shows it; a cell without a program waits at its barriers and ends at once (R172). `CELL_PC` shows the
word after the BAR or END that a program has stopped at; where no program is, that BAR or END itself (DESIGN CHOICE, log 153). -/
def LaneSt.cellShown (L : LaneSt) (cell : Nat) : CellSt :=
  let c := L.cell cell
  if L.holdsProgram L.logic.bank cell then c
  else
    let last : Bool := decide (L.phaseCount ≤ L.logic.phase + 1)
    { c with
      phase := L.logic.phase, pc := L.logic.phase
      wait := L.logic.evaluating && !last
      done := (L.logic.evaluating && last) || L.logic.ended }

/-- `CELL_STAT`. -/
def CellSt.stat (c : CellSt) : Nat :=
  c.a.toNat + c.e.toNat * 2 + c.stack.length % 32 * 4 + c.phase % 8 * 128 + c.wait.toNat * 1024 + c.done.toNat * 2048

/-- The 32 local or previous-state bits that `CELL_LSEL` selects. -/
def LaneSt.cellWord (L : LaneSt) (cell sel : Nat) : Nat :=
  let m := if sel.testBit 7 then L.logic.prv else L.logic.loc
  (List.range 32).foldl (fun w i =>
    if getD false m (cell * 4096 + sel % 128 * 32 + i) then w + 2 ^ i else w) 0

/-- `CELL_CLK` of a cell stands in its register: it has executed its END in this cycle, or had a program in the last cycle that came to
its end; otherwise it is that of the cells without a program (R172, R194). -/
def LaneSt.ownClocks (L : LaneSt) (cell : Nat) : Bool :=
  ((L.cell cell).done && L.holdsProgram L.logic.bank cell) || L.holdsProgram L.logic.idleBank cell

/-- The logic block pages; `LF_CFG` and `CELL_LEN` are those of the bank `shown` (R73). -/
def LaneSt.viewLogic (L : LaneSt) (shown : Nat) (off : Nat) : Option Nat :=
  if 0x10000 ≤ off then none
  else
    let b := off / 0x1000
    let o := off % 0x1000
    if o = 0x40 then
      let L := L.onBank shown
      let cells := ((List.range 16).filter fun i => L.holdsProgram shown (16 * b + i)).length
      some (L.phases b % 16 + shown % 2 * 16 + cells * 256 + L.slots b % 512 * 65536)
    else if 0x400 ≤ o ∧ o < 0x800 then
      let cell := 16 * b + (o - 0x400) / 0x40
      match o % 0x40 with
      | 0x00 => some (L.cellShown cell).stat
      | 0x04 => some ((L.cellShown cell).pc % 16384)
      | 0x10 => some ((L.onBank shown).cellLen cell)
      | 0x14 => if L.ownClocks cell then none else some (min L.logic.idleClk 0xFFFFFF)
      | 0x1C => some (L.cellWord cell (L.reg (off - 4)).toNat)
      | _ => none
    else none

/-! ### Timer and counter engines (R237, R238) -/

def State.viewTimers (v : Seen) (L : LaneSt) (p : Port) (off : Nat) : Option Nat :=
  let f := v.file
  let t := f.timers.lookup ((L.sel p Reg.TMR_SEL).toNat % 8192)
  let c := f.counters.lookup ((L.sel p Reg.CNT_SEL).toNat % 1024)
  let preset (t : TimerCfg) (i : Nat) : Nat := match i with | 0 => t.d0 | 1 => t.d1 | 2 => t.d2 | _ => t.d3
  if off = Reg.TMR_CONF then some (match t with | some t => t.mode.toNat + 4 | none => 0)
  else if Reg.TMR_PRESET 0 ≤ off ∧ off < Reg.TMR_PRESET 4 then
    some (match t with | some t => preset t ((off - Reg.TMR_PRESET 0) / 4) | none => 0)
  else if Reg.TMR_EFF 0 ≤ off ∧ off < Reg.TMR_EFF 4 then
    some (match t with | some t => t.effective f.cycleNs ((off - Reg.TMR_EFF 0) / 4) | none => 0)
  else if off = Reg.CNT_USE then some f.counters.length
  else if off = Reg.CNT_LIMIT then some (match c with | some c => c.limit | none => 0)
  else if off = Reg.CNT_PRESET then some (match c with | some c => c.preset | none => 0)
  else none

/-! ### Region 4: key store (R385) -/

/-- A word of a key store object; key material in secret is no object that can be read (R95). -/
def KeySt.word (k : KeySt) (sel i : Nat) : Nat := if sel < 7 then ofLe (slice (k.object sel) (4 * i) 4) else 0

/-- `KS_STAT`; the manufacturing certificate stands beside the key pair (R363). -/
def KeySt.stat (k : KeySt) (tamper : Bool) : Nat :=
  let has (b : Bytes) : Nat := (!b.isEmpty).toNat
  k.hasKey.toNat * 3 + has k.op * 4 + (has k.chain0 + has k.chain1 + has k.chain2) * 8 + has k.link * 32
    + tamper.toNat * 64 + min 64 (k.revoked.length / 16) * 65536

/-- The key store page, of the objects that voted readers see (R73). -/
def State.viewKeys (s : State) (L : LaneSt) (off : Nat) : Option Nat :=
  let sel := (L.reg Reg.KS_SEL).toNat % 16
  let k := if s.showsLast then L.keysShown else (L.keys, s.power.tamper)
  if off = Reg.KS_STAT then some (k.1.stat k.2)
  else if off = Reg.KS_LEN then some (if sel < 7 then (k.1.object sel).length % 4096 else 0)
  else if Reg.KS_WIN 0 ≤ off ∧ off < Reg.KS_WIN 256 then some (k.1.word sel ((off - Reg.KS_WIN 0) / 4))
  else none

/-! ### The host port's endpoint (R105) -/

/-- `HP_STAT`: a request in hand, a response ready, and of the lane's own the tag and status. -/
def State.hpStat (s : State) (L : LaneSt) : Nat :=
  (s.hp.resp.isSome && !s.hp.ready).toNat + s.hp.ready.toNat * 2 + (L.reg Reg.HP_STAT).toNat / 4 * 4

/-! ### The common page (R78, R79) -/

/-- `BLK_STAT.STATE` of a block in a lane: in reset; disabled; in individual-status mode FAULT (R424); in TEST FAULT with an error;
otherwise by the module state (DEDUCED, log 25). -/
def State.blockState (s : State) (L : LaneSt) (k : Blk) : Nat :=
  let base := Blk.base k
  if L.inReset k then 1
  else match s.mstate with
    | .off => 0
    | .boot => 0
    | .load => 2
    | _ =>
      if !L.bit (base + 8) 0 then 0
      else if L.bit (base + 8) 2 || (s.mstate == .test && L.reg (base + 0x10) != 0) then 5
      else if s.mstate = .test then 4 else 3

/-- The common registers of a page that are computed. -/
def State.viewCommon (s : State) (L : LaneSt) (off : Nat) : Option Nat :=
  let k := Blk.ofOff off
  match off % 0x1000 with
  | 0x00 => some (Config.blkId (off / 0x1000 * 0x1000)).toNat
  | 0x0C => some (s.blockState L k + (L.reg off).toNat / 16 * 16)
  | 0x20 => some ((L.reg off).toNat % 2 ^ 26 + (match s.inj with | some i => (decide (i.blk = k)).toNat | none => 0) * 2 ^ 27)
  | 0x24 => match pageOf off with
    | some (p, i) => some (classView p i (L.reg off))
    | none => none
  | 0x28 => some 0
  | _ => none

/-! ### One register of a lane -/

/-- The first view that computes a register. -/
def firstView : List (Option Nat) → Option Nat
  | [] => none
  | some x :: _ => some x
  | none :: r => firstView r

/-- The active bank as a voted reader sees it (R73). -/
def State.bankShown (s : State) (l : Lane) : Nat :=
  let g := (s.lane.get l).logic
  if s.showsLast then g.shownBank else g.bank

/-- The views of the block-specific registers. -/
def State.viewBlock (s : State) (l : Lane) (p : Port) (off : Nat) : Option Nat :=
  let v := s.view
  let L := s.lane.get l
  match off / 0x1000000 with
  | 0 => firstView [L.viewLogic (s.bankShown l) off, L.viewChange v off, s.viewFault v l p off]
  | 1 => if off = Reg.IMAGE_PIN then some (L.imagePin p)
    else if off = Reg.PIN_STORE then some L.pinStore
    else if off = Reg.TMR_USE then
      some (v.file.timers.length % 2 ^ 14 + s.readStored l p off { off := 0x40, n := 1, reset := 0, rw := 0, w1c := 0, wb := 0, wo := 0, rv := 0xFFFFFFFF } / 65536 * 65536)
    else firstView [State.viewTimers v L p off, s.viewFault v l p off]
  | 2 => firstView [s.viewField v l off, s.viewFault v l p off]
  | 3 => firstView [s.viewLink v L p off, s.viewTablet v L p off, s.viewNet L off, s.viewClock v l off, s.viewCan v L p off,
      s.viewFault v l p off]
  | 4 => if off = Reg.HP_STAT then some (s.hpStat L)
    else firstView [s.viewFault v l p off, L.viewTally p off, s.viewClock v l off, s.viewKeys L off, L.viewChange v off, L.viewCv off]
  | 5 => firstView [s.viewVote v l off, s.viewXo v off, s.viewFault v l p off]
  | _ => none

/-- What a register of a lane reads for a port; 0 where no register stands (R8), at a data port (R101) and in write-only
fields. -/
def State.readReg (s : State) (l : Lane) (p : Port) (off : Nat) : Word :=
  match rowOf off with
  | none => 0
  | some r =>
    if dataPort off then 0
    else
      let c := if off % 0x1000 < 0x40 then s.viewCommon (s.lane.get l) off else s.viewBlock l p off
      BitVec.ofNat 32 (c.getD (s.readStored l p off r))

/-! ### The module aperture (R116, R596 to R599) -/

/-- A lamp: 0 off, 1 on, 2 slow flash, 3 fast flash. -/
abbrev Lamp := Nat

/-- The lamp of a lane. -/
def State.laneLamp (s : State) (l : Lane) : Lamp :=
  if s.mstate = .safe then 0
  else match s.mode l with
    | .active => 1 | .resync => 2 | .probation => 2 | .excluded => 3 | .halted => 0

/-- The lamp of a Platform Link channel. -/
def State.plLamp (s : State) (k : Nat) : Lamp :=
  let w := s.agreedReg (Reg.PLC_STAT k)
  if fieldOf w 0 1 = 0 ∨ fieldOf w 1 1 = 1 then 0 else if fieldOf w 4 1 = 1 then 2 else fieldOf w 3 1

/-- FAULT (R595). -/
def State.faultLamp (s : State) : Lamp :=
  let common : Bool := (List.range 16).any fun b => s.fld.commonFault s.file b
  if s.mstate = .safe ∨ (s.mstate.voting ∧ s.active.count = 0) then 1
  else if (s.mreg 0x1010).toNat.testBit 3 then 3
  else if s.twoOfTwo || common || s.xo.overdue || s.power.tempHigh || s.power.holdLow then 2 else 0

/-- `LED_STAT` (R598). -/
def State.ledStat (s : State) : Nat :=
  let pwr := if s.power.held then 3 else if !s.power.x1 then 0 else if s.power.cellLow then 2 else 1
  let run := match s.mstate with
    | .run => 1 | .duty => 1 | .restartLocked => 2 | .boot => 3 | .load => 3 | .test => 3 | .sync => 3
    | .off => 0 | .standby => 0 | .safe => 0
  let duty := match s.xo.role with | .holder => (if s.xo.hoCycle.isSome then 3 else 1) | .handing => 3 | _ => 0
  let stby := if s.xo.role ≠ .standby then 0 else match s.xo.sync with | .synced => 1 | .catchup => 2 | .none => 0
  pwr + run * 4 + duty * 16 + stby * 64 + s.laneLamp .A * 256 + s.laneLamp .B * 1024 + s.laneLamp .C * 4096
    + s.power.forceInd.toNat * 16384 + s.faultLamp * 65536 + s.plLamp 0 * 2 ^ 18 + s.plLamp 1 * 2 ^ 20

/-- The lane that conducts the maintenance sessions: the lowest-lettered ACTIVE lane, whether or not one is open, none without
an ACTIVE lane (R109; DESIGN CHOICE, log 94: R116 gives the reset value A and does not say when it reads none). A lane of
lower letter that rejoins conducts the sessions that are open (DESIGN CHOICE, log 94). -/
def State.tlsLane (s : State) : Nat := match s.lead with | some l => l.code | none => 3

/-- The maintenance port listens: its file enables it, once LOAD has read the file (DEDUCED, log 164). -/
def State.maintListens (s : State) : Bool :=
  s.file.maintEn && !(s.mstate == .off || s.mstate == .boot || s.mstate == .load)

/-- The registers of the module aperture that are computed. -/
def State.viewModule (s : State) (off : Nat) : Option Nat :=
  if off = Reg.ACC_CFG then some (s.file.hpRole.toNat + s.maintListens.toNat * 16)
  else if off = Reg.ACC_STAT then
    let n (i : Nat) : Nat := (s.maintSt i).isOpen.toNat
    some (n 0 + n 1 * 2 + n 2 * 4 + n 3 * 8 + s.tlsLane * 16)
  else if off = Reg.LED_STAT then some s.ledStat
  else if off = Reg.LED_TEST then some s.power.ledTest.toNat
  else if off = Reg.FI_STAT then some (s.power.forceInd.toNat * 3)
  else if off = Reg.KA_STAT then some (s.power.cellOk.toNat + s.power.clkValid.toNat * 2 + s.power.tamper.toNat * 4)
  else if off = Reg.KA_CLK_LO then some (s.power.backupClock % 2 ^ 32)
  else if off = Reg.KA_CLK_HI then some (s.power.backupClock / 2 ^ 32)
  else match off % 0x1000 with
    | 0x00 => some (Config.blkId (0x50000000 + off)).toNat
    | 0x0C => some ((if s.mstate = .off ∨ s.mstate = .boot then 0 else 3) + (s.mreg off).toNat / 16 * 16)
    | 0x28 => some 0
    | _ => none

/-- HP_IRQ_N is low: an enabled `BLK_IRQ` bit is set in an ACTIVE lane, in any lane while the module does not vote (R97);
released while the host port is silent (R603). -/
def State.irqLow (s : State) : Bool :=
  !(s.mstate == .off || s.mstate == .boot) && Lane.list.any fun l =>
    (!s.mstate.voting || s.isActive l) && (s.lane.get l).regs.any fun e =>
      decide (e.1 % 0x1000 = 0x18) && decide (e.2 &&& (s.lane.get l).reg (e.1 + 4) ≠ 0)

/-- What a register of the module aperture reads. -/
def State.readModule (s : State) (off : Nat) : Word :=
  match modRowOf off with
  | none => 0
  | some _ => match s.viewModule off with
    | some x => BitVec.ofNat 32 x
    | none => s.mreg off

end Sys2Proof.Machine
end

