-- ==== Sys2Proof/Machine/Ports.lean ====
section
/-! DEFINITION. Machine/Ports.lean: the host port and the maintenance port (R97 to R109, R603): request frames, reads of
registers and of the image window with what they do (R70 to R72, R76, R86, R110, R112, R140 to R143), responses,
sessions. -/

namespace Sys2Proof.Machine

/-! ### What a read does in a lane (R112) -/

/-- `TALLY_WIN63`: its read advances the cursor (R564). -/
def advancesCursor (off : Nat) : Bool := off == Reg.TALLY_WIN 63

/-- The cursor of a port moves on by one slot, from 16,383 to 0. -/
def LaneSt.advanceTally (L : LaneSt) (p : Port) : LaneSt :=
  L.setSel p Reg.TALLY_CUR (BitVec.ofNat 32 (((L.sel p Reg.TALLY_CUR).toNat % 16384 + 1) % 16384))

/-- A lane makes a pin for a port, unless its state is EXCLUDED, RESYNC or HALTED (R140). -/
def State.pinIn (s : State) (l : Lane) (p : Port) : State :=
  match s.mode l with
  | .active => s.upd l fun L => L.setPin p
  | .probation => s.upd l fun L => L.setPin p
  | .excluded => s
  | .resync => s
  | .halted => s

/-- The Cabinet Bus port whose page holds an offset. -/
def cbPort (off : Nat) : Option Nat :=
  if Base.cb 0 ≤ off ∧ off < Base.cb 4 then some ((off - Base.cb 0) / 0x1000) else none

/-- Effects that precede the value: the lock of a buffer (R549). -/
def State.beforeRead (s : State) (l : Lane) (p : Port) (off : Nat) : State :=
  match cbPort off with
  | some n => if off = Reg.CB_BHDR n then s.canLock (oneLane l) n p else s
  | none => s

/-- Effects that follow it: the pin, the cursor, the release of a buffer. -/
def State.afterRead (s : State) (l : Lane) (p : Port) (off : Nat) : State :=
  if off = Reg.IMAGE_GEN then s.pinIn l p
  else if advancesCursor off then s.upd l fun L => L.advanceTally p
  else match cbPort off with
    | some n => if off = Reg.CB_BDATA n 15 then s.canUnlock (oneLane l) n p else s
    | none => s

/-- The words of a group, as they stand in a lane. -/
def State.groupWords (s : State) (l : Lane) (p : Port) (g : Nat × Nat) : List Word :=
  (List.range g.2).map fun i => s.readReg l p (g.1 + 4 * i)

/-- A lane latches a group for a port (R110). -/
def State.latch (s : State) (l : Lane) (p : Port) (g : Nat × Nat) : State :=
  let ws := s.groupWords l p g
  s.upd l fun L => { L with holds := putHolding L.holds { port := p, base := g.1, at_ := s.now, words := ws } }

/-- A register's word: of the holding copy that the read makes, or of the one that stands, otherwise as it is. -/
def State.groupRead (s : State) (l : Lane) (p : Port) (off : Nat) : State × Word :=
  match groupOf off with
  | none => (s, s.readReg l p off)
  | some g =>
    if off = g.1 then (s.latch l p g, s.readReg l p off)
    else match findHolding (s.lane.get l).holds p g.1 s.now with
      | some ws => (s, ws.getD ((off - g.1) / 4) 0)
      | none => (s, s.readReg l p off)

/-- What refuses a request at the image window: no publication yet (R143), an expired pin (R141). -/
def LaneSt.winBar (L : LaneSt) (p : Port) : Nat :=
  if L.pubGen = 0 then 0x41
  else match L.pinOf p with
    | some q => if q.expired then 0x40 else 0
    | none => 0

/-- A refusal at the image window is given: it ends the expired pin, or is counted. -/
def LaneSt.winRefused (L : LaneSt) (p : Port) (r : Nat) : LaneSt :=
  if r = 0x40 then L.dropPin p else L.addFld Reg.IMAGE_CNT 24 8 1

/-- A word read in one lane: the reason that refuses it there, or 0, and the word. -/
def State.readIn (s : State) (l : Lane) (p : Port) (voted : Bool) (off : Nat) : State × Nat × Word :=
  let L := s.lane.get l
  let addr := (if voted then 3 else l.code) * 0x10000000 + off
  if L.inReset (Blk.ofOff (refusalPage off)) then
    (s.upd l fun L => L.refuse l p addr Reason.inReset s.cyc.num, Reason.inReset, 0)
  else if inImageWindow off then
    let r := L.winBar p
    if r = 0 then (s, 0, BitVec.ofNat 32 (L.imageWord p (off - 0x1100000)))
    else (s.upd l fun L => (L.winRefused p r).refuse l p addr r s.cyc.num, r, 0)
  else if off % 0x1000 = 0x28 then
    if voted then
      let L' := L.issueToken p (off - 0x28)
      (s.upd l fun _ => L', 0, match L'.tokenOf (off - 0x28) with | some t => t.value.setWidth 32 | none => 0)
    else (s, 0, 0)
  else
    let q := (s.beforeRead l p off).groupRead l p off
    (q.1.afterRead l p off, 0, q.2)

/-! ### The voted aperture (R70 to R72) -/

/-- The counted lanes (R71): the ACTIVE lanes while the module votes, otherwise every lane that answers. -/
def State.countedLanes (s : State) (answers : LaneSet := .all true) : LaneSet := if s.mstate.voting then s.active else answers

/-- One word read: status, reason, word. -/
structure ReadAns where
  state  : State
  status : Nat
  reason : Nat
  word   : Word

/-- The reason with which two counted lanes at least refused: a reset (R72), no publication (R143), an expired pin
(R141). -/
def refusedByTwo (counted : LaneSet) (reasons : LaneVec Nat) : Option Nat :=
  [Reason.inReset, 0x40, 0x41].find? fun r =>
    decide (2 ≤ (LaneVec.ofFn fun l => counted.get l && reasons.get l == r).count)

/-- A read answered NO_MAJORITY (R72). -/
def State.noMajority (s : State) (addr : Nat) : State :=
  (s.addMfld Reg.ACC_NOMAJ 0 32 1).setMreg Reg.ACC_NOMAJ_ADDR (BitVec.ofNat 32 addr)

/-- A word read in one lane through the voted aperture; a lane that does not answer returns none and takes no effect (R69,
R72). -/
def State.readOne (s : State) (l : Lane) (p : Port) (off : Nat) (answers : LaneSet) : State × Nat × Word :=
  if answers.get l then s.readIn l p true off else (s, Reason.noAnswer, 0)

/-- A word through the voted aperture: read in every lane, compared whole. -/
def State.readVoted (s : State) (p : Port) (off : Nat) (answers : LaneSet := .all true) : ReadAns :=
  let qa := s.readOne .A p off answers
  let qb := qa.1.readOne .B p off answers
  let qc := qb.1.readOne .C p off answers
  let reasons : LaneVec Nat := { a := qa.2.1, b := qb.2.1, c := qc.2.1 }
  let words : LaneVec Word := { a := qa.2.2, b := qb.2.2, c := qc.2.2 }
  let counted := s.countedLanes answers
  match majority (LaneVec.ofFn fun l => counted.get l && reasons.get l == 0) words with
  | some w => ⟨qc.1, stOk, 0, w⟩
  | none => match refusedByTwo counted reasons with
    | some r => ⟨qc.1, stRefused, r, 0⟩
    | none => ⟨qc.1.noMajority (0x30000000 + off), stNoMajority, 0, 0⟩

/-! ### The module aperture -/

/-- A word of the module aperture, with the holding copy of its group (R110). -/
def State.moduleRead (s : State) (p : Port) (off : Nat) : State × Word :=
  match modGroupOf off with
  | none => (s, s.readModule off)
  | some g =>
    if off = g.1 then
      let ws := (List.range g.2).map fun i => s.readModule (g.1 + 4 * i)
      ({ s with mholds := putHolding s.mholds { port := p, base := g.1, at_ := s.now, words := ws } }, s.readModule off)
    else match findHolding s.mholds p g.1 s.now with
      | some ws => (s, ws.getD ((off - g.1) / 4) 0)
      | none => (s, s.readModule off)

/-! ### One word read at a 32-bit address (R67 to R72, R76) -/

def State.readWord (s : State) (p : Port) (addr : Nat) (answers : LaneSet := .all true) : ReadAns :=
  let ap := addr / 0x10000000
  let off := addr % 0x10000000
  if 6 ≤ ap ∨ off % 4 ≠ 0 then ⟨s, stUnmapped, 0, 0⟩
  else if ap = 5 then
    if (modPageOf off).isNone then ⟨s, stUnmapped, 0, 0⟩
    else ⟨(s.moduleRead p off).1, stOk, 0, (s.moduleRead p off).2⟩
  else if !mapped off then ⟨s, stUnmapped, 0, 0⟩
  else if ap = 4 then ⟨s.refuseModule p Base.acc addr Reason.broadcastRead, stRefused, Reason.broadcastRead, 0⟩
  else if advancesCursor off ∧ s.accessOf p = .view then ⟨s.refuseModule p Base.acc addr Reason.role, stRefused, Reason.role, 0⟩
  else match laneOfAper ap with
    | some l =>
      if !answers.get l then ⟨s.refuseModule p Base.acc addr Reason.noAnswer, stRefused, Reason.noAnswer, 0⟩
      else
        let q := s.readIn l p false off
        if q.2.1 = 0 then ⟨q.1, stOk, 0, q.2.2⟩ else ⟨q.1, stRefused, q.2.1, 0⟩
    | none => s.readVoted p off answers

/-! ### Requests of several words (R100 to R102) -/

/-- The address of the next word: the same one at a data port (R101). -/
def nextAddr (addr : Nat) : Nat := if addr / 0x10000000 < 5 ∧ dataPort (addr % 0x10000000) then addr else addr + 4

/-- Words read in address order, up to the first that is not OK. -/
def State.readWords : Nat → State → Port → Nat → LaneSet → List Word → State × Resp
  | 0, s, _, _, _, ws => (s, { status := 0, tag := 0, reason := 0, data := ws })
  | n + 1, s, p, addr, answers, ws =>
    let a := s.readWord p addr answers
    if a.status = stOk then State.readWords n a.state p (nextAddr addr) answers (ws ++ [a.word])
    else (a.state, { status := byteOf a.status, tag := 0, reason := byteOf a.reason, data := ws })

/-- The status and reason of a WRITE: of the first word that was not OK, a word that is held counting after those that
were refused. -/
def worse (st : Nat × Nat) (a : Answer) : Nat × Nat :=
  if st.1 ≠ stOk ∧ st.1 ≠ stQueued then st
  else if a.status = stOk then st else (a.status, a.reason)

/-- A word at a data port refused with the reason of one before it (R101): recorded where that refusal was, in the module
access block or in each lane that the access reaches (R83). -/
def State.refuseAfter (s : State) (p : Port) (addr reason : Nat) (answers : LaneSet) : State :=
  if reason = Reason.role ∨ reason = Reason.votedWrite ∨ reason = Reason.noAnswer then s.refuseModule p Base.acc addr reason
  else match laneOfAper (addr / 0x10000000) with
    | some l => s.refuseIn (oneLane l) p addr reason
    | none => s.refuseIn answers p addr reason

/-- Words written in request order. At a data port the words after a refused one are refused with its reason. -/
def State.writeWords : List Word → State → Port → Nat → Half → Byte → Reach → Nat × Nat → State × Nat × Nat
  | [], s, _, _, _, _, _, st => (s, st)
  | d :: ds, s, p, addr, token, tag, got, st =>
    if nextAddr addr = addr ∧ st.1 = stRefused then
      State.writeWords ds (s.refuseAfter p addr st.2 got.answers) p addr token tag got st
    else
      let a := s.writeWord p addr d token tag got
      State.writeWords ds a.state p (nextAddr addr) token tag got (worse st a)

/-! ### Request frames (R98 to R100, R108) -/

/-- A request as decoded: the command, the tag, the address, the count, the token, the words. -/
structure Request where
  write : Bool
  tag   : Byte
  addr  : Nat
  count : Nat
  token : Half
  data  : List Word
  deriving DecidableEq, Repr

/-- The words of a byte string, each four bytes, big-endian. -/
def beWords (bs : Bytes) (n : Nat) : List Word := (List.range n).map fun i => BitVec.ofNat 32 (beAt bs (4 * i) 4)

/-- A frame without its CRC, checked for its command, its length and its page; none is BAD_FRAME. A count of 0 or above the
port's most, outside the layout of R98 and R108, is answered so too (DESIGN CHOICE, log 88: R100 does not list it). -/
def decodeRequest (maxWords : Nat) (f : Bytes) : Option Request :=
  let cmd := byteAt f 0
  let addr := beAt f 2 4
  let count := beAt f 6 2
  let port : Bool := decide (addr / 0x10000000 < 5) && dataPort (addr % 0x10000000)
  if f.length < 10 ∨ (cmd ≠ 0x0B ∧ cmd ≠ 0x02) ∨ count = 0 ∨ maxWords < count then none
  else if f.length ≠ 10 + (if cmd = 0x02 then 4 * count else 0) then none
  else if 0x1000 < addr % 0x1000 + 4 * count ∧ !port then none
  else some { write := decide (cmd = 0x02), tag := f.getD 1 0, addr, count, token := BitVec.ofNat 16 (beAt f 8 2),
              data := if cmd = 0x02 then beWords (f.drop 10) count else [] }

/-- The tag of a frame; 0 where it has none. -/
def frameTag (f : Bytes) : Byte := f.getD 1 0

/-- A request executed: the state and its response. -/
def State.execute (s : State) (p : Port) (r : Request) (got : Reach) : State × Resp :=
  if r.write then
    let q := State.writeWords r.data s p r.addr r.token r.tag got (stOk, 0)
    (q.1, { status := byteOf q.2.1, tag := r.tag, reason := byteOf q.2.2, data := [] })
  else
    let q := State.readWords r.count s p r.addr got.answers []
    (q.1, { q.2 with tag := r.tag })

/-- A response without data. -/
def plainResp (status : Nat) (tag : Byte) : Resp := { status := byteOf status, tag, reason := 0, data := [] }

/-- The bytes of a response before its CRC (R102). `Count` has one byte: of a response of 256 words it reads 0x00 (DESIGN
CHOICE, log 89: R108 allows 256 words and R102 gives the field no ninth bit). -/
def Resp.body (r : Resp) : Bytes :=
  [r.status, r.tag, r.reason, byteOf r.data.length] ++ r.data.flatMap fun w => toBe 4 w.toNat

/-- A response of the host port as it drives it (R102). -/
def Resp.frame (r : Resp) : Bytes := r.body ++ toBe 2 (crc16 r.body)

/-- The stored response of a WRITE that repeats the latest executed one within 1 s (R104). -/
def repeats (last : Option LastWrite) (f : Bytes) (now : Nat) : Option Resp :=
  match last with
  | some w => if w.frame = f ∧ now ≤ w.at_ + 1000000000 then some w.resp else none
  | none => none

/-- The frame that two lanes at least received alike (R105, R109), the lanes that took it so, and the lanes that answer: those
that received a frame (DEDUCED, log 90). -/
def agreedFrame (copies : LaneVec (Option Bytes)) : Option (Bytes × Reach) :=
  let answers : LaneSet := LaneVec.ofFn fun l => (copies.get l).isSome
  match majority answers copies with
  | some (some f) => some (f, { took := LaneVec.ofFn fun l => copies.get l == some f, answers := answers })
  | some none => none
  | none => none

/-! ### The host port -/

/-- The host port is silent without X1 and until the module enters LOAD or SAFE (R603). -/
def State.hostSilent (s : State) : Bool := s.mstate == .off || s.mstate == .boot

/-- A response prepared for the host port, its status in the endpoint pages; HP_RDY_N falls with RESPONSE_READY. -/
def State.hostAnswer (s : State) (r : Resp) : State :=
  { s.updAll fun _ L => L.setFld Reg.HP_STAT 16 3 r.status.toNat with
    hp := { s.hp with resp := some r, ready := false, fetched := false } }

/-- The request that a frame of the host port carries, where its check value and its form are right (R99, R100). -/
def hostDecoded (f : Bytes) : Option Request :=
  let body := f.take (f.length - 2)
  if f.length < 3 ∨ beAt f (f.length - 2) 2 ≠ crc16 body then none else decodeRequest 64 body

/-- A lane's endpoint receives a frame: it holds the tag in `HP_STAT`, and the address of the request that it decoded. -/
def LaneSt.endpointTakes (L : LaneSt) (f : Bytes) : LaneSt :=
  let L := (L.addFld Reg.HP_CNT 0 16 1).setFld Reg.HP_STAT 8 8 (frameTag f).toNat
  match hostDecoded f with
  | some r => L.setReg Reg.HP_LAST_ADDR (BitVec.ofNat 32 r.addr)
  | none => L

/-- The endpoints count the frame and hold its tag; a lane that decoded another one than the others, `f` being none when no
two agree, reports it (R105). -/
def State.endpoints (s : State) (copies : LaneVec (Option Bytes)) (f : Option Bytes) : State :=
  let differs (l : Lane) : Bool := (copies.get l).isSome && copies.get l != f
  let s := s.updAll fun l L =>
    match copies.get l with
    | some g =>
      let L := L.endpointTakes g
      if differs l then L.addFld Reg.HP_DISCARD 16 16 1 else L
    | none => L
  Lane.list.foldl (fun s l => if differs l then s.report l (Blk.ofOff Base.hp) 1 0 else s) s

/-- The module takes a frame in hand; a response that was not fetched is discarded and counted (R103). -/
def State.hostReceive (s : State) (copies : LaneVec (Option Bytes)) (f : Bytes) : State :=
  let lost : Bool := s.hp.resp.isSome && !s.hp.fetched
  let s := s.endpoints copies (some f)
  let s := if lost then (s.updAll fun _ L => L.addFld Reg.HP_DISCARD 0 16 1).reportAll Base.hp 0 s.hp.tag.toNat else s
  { s with hp := { s.hp with tag := frameTag f, resp := none, ready := false, fetched := false } }

/-- A frame of the host port answered (R100, R104). -/
def State.hostFrame (s : State) (f : Bytes) (got : Reach) : State :=
  let body := f.take (f.length - 2)
  if f.length < 3 then (s.addMfld Reg.ACC_CRC_CNT 16 16 1).hostAnswer (plainResp stBadFrame (frameTag f))
  else if beAt f (f.length - 2) 2 ≠ crc16 body then
    (s.addMfld Reg.ACC_CRC_CNT 0 16 1).hostAnswer (plainResp stCrcError (frameTag f))
  else match decodeRequest 64 body with
    | none => (s.addMfld Reg.ACC_CRC_CNT 16 16 1).hostAnswer (plainResp stBadFrame (frameTag f))
    | some r =>
      match (if r.write then repeats s.hp.last body s.now else none) with
      | some old => (s.updIn got.took fun _ L => L.addFld Reg.HP_CNT 16 16 1).hostAnswer old
      | none =>
        let q := s.execute .host r got
        let s := if r.write then { q.1 with hp := { q.1.hp with last := some { frame := body, resp := q.2, at_ := s.now } } } else q.1
        s.hostAnswer q.2

/-! ### The maintenance port -/

/-- A response of a session, behind those that wait. -/
def State.maintAnswer (s : State) (n : Nat) (r : Resp) : State := s.setMaint n fun m => { m with queue := m.queue ++ [r] }

/-- The request frame behind the 2-byte length of a session's request, where that length is the frame's (R108). -/
def maintBody (f : Bytes) : Bytes := f.drop 2

def lengthFits (f : Bytes) : Bool := decide (2 ≤ f.length) && decide (beAt f 0 2 = f.length - 2)

/-- A request of an open session (R107 to R109): a length that does not match is a bad frame. -/
def State.maintFrame (s : State) (n : BitVec 2) (x : Bytes) (got : Reach) : State :=
  let m := s.maintSt n.toNat
  let f := maintBody x
  if 8 ≤ m.queue.length then s.maintAnswer n.toNat (plainResp stBadFrame (frameTag f))
  else match (if lengthFits x then decodeRequest 256 f else none) with
    | none => s.maintAnswer n.toNat (plainResp stBadFrame (frameTag f))
    | some r =>
      match (if r.write then repeats m.last f s.now else none) with
        | some old => s.maintAnswer n.toNat old
        | none =>
          let q := s.execute (.maint n) r got
          let s := if r.write then
              q.1.setMaint n.toNat fun m => { m with last := some { frame := f, resp := q.2, at_ := s.now } } else q.1
          s.maintAnswer n.toNat q.2

/-! ### READ and WRITE -/

/-- The records of a session as the lanes decrypt them: only a lane that holds its keys delivers a request (R109). -/
def State.decrypted (s : State) (n : Nat) (copies : LaneVec (Option Bytes)) : LaneVec (Option Bytes) :=
  LaneVec.ofFn fun l => if (s.lane.get l).tlsKeys.contains n then copies.get l else none

/-- A request frame of the host port as the lanes received it. The module executes and answers none on which no two lanes
agree, and keeps the response that it has (DESIGN CHOICE, log 91). -/
def State.hostRequest (s : State) (copies : LaneVec (Option Bytes)) (other : Nat) : State :=
  if s.hostSilent then s
  else match agreedFrame copies with
    | none => s.endpoints copies none
    -- a frame that carries the command of the other row is no operand of this one
    | some (f, got) => if byteAt f 0 = other then s else (s.hostReceive copies f).hostFrame f got

/-- A request of a maintenance session as the lanes received it. -/
def State.maintRequest (s : State) (n : BitVec 2) (copies : LaneVec (Option Bytes)) (other : Nat) : State :=
  match agreedFrame (s.decrypted n.toNat copies) with
  | none => s
  | some (f, got) =>
    if byteAt (maintBody f) 0 = other || !(s.maintSt n.toNat).isOpen then s
    else s.maintFrame n f { got with answers := LaneVec.ofFn fun l => (copies.get l).isSome }

/-- A request as the lanes received it. -/
def State.request (s : State) (p : Port) (copies : LaneVec (Option Bytes)) (other : Nat) : State :=
  match p with
  | .internal => s
  | .host => s.hostRequest copies other
  | .maint n => s.maintRequest n copies other

/-- READ. -/
def execRead (p : Port) (copies : LaneVec (Option Bytes)) (s : State) : Host.Outcome State Fault Refusal :=
  .next (s.request p copies 0x02)

/-- WRITE. -/
def execWrite (p : Port) (copies : LaneVec (Option Bytes)) (s : State) : Host.Outcome State Fault Refusal :=
  .next (s.request p copies 0x0B)

/-- HP_POLL: the response once it is ready, PENDING before; nothing while the port is silent (R102, R603). -/
def execHpPoll (s : State) : Host.Outcome State Fault Refusal :=
  if s.hostSilent then .next { s with hp := { s.hp with polled := none } }
  else match s.hp.resp, s.hp.ready with
    | some r, true => .next { s with hp := { s.hp with fetched := true, polled := some r.frame } }
    | _, _ => .next { s with hp := { s.hp with polled := some (plainResp stPending s.hp.tag).frame } }

/-- RESPONSE_READY: HP_RDY_N falls, unless the port is silent (R603); a session sends its oldest response. -/
def execResponseReady (p : Port) (s : State) : Host.Outcome State Fault Refusal :=
  match p with
  | .host =>
    if s.hp.resp.isSome && !s.hostSilent then
      .next { s with hp := { s.hp with ready := true } }
    else .next s
  | .maint n =>
    match (s.maintSt n.toNat).queue with
    | r :: rs => .next (s.setMaint n.toNat fun m => { m with queue := rs, sent := some r.body })
    | [] => .next s
  | .internal => .next s

/-- NO_ANSWER: the access changes nothing in the lane; the module aperture refuses it on the lane's behalf (R69). The row
names no request: the response takes the tag of the host port's request in hand, in a session tag 0 (DESIGN CHOICE,
log 92). -/
def execNoAnswer (l : Lane) (p : Port) (addr : Word) (s : State) : Host.Outcome State Fault Refusal :=
  if addr.toNat / 0x10000000 ≠ l.code then .next s
  else
    let s := s.refuseModule p Base.acc addr.toNat Reason.noAnswer
    let r (tag : Byte) : Resp := { status := byteOf stRefused, tag, reason := byteOf Reason.noAnswer, data := [] }
    match p with
    | .host => if s.hostSilent then .next s else .next (s.hostAnswer (r s.hp.tag))
    | .maint n => if (s.maintSt n.toNat).isOpen then .next (s.maintAnswer n.toNat (r 0)) else .next s
    | .internal => .next s

/-! ### Maintenance sessions (R106, R107) -/

/-- What a port's session held in a lane: selectors, holding copies, pins, tokens. A new session starts without them. -/
def LaneSt.forgetPort (L : LaneSt) (p : Port) : LaneSt :=
  { L with
    sels := L.sels.filter fun e => e.1 / 0x10000000 != portCode p
    holds := L.holds.filter fun h => h.port != p
    tokens := L.tokens.filter fun t => t.port != p
    image := { L.image with pins := L.image.pins.filter fun q => q.port != p } }

/-- The lanes that the conducting lane reaches over the Lane Exchange, itself among them. -/
def State.keyLanes (s : State) : LaneSet :=
  LaneVec.ofFn fun l => s.mode l == .active || s.mode l == .probation || s.mode l == .resync

/-- The lowest session that is closed. -/
def State.freeSession (s : State) : Option Nat := [0, 1, 2, 3].find? fun n => !(s.maintSt n).isOpen

/-- The cipher suite that the module takes of those offered: TLS_AES_128_GCM_SHA256 (0x1301) where it is offered, otherwise
TLS_AES_256_GCM_SHA384 (0x1302) (DESIGN CHOICE of the order, log 93). -/
def pickSuite (offered : List Half) : Option Half :=
  if offered.contains 0x1301 then some 0x1301 else if offered.contains 0x1302 then some 0x1302 else none

/-- A client that meets R106: its suite, its certificate and its role. The chain is checked against the operator chain of the
conducting lane's key store. -/
def State.admitsClient (s : State) (c : Client) : Option (Half × Bytes × Nat) :=
  let k := (s.lane.get s.leadLane).keys
  match pickSuite c.suites, c.cert, c.cert.bind certRole with
  | some suite, some cert, some r =>
    if c.tls13 && c.groups.contains 0x0017 && c.schemes.contains 0x0403 && c.proofOk && k.chainsTo cert then some (suite, cert, r)
    else none
  | _, _, _ => none

/-- A session opened; the conducting lane passes its keys to the others over the Lane Exchange (R109). -/
def State.openMaint (s : State) (n : Nat) (role : Nat) (possession : Bool) (cert : Bytes) : State :=
  let s := s.updAll fun _ L => L.forgetPort (.maint (BitVec.ofNat 2 n))
  let keyed := s.keyLanes
  let s := s.updAll fun l L => { L with tlsKeys := if keyed.get l then insertNat n L.tlsKeys else L.tlsKeys.filter (· != n) }
  s.setMaint n fun _ => { isOpen := true, access := Access.ofCode role, cert := possession, certId := certHash cert }

/-- TLS_HANDSHAKE: at TCP port 5380 a client that meets R106 takes the lowest free session and sees the module certificate;
every other, and a fifth, is refused with a TLS alert (R107). Nothing answers at another port or while the maintenance port
does not listen. Where no lane is ACTIVE, lane A conducts (DESIGN CHOICE, log 94). -/
def execTlsHandshake (c : Client) (s : State) : Host.Outcome State Fault Refusal :=
  if !s.maintListens ∨ c.port ≠ 5380 then .next s
  else match s.admitsClient c, s.freeSession with
    | some (suite, cert, r), some n =>
      .next { s.openMaint n r (certPossession cert) cert with
        tlsReply := some (.opened n suite (s.lane.get s.leadLane).keys.presented) }
    | _, _ => .next { s with tlsReply := some .alert }

/-- SESSION_IDLE: no request for 300 s. -/
def execSessionIdle (n : BitVec 2) (s : State) : Host.Outcome State Fault Refusal :=
  .next ((s.updAll fun _ L => { L with tlsKeys := L.tlsKeys.filter (· != n.toNat) }).setMaint n.toNat fun _ => {})

/-! ### Effects of reads as rows of their own -/

/-- What a read through an aperture does in each lane that it reaches; a lane whose block is in reset refuses it (R69). -/
def State.readEffect (s : State) (ap : RAper) (p : Port) (off : Nat) (go : Lane → State → State) : State :=
  let addr := (match ap with | .lane l => l.code | .voted => 3) * 0x10000000 + off
  Lane.list.foldl (fun s l =>
    if !(rLanes ap).get l then s
    else if (s.lane.get l).inReset (Blk.ofOff off) then s.refuseIn (oneLane l) p addr Reason.inReset
    else go l s) s

/-- TOKEN_ISSUE: a voted read of `BLK_WTOKEN` (R86). -/
def execTokenIssue (k : Blk) (p : Port) (s : State) : Host.Outcome State Fault Refusal :=
  if s.mstate = .off ∨ (pageOf (Blk.base k)).isNone then .next s
  else .next (s.readEffect .voted p (Blk.base k + 0x28) fun l s => s.upd l fun L => L.issueToken p (Blk.base k))

/-- MISSING: a WB write that some active lane did not hold within two cycles, refused in every lane (R92). -/
def execMissing (addr : Word) (p : Port) (tag : Byte) (s : State) : Host.Outcome State Fault Refusal :=
  let off := addr.toNat % 0x10000000
  let hit (w : PendWrite) : Bool := w.addr == off && w.port == p && w.tag == tag
  let lacks : Bool := Lane.list.any fun l => s.counting.get l && !(s.lane.get l).pend.any hit
  let held : Bool := Lane.list.any fun l => (s.lane.get l).pend.any hit
  if held && lacks then
    let ls := s.refusedIn hit
    let s := s.updAll fun _ L => { L with pend := L.pend.filter fun w => !hit w }
    .next ((s.refuseIn ls p (0x40000000 + off) Reason.missing).ringResult p tag Reason.missing)
  else .next s

/-- MULTIWORD_LATCH: a read of the lowest word of a group latches it in the lanes that it reaches (R110, R112). -/
def execMultiwordLatch (ap : RAper) (addr : BitVec 28) (p : Port) (s : State) : Host.Outcome State Fault Refusal :=
  match groupOf addr.toNat with
  | some g =>
    if g.1 = addr.toNat ∧ s.mstate ≠ .off then .next (s.readEffect ap p addr.toNat fun l s => s.latch l p g) else .next s
  | none => .next s

/-- HOLDING_COPY_EXPIRY: 1 ms after the latch the copy is gone (R110). -/
def execHoldingCopyExpiry (l : Lane) (addr : BitVec 28) (p : Port) (s : State) : Host.Outcome State Fault Refusal :=
  match groupOf addr.toNat with
  | some g => .next (s.upd l fun L => { L with holds := L.holds.filter fun h => !(h.port == p && h.base == g.1) })
  | none => .next s

/-- PIN: a read of `IMAGE_GEN` (R140). -/
def execPin (ap : RAper) (p : Port) (s : State) : Host.Outcome State Fault Refusal :=
  .next (if s.mstate = .off then s else s.readEffect ap p Reg.IMAGE_GEN fun l s => s.pinIn l p)

/-- TALLY_CURSOR_ADVANCE: a read of `TALLY_WIN63`, which the role VIEW may not make (R95, R564). -/
def execTallyCursorAdvance (ap : RAper) (p : Port) (s : State) : Host.Outcome State Fault Refusal :=
  let addr := (match ap with | .lane l => l.code | .voted => 3) * 0x10000000 + Reg.TALLY_WIN 63
  if s.mstate = .off then .next s
  else if s.accessOf p = .view then .next (s.refuseModule p Base.acc addr Reason.role)
  else .next (s.readEffect ap p (Reg.TALLY_WIN 63) fun l s => s.upd l fun L => L.advanceTally p)

end Sys2Proof.Machine
end

