-- ==== Sys2Proof/Machine/Dispatch.lean ====
section
/-! DEFINITION. Machine/Dispatch.lean: one arm for each command. -/

namespace Sys2Proof.Machine

def exec (i : Instr) (s : State) : Host.Outcome State Fault Refusal :=
  match i with
  | .powerUp volts reserve => Sys2Proof.Machine.execPowerUp volts reserve s
  | .supplyDip tenths => Sys2Proof.Machine.execSupplyDip tenths s
  | .pfail bad => Sys2Proof.Machine.execPfail bad s
  | .holdupMeasure percent => Sys2Proof.Machine.execHoldupMeasure percent s
  | .tempHigh base => Sys2Proof.Machine.execTempHigh base s
  | .overtemp base => Sys2Proof.Machine.execOvertemp base s
  | .cellLow mv => Sys2Proof.Machine.execCellLow mv s
  | .tamper lostBoth => Sys2Proof.Machine.execTamper lostBoth s
  | .tamperClear p d => Sys2Proof.Machine.execTamperClear p d s
  | .resetPress => Sys2Proof.Machine.execResetPress s
  | .resetStuck => Sys2Proof.Machine.execResetStuck s
  | .boot o holdup => Sys2Proof.Machine.execBoot o holdup s
  | .load o seed runId => Sys2Proof.Machine.execLoad o seed runId s
  | .test o inputs switches => Sys2Proof.Machine.execTest o inputs switches s
  | .sync source => Sys2Proof.Machine.execSync source s
  | .syncRequest l => Sys2Proof.Machine.execSyncRequest l s
  | .freeze o => Sys2Proof.Machine.execFreeze o s
  | .inputAgreement => Sys2Proof.Machine.execInputAgreement s
  | .timerExpiry n => Sys2Proof.Machine.execTimerExpiry n s
  | .evaluationStart l => Sys2Proof.Machine.execEvaluationStart l s
  | .barrier l => Sys2Proof.Machine.execBarrier l s
  | .digestVote => Sys2Proof.Machine.execDigestVote s
  | .outputInstant => Sys2Proof.Machine.execOutputInstant s
  | .outEdgeMissing l late => Sys2Proof.Machine.execOutEdgeMissing l late s
  | .publication l => Sys2Proof.Machine.execPublication l s
  | .release => Sys2Proof.Machine.execRelease s
  | .rollForward l copied lateBy60 => Sys2Proof.Machine.execRollForward l copied lateBy60 s
  | .pinExpiry l p => Sys2Proof.Machine.execPinExpiry l p s
  | .lxTransfer link rcv crcOk => Sys2Proof.Machine.execLxTransfer link rcv crcOk s
  | .stepWindowMissed link silent => Sys2Proof.Machine.execStepWindowMissed link silent s
  | .txFrameStart ch copies => Sys2Proof.Machine.execTxFrameStart ch copies s
  | .txLate ch => Sys2Proof.Machine.execTxLate ch s
  | .liveWindow l half drive => Sys2Proof.Machine.execLiveWindow l half drive s
  | .switchDriverDecay l => Sys2Proof.Machine.execSwitchDriverDecay l s
  | .safeCheck l => Sys2Proof.Machine.execSafeCheck l s
  | .faultReport l k bit data held also => Sys2Proof.Machine.execFaultReport l k bit data held also s
  | .hsTimeout l requester target => Sys2Proof.Machine.execHsTimeout l requester target s
  | .railTest l region broken => Sys2Proof.Machine.execRailTest l region broken s
  | .resetComplete l scope k => Sys2Proof.Machine.execResetComplete l scope k s
  | .resetOverrun l scope k => Sys2Proof.Machine.execResetOverrun l scope k s
  | .safeGateLatch l cause => Sys2Proof.Machine.execSafeGateLatch l cause s
  | .resyncPage l page same => Sys2Proof.Machine.execResyncPage l page same s
  | .degWarn => Sys2Proof.Machine.execDegWarn s
  | .degExpired => Sys2Proof.Machine.execDegExpired s
  | .degCountReset => Sys2Proof.Machine.execDegCountReset s
  | .cNop x op f => Sys2Proof.Machine.execCNop x op f s
  | .cLd x f => Sys2Proof.Machine.execCLd x f s
  | .cLdn x f => Sys2Proof.Machine.execCLdn x f s
  | .cAnd x f => Sys2Proof.Machine.execCAnd x f s
  | .cAndn x f => Sys2Proof.Machine.execCAndn x f s
  | .cOr x f => Sys2Proof.Machine.execCOr x f s
  | .cOrn x f => Sys2Proof.Machine.execCOrn x f s
  | .cXor x f => Sys2Proof.Machine.execCXor x f s
  | .cSt x f => Sys2Proof.Machine.execCSt x f s
  | .cStn x f => Sys2Proof.Machine.execCStn x f s
  | .cSet x f => Sys2Proof.Machine.execCSet x f s
  | .cRst x f => Sys2Proof.Machine.execCRst x f s
  | .cEdgr x f => Sys2Proof.Machine.execCEdgr x f s
  | .cEdgf x f => Sys2Proof.Machine.execCEdgf x f s
  | .cLdt0r x f => Sys2Proof.Machine.execCLdt0r x f s
  | .cLdt0f x f => Sys2Proof.Machine.execCLdt0f x f s
  | .cLdt1r x f => Sys2Proof.Machine.execCLdt1r x f s
  | .cLdt1f x f => Sys2Proof.Machine.execCLdt1f x f s
  | .cTcge x f => Sys2Proof.Machine.execCTcge x f s
  | .cTclt x f => Sys2Proof.Machine.execCTclt x f s
  | .cFeq x f => Sys2Proof.Machine.execCFeq x f s
  | .cFne x f => Sys2Proof.Machine.execCFne x f s
  | .cFge x f => Sys2Proof.Machine.execCFge x f s
  | .cFlt x f => Sys2Proof.Machine.execCFlt x f s
  | .cFtst x f => Sys2Proof.Machine.execCFtst x f s
  | .cFeqa x f => Sys2Proof.Machine.execCFeqa x f s
  | .cFgea x f => Sys2Proof.Machine.execCFgea x f s
  | .cFtsta x f => Sys2Proof.Machine.execCFtsta x f s
  | .cTimStart x f => Sys2Proof.Machine.execCTimStart x f s
  | .cTimRestart x f => Sys2Proof.Machine.execCTimRestart x f s
  | .cTimStop x f => Sys2Proof.Machine.execCTimStop x f s
  | .cTimRunwhile x f => Sys2Proof.Machine.execCTimRunwhile x f s
  | .cCntInc x f => Sys2Proof.Machine.execCCntInc x f s
  | .cCntDec x f => Sys2Proof.Machine.execCCntDec x f s
  | .cCntClr x f => Sys2Proof.Machine.execCCntClr x f s
  | .cCntLoad x f => Sys2Proof.Machine.execCCntLoad x f s
  | .cIf x f => Sys2Proof.Machine.execCIf x f s
  | .cElse x f => Sys2Proof.Machine.execCElse x f s
  | .cEndif x f => Sys2Proof.Machine.execCEndif x f s
  | .cBar x f => Sys2Proof.Machine.execCBar x f s
  | .cEnd x f => Sys2Proof.Machine.execCEnd x f s
  | .cAssert x f => Sys2Proof.Machine.execCAssert x f s
  | .blockEnable ap k p d => Sys2Proof.Machine.execBlockEnable ap k p d s
  | .blockReset ap k p d => Sys2Proof.Machine.execBlockReset ap k p d s
  | .indiv ap k p d => Sys2Proof.Machine.execIndiv ap k p d s
  | .blkErrClear ap k p d => Sys2Proof.Machine.execBlkErrClear ap k p d s
  | .blkErrEnWrite k p d => Sys2Proof.Machine.execBlkErrEnWrite k p d s
  | .blkClassWrite k p d => Sys2Proof.Machine.execBlkClassWrite k p d s
  | .injection k p d => Sys2Proof.Machine.execInjection k p d s
  | .injectionCancel k p d => Sys2Proof.Machine.execInjectionCancel k p d s
  | .injectionExpiry k => Sys2Proof.Machine.execInjectionExpiry k s
  | .injEnd k => Sys2Proof.Machine.execInjEnd k s
  | .rejoin l p => Sys2Proof.Machine.execRejoin l p s
  | .restart p => Sys2Proof.Machine.execRestart p s
  | .registerWrite addr p d token tag => Sys2Proof.Machine.execRegisterWrite addr p d token tag s
  | .read p copies => Sys2Proof.Machine.execRead p copies s
  | .write p copies => Sys2Proof.Machine.execWrite p copies s
  | .hpPoll => Sys2Proof.Machine.execHpPoll s
  | .responseReady p => Sys2Proof.Machine.execResponseReady p s
  | .noAnswer l p addr => Sys2Proof.Machine.execNoAnswer l p addr s
  | .tlsHandshake c => Sys2Proof.Machine.execTlsHandshake c s
  | .sessionIdle n => Sys2Proof.Machine.execSessionIdle n s
  | .tokenIssue k p => Sys2Proof.Machine.execTokenIssue k p s
  | .missing addr p tag => Sys2Proof.Machine.execMissing addr p tag s
  | .multiwordLatch ap addr p => Sys2Proof.Machine.execMultiwordLatch ap addr p s
  | .holdingCopyExpiry l addr p => Sys2Proof.Machine.execHoldingCopyExpiry l addr p s
  | .pin ap p => Sys2Proof.Machine.execPin ap p s
  | .tallyCursorAdvance ap p => Sys2Proof.Machine.execTallyCursorAdvance ap p s
  | .cbLock ap cb p => Sys2Proof.Machine.execCbLock ap cb p s
  | .cbUnlock ap cb p => Sys2Proof.Machine.execCbUnlock ap cb p s
  | .cbLockExpiry l cb buf => Sys2Proof.Machine.execCbLockExpiry l cb buf s
  | .cvStart ap u p => Sys2Proof.Machine.execCvStart ap u p s
  | .cvFinal ap u p => Sys2Proof.Machine.execCvFinal ap u p s
  | .cvAbort ap u p => Sys2Proof.Machine.execCvAbort ap u p s
  | .cvData8 ap u p d => Sys2Proof.Machine.execCvData8 ap u p d s
  | .cvData16 ap u p d => Sys2Proof.Machine.execCvData16 ap u p d s
  | .cvData32 ap u p d => Sys2Proof.Machine.execCvData32 ap u p d s
  | .cvRunLoad ap u p d => Sys2Proof.Machine.execCvRunLoad ap u p d s
  | .backgroundRestore l u => Sys2Proof.Machine.execBackgroundRestore l u s
  | .bankReverify l u read => Sys2Proof.Machine.execBankReverify l u read s
  | .fileReverify l crc => Sys2Proof.Machine.execFileReverify l crc s
  | .reverifyLate l u => Sys2Proof.Machine.execReverifyLate l u s
  | .scrubPass l region events ms => Sys2Proof.Machine.execScrubPass l region events ms s
  | .scrubLate l region => Sys2Proof.Machine.execScrubLate l region s
  | .routeRequest g => Sys2Proof.Machine.execRouteRequest g s
  | .routeSet session r => Sys2Proof.Machine.execRouteSet session r s
  | .routeCancel session r => Sys2Proof.Machine.execRouteCancel session r s
  | .routeQuery session r => Sys2Proof.Machine.execRouteQuery session r s
  | .slotEmptied slot => Sys2Proof.Machine.execSlotEmptied slot s
  | .holdover => Sys2Proof.Machine.execHoldover s
  | .sourceReturn offset => Sys2Proof.Machine.execSourceReturn offset s
  | .ptpSync net h seq twoStep t1 t2 => Sys2Proof.Machine.execPtpSync net h seq twoStep t1 t2 s
  | .ptpFollowUp net h seq t1 => Sys2Proof.Machine.execPtpFollowUp net h seq t1 s
  | .ptpDelayResp net h seq t3 t4 => Sys2Proof.Machine.execPtpDelayResp net h seq t3 t4 s
  | .ptpAnnounce net h a => Sys2Proof.Machine.execPtpAnnounce net h a s
  | .ptpLost net => Sys2Proof.Machine.execPtpLost net s
  | .filterConfirm l ch r first runStart deferred => Sys2Proof.Machine.execFilterConfirm l ch r first runStart deferred s
  | .supply bank volts => Sys2Proof.Machine.execSupply bank volts s
  | .supplyRestored bank volts => Sys2Proof.Machine.execSupplyRestored bank volts s
  | .bankOc bank ma => Sys2Proof.Machine.execBankOc bank ma s
  | .inputTest ch r => Sys2Proof.Machine.execInputTest ch r s
  | .overcurrent ch => Sys2Proof.Machine.execOvercurrent ch s
  | .overcurrentClear ch => Sys2Proof.Machine.execOvercurrentClear ch s
  | .switchTest ch sw r => Sys2Proof.Machine.execSwitchTest ch sw r s
  | .testAbort ch => Sys2Proof.Machine.execTestAbort ch s
  | .testLate ch => Sys2Proof.Machine.execTestLate ch s
  | .darkPulse ch rb60 rb80 follow => Sys2Proof.Machine.execDarkPulse ch rb60 rb80 follow s
  | .listenMismatch ch => Sys2Proof.Machine.execListenMismatch ch s
  | .bankClear bank p d => Sys2Proof.Machine.execBankClear bank p d s
  | .bankClearIsolator bank p d => Sys2Proof.Machine.execBankClearIsolator bank p d s
  | .basicCycleStart a b => Sys2Proof.Machine.execBasicCycleStart a b s
  | .slotStart slot => Sys2Proof.Machine.execSlotStart slot s
  | .reference x => Sys2Proof.Machine.execReference x s
  | .poll x => Sys2Proof.Machine.execPoll x s
  | .response x => Sys2Proof.Machine.execResponse x s
  | .modeAck x => Sys2Proof.Machine.execModeAck x s
  | .coldStart x => Sys2Proof.Machine.execColdStart x s
  | .joinRequest x => Sys2Proof.Machine.execJoinRequest x s
  | .listenExpiry => Sys2Proof.Machine.execListenExpiry s
  | .contentionWindowEnd corrupted => Sys2Proof.Machine.execContentionWindowEnd corrupted s
  | .backoffExpiry => Sys2Proof.Machine.execBackoffExpiry s
  | .refLost => Sys2Proof.Machine.execRefLost s
  | .plModeReq p d => Sys2Proof.Machine.execPlModeReq p d s
  | .modeSwitch => Sys2Proof.Machine.execModeSwitch s
  | .unitLost u => Sys2Proof.Machine.execUnitLost u s
  | .admissionEnd u => Sys2Proof.Machine.execAdmissionEnd u s
  | .cmdTimeout => Sys2Proof.Machine.execCmdTimeout s
  | .data g => Sys2Proof.Machine.execData g s
  | .sessionLost s0 => Sys2Proof.Machine.execSessionLost s0 s
  | .hsHello g nonce => Sys2Proof.Machine.execHsHello g nonce s
  | .hsKey g => Sys2Proof.Machine.execHsKey g s
  | .hsFinish g => Sys2Proof.Machine.execHsFinish g s
  | .close g => Sys2Proof.Machine.execClose g s
  | .hsKeyTimeout s0 nonce => Sys2Proof.Machine.execHsKeyTimeout s0 nonce s
  | .hsFinishTimeout s0 => Sys2Proof.Machine.execHsFinishTimeout s0 s
  | .keyRenewal s0 nonce => Sys2Proof.Machine.execKeyRenewal s0 nonce s
  | .epochOverlapEnd s0 => Sys2Proof.Machine.execEpochOverlapEnd s0 s
  | .keyLimit s0 => Sys2Proof.Machine.execKeyLimit s0 s
  | .canData cb buf bytes lanes => Sys2Proof.Machine.execCanData cb buf bytes lanes s
  | .tbReopen p d => Sys2Proof.Machine.execTbReopen p d s
  | .tbRenew p d nonce => Sys2Proof.Machine.execTbRenew p d nonce s
  | .ksLoad p d => Sys2Proof.Machine.execKsLoad p d s
  | .ksErase p d => Sys2Proof.Machine.execKsErase p d s
  | .prepare g draw => Sys2Proof.Machine.execPrepare g draw s
  | .confirm g => Sys2Proof.Machine.execConfirm g s
  | .heartbeat h live tok => Sys2Proof.Machine.execHeartbeat h live tok s
  | .mirror m => Sys2Proof.Machine.execMirror m s
  | .stateCopy c => Sys2Proof.Machine.execStateCopy c s
  | .confirmation gen => Sys2Proof.Machine.execConfirmation gen s
  | .xoLink by_ => Sys2Proof.Machine.execXoLink by_ s
  | .peerLive by_ => Sys2Proof.Machine.execPeerLive by_ s
  | .claimWindowEnd edgeSeen lastStill stillAtEnd => Sys2Proof.Machine.execClaimWindowEnd edgeSeen lastStill stillAtEnd s
  | .handover p d => Sys2Proof.Machine.execHandover p d s
  | .handoverOffer cycle => Sys2Proof.Machine.execHandoverOffer cycle s
  | .dutyTokStop => Sys2Proof.Machine.execDutyTokStop s
  | .oldLaddersOpen => Sys2Proof.Machine.execOldLaddersOpen s
  | .revertiveReturn => Sys2Proof.Machine.execRevertiveReturn s
  | .roleSwap => Sys2Proof.Machine.execRoleSwap s
  | .svForceSet p d => Sys2Proof.Machine.execSvForceSet p d s
  | .svForceRemove p d => Sys2Proof.Machine.execSvForceRemove p d s
  | .svForceRemoveAll p d => Sys2Proof.Machine.execSvForceRemoveAll p d s
  | .declare p d => Sys2Proof.Machine.execDeclare p d s
  | .withdraw p d => Sys2Proof.Machine.execWithdraw p d s
  | .commissioningEnter p d => Sys2Proof.Machine.execCommissioningEnter p d s
  | .commissioningLeave p d => Sys2Proof.Machine.execCommissioningLeave p d s
  | .changeOpen p d => Sys2Proof.Machine.execChangeOpen p d s
  | .changeClose p d => Sys2Proof.Machine.execChangeClose p d s
  | .deltaVerify o => Sys2Proof.Machine.execDeltaVerify o s
  | .arm p d => Sys2Proof.Machine.execArm p d s
  | .revert p d => Sys2Proof.Machine.execRevert p d s
  | .commit p d => Sys2Proof.Machine.execCommit p d s
  | .abandon p d => Sys2Proof.Machine.execAbandon p d s
  | .activate p d => Sys2Proof.Machine.execActivate p d s
  | .revertWindowEnd => Sys2Proof.Machine.execRevertWindowEnd s
  | .svDltData ap p d => Sys2Proof.Machine.execSvDltData ap p d s
  | .lfShdOpen b p d => Sys2Proof.Machine.execLfShdOpen b p d s
  | .lfShdClose b p d => Sys2Proof.Machine.execLfShdClose b p d s
  | .lfShdData ap b p d => Sys2Proof.Machine.execLfShdData ap b p d s
  | .canFrame cb f own err lanes => Sys2Proof.Machine.execCanFrame cb f own err lanes s
  | .cbBusOff cb => Sys2Proof.Machine.execCbBusOff cb s
  | .cbRecovered cb => Sys2Proof.Machine.execCbRecovered cb s
  | .timeReference cb => Sys2Proof.Machine.execTimeReference cb s
  | .tallyWrite l rec readbackOk => Sys2Proof.Machine.execTallyWrite l rec readbackOk s
  | .tallyClear p d bad => Sys2Proof.Machine.execTallyClear p d bad s
  | .tallyCheck l slot => Sys2Proof.Machine.execTallyCheck l slot s
  | .ledTest p d => Sys2Proof.Machine.execLedTest p d s
  | .ledTestEnd => Sys2Proof.Machine.execLedTestEnd s
  | .x1Interrupted volts => Sys2Proof.Machine.execX1Interrupted volts s
  | .tempHighClear base => Sys2Proof.Machine.execTempHighClear base s
  | .overtempClear base => Sys2Proof.Machine.execOvertempClear base s
  | .crossoverLaneFailure port => Sys2Proof.Machine.execCrossoverLaneFailure port s
  | .dutyTokStill => Sys2Proof.Machine.execDutyTokStill s
  | .linkDown net => Sys2Proof.Machine.execLinkDown net s
  | .arpNdIcmpEcho net ask => Sys2Proof.Machine.execArpNdIcmpEcho net ask s

end Sys2Proof.Machine
end

