-- ==== Sys2Proof/Machine/Step.lean ====
section
/-! DEFINITION. Machine/Step.lean: one step of the module: the command at the front of the queue, or the passing of
time. -/

namespace Sys2Proof.Machine

/-- Takes the command at the front of the queue and runs it on the queue's rest; on an empty queue ten nanoseconds
pass (log 3). -/
def step (s : State) : Host.Outcome State Fault Refusal :=
  match s.pending with
  | [] => .next (tick s)
  | c :: rest => exec c { s with pending := rest }

/-- The state with the command that a word spells at the front of its queue; unchanged where the word spells none. -/
def State.withFetchWord (s : State) (nbits w : Nat) : State :=
  match decodeTableWord nbits w with
  | some i => s.withCommand i
  | none => s

end Sys2Proof.Machine
end

