-- ==== Sys2Proof/Safety.lean ====
section
/-! DEFINITION. Safety.lean: what a safe module is, in the terms that claims use: the drive of the ladders and isolators
(R433, R451), and the canonical form of the module's registers. -/

namespace Sys2Proof.Machine

/-- In SAFE the module safe gate is latched (R433), and while it is latched VITAL_DRV stands still (R433, R451). -/
def DriveSt.ok (d : DriveSt) : Prop := (d.mstate = .safe → d.gate = true) ∧ (d.gate = true → d.vdrv = false)

/-- What every step keeps: SAFE holds the gate, the gate stops the drive. -/
def State.FailSafe (s : State) : Prop := s.drv.ok

/-- Every register map is in its canonical form: no key twice, no value equal to its register's reset value. -/
def LaneSt.wf (L : LaneSt) : Bool := SMap.wf Sys2Proof.Machine.resetOf L.regs && SMap.wf (fun k => Sys2Proof.Machine.resetOf (k % 0x10000000)) L.sels

/-- The byte memories of a lane are in their canonical form. -/
def LaneSt.memWf (L : LaneSt) : Bool :=
  SMap.wf zeroByte L.image.working && SMap.wf zeroByte L.image.published && SMap.wf zeroByte L.logic.blkMem
    && SMap.wf zeroByte L.staging

/-- The registers of the module aperture are in their canonical form. -/
def State.wf (s : State) : Bool :=
  SMap.wf modResetOf s.mregs && s.lane.a.wf && s.lane.b.wf && s.lane.c.wf && s.lane.a.memWf && s.lane.b.memWf && s.lane.c.memWf

/-! ### Terms of the claims about logic cells -/

/-- The cell of a lane. -/
def State.cellAt (s : State) (x : CellAt) : CellSt := (s.lane.get x.lane).cell x.cell.toNat

/-- The lane evaluates, the cell stands at no barrier and no END, its next word is `w`, its halves agree. -/
def State.CellReady (s : State) (x : CellAt) (w : Nat) : Prop :=
  (s.lane.get x.lane).canExecute x.cell.toNat = true
    ∧ (s.lane.get x.lane).fetch x.cell.toNat = BitVec.ofNat 32 w ∧ x.mism = false

/-- The cell changes as `f` says and stands at its next word, its base clocks and its blocked clocks spent (R166);
nothing else of the module changes. -/
def State.cellGoes (s : State) (x : CellAt) (base : Nat) (f : CellSt → CellSt) : State :=
  s.upd x.lane fun L => L.setCell x.cell.toNat fun c =>
    { f c with pc := ((f c).pc + 1) % 16384, clk := (f c).clk + (base + x.stall.toNat),
               phClk := (f c).phClk + (base + x.stall.toNat) }

/-- What a cell's instruction does besides: a change of the logic of its lane. -/
def State.logicOf (s : State) (l : Lane) (g : LogicSt → LogicSt) : State :=
  s.upd l fun L => { L with logic := g L.logic }

/-! ### Terms of the claims about what a report, a vote or a write leaves -/

/-- A lane stands outside the vote: EXCLUDED or HALTED, without a LIVE permit, its switches open (R44, R51). -/
def State.LeftVote (t : State) (l : Lane) : Prop :=
  (t.mode l = .excluded ∨ t.mode l = .halted) ∧ (t.ctl.get l).permit = false ∧ (t.lane.get l).field.cmd = 0

/-- The module has entered SAFE: the gate is latched, nothing is driven, nothing waits to be sent (R433). -/
def State.Stopped (t : State) : Prop :=
  t.mstate = .safe ∧ t.gate = true ∧ t.vdrv = false ∧ t.txq = [] ∧ t.held = []
    ∧ ∀ l : Lane, (t.ctl.get l).permit = false ∧ (t.lane.get l).field.cmd = 0

/-- The module's drive, the states of its lanes and its queue stand as they were. -/
def State.Steady (s t : State) : Prop := t.drv = s.drv ∧ t.ctl = s.ctl ∧ t.pending = s.pending

/-- A report of a detector goes its way (R424, R429, R436, R438, R447): its pairs are not masked by individual-status mode or by a
reset shadow, it is enabled, nothing explains it, no injection is open. -/
def State.Hears (s : State) (l : Lane) (k : Blk) (bit data : Nat) : Prop :=
  s.notRaised l k bit data = false ∧ s.masked l k = false ∧ (s.lane.get l).bit (Blk.base k + 0x14) bit = true
    ∧ s.explains l k bit = false ∧ s.inj = none

/-- The `BLK_ERR` bit of a detector is set in a lane. -/
def State.ErrSet (t : State) (l : Lane) (k : Blk) (bit : Nat) : Prop := (t.lane.get l).bit (Blk.base k + 0x10) bit = true

/-- A broadcast write of WB fields meets nothing that all such writes share (R69, R88 to R90, R93, R95, R434). -/
def State.AgreesWb (s : State) (p : Port) (off : Nat) : Prop :=
  s.mstate.agrees = true ∧ s.mstate ≠ .standby ∧ s.mstate ≠ .safe ∧ s.accessOf p = .configure
    ∧ ((s.lane.get s.leadLane).journalPlace off).isSome = true ∧ ∀ l : Lane, (s.lane.get l).inReset (Blk.ofOff off) = false

/-- A write of RW, W1C or WO fields may be made by a port and meets no reset of the block in any lane (R69, R95). -/
def State.TakesWrite (s : State) (p : Port) (k : Blk) : Prop :=
  s.mstate ≠ .off ∧ s.accessOf p ≠ .view ∧ ∀ l : Lane, (s.lane.get l).inReset k = false

/-- A frame of the Platform Link with lane codes passes every check in two lanes at least, inside its window where it has one, and
is the first copy of its basic cycle (R305, R306). -/
def State.GoodFrame (s : State) (x : LinkRx) (type : Nat) (win : Option (Nat × Nat)) (placed : Bool) : Prop :=
  s.link.node ≠ .off ∧ linkSound s.file x.bytes = true ∧ lkType x.bytes = type
    ∧ (∀ q : Nat × Nat, win = some q → q.1 ≤ x.sAt.toNat ∧ x.endAt.toNat ≤ q.2)
    ∧ (s.link.node.loose = true ∨ placed = true)
    ∧ linkCodesOk s.file.linkSalt.toNat x.bytes = true ∧ 2 ≤ (s.linkLanes x).count ∧ s.link.copies = []

/-- A datagram is delivered to a session that receives: it is addressed to the module, at UDP port 5381, from a peer of the file (R348,
R373 to R375). -/
def State.Delivers (s : State) (g : Dgram) (c : SessCfg) : Prop :=
  s.mstate.netUp = true ∧ s.addressed g = true ∧ g.udp = true ∧ g.dstPort = 5381 ∧ s.netSession g = some c ∧ s.receiving c = true

/-- What a lane's session makes of a delivered telegram (R358). -/
def State.tgVerdict (s : State) (g : Dgram) (c : SessCfg) (l : Lane) : SessSt × Bool :=
  ((s.lane.get l).session c.num).receive (s.netCtx c ((s.lane.get l).session c.num)) (s.lane.get l).clock g.bytes

/-- A handshake telegram of category 3 is delivered to a session on which the module sends, and passes its form and its codes (R348,
R358, R369). -/
def State.HsArrives (s : State) (g : Dgram) (c : SessCfg) (type : Nat) : Prop :=
  s.Delivers g c ∧ s.sending c = true ∧ tgType g.bytes = type ∧ c.cat = 3 ∧ s.hsVerdict c g.bytes = .accepted

/-- Both lanes of the transmitting pair have a property (R36, R368). -/
def State.BothOfPair (s : State) (p : Lane → Prop) : Prop := ∃ x y : Lane, pairLanes s.txPair = some (x, y) ∧ p x ∧ p y

/-- The sessions of every lane are in their canonical form. -/
def State.SessWf (s : State) : Prop := ∀ l : Lane, SMap.wf (fun _ => ({} : SessSt)) (s.lane.get l).sess = true

/-- FINAL of a unit finds its value equal to the one expected (R518). -/
def LaneSt.cvMatches (L : LaneSt) (u : Nat) : Prop :=
  L.cvOut u (L.cvUnit u).fg.run.toNat = L.pairReg (Reg.CV_EXP_LO u) (Reg.CV_EXP_HI u) % 2 ^ L.cvWidth u

end Sys2Proof.Machine
end

