-- ==== Sys2Proof/Certificates/Slice0/Obligations.lean ====
section
/-! DEFINITION. Certificates/Slice0/Obligations.lean: the statements for the provers, each from the rules of the spec that
its docstring names. -/

open Sys2Proof Sys2Proof.Machine

/-- A step takes the command at the front of the queue and is exec of it on the rest of the queue. -/
def Obligations.StepRunsTheFrontCommand : Prop :=
  ∀ (s : State) (c : Instr) (rest : List Instr), s.pending = c :: rest → step s = exec c { s with pending := rest }

/-- An empty queue lets 10 ns pass (log 3, the model's choice): the model's time moves by 10 ns, and the clock of every lane
runs unless the module is OFF (R222): in steps of 10 ns, one with neither correction nor slew, and more or none only as the
rate correction and the slew say (R223). The registers and the memories stay. -/
def Obligations.EmptyQueuePassesTenNanoseconds : Prop :=
  ∀ s : State, s.pending = [] → ∃ t, step s = .next t ∧ t.now = s.now + 10 ∧ t.mstate = s.mstate ∧ t.pending = []
    ∧ ∀ l : Lane,
      (let o := (s.lane.get l).osc
       let steps := ((o.frac : Int) + 10 * (100000000 + o.rate - o.slew)).toNat / 1000000000
       (t.lane.get l).clock = (if s.mstate = .off then (s.lane.get l).clock else ((s.lane.get l).clock + 10 * steps) % 2 ^ 64)
       ∧ (o.rate = 0 → o.slew = 0 → o.frac < 1000000000 → steps = 1))
      ∧ (t.lane.get l).regs = (s.lane.get l).regs ∧ (t.lane.get l).image = (s.lane.get l).image
      ∧ (t.lane.get l).logic = (s.lane.get l).logic

/-- After reset the module is fail-safe in the sense that every step keeps, and VITAL_DRV delivers nothing. -/
def Obligations.ResetIsFailSafe : Prop := State.reset.FailSafe ∧ State.reset.vdrv = false

/-- In SAFE the module safe gate is latched and while it is latched VITAL_DRV delivers nothing: every step keeps this. -/
def Obligations.EveryStepKeepsFailSafe : Prop := ∀ s t : State, s.FailSafe → step s = .next t → t.FailSafe

/-- LD to XOR: A takes the value of R166 from the operand X, unless E = 0 (R169); the cell spends the clocks of the operand's
space. EDGR and EDGF compare a local bit with its value at the end of the previous evaluation (R157, R166). Nothing else changes. -/
def Obligations.CellBitReadsAndEdges : Prop :=
  (∀ (x : CellAt) (f : BitVec 26) (s : State) (v : Bool), readOperand s (s.lane.get x.lane) x.cell.toNat f.toNat = some v →
      let takes (g : Bool → Bool) : Host.Outcome State Fault Refusal :=
        .next (s.cellGoes x (readClocks f.toNat) fun c => { c with a := if c.e then g c.a else c.a })
      (s.CellReady x (wordOf 0x01 f.toNat) → exec (.cLd x f) s = takes fun _ => v)
      ∧ (s.CellReady x (wordOf 0x02 f.toNat) → exec (.cLdn x f) s = takes fun _ => !v)
      ∧ (s.CellReady x (wordOf 0x03 f.toNat) → exec (.cAnd x f) s = takes fun a => a && v)
      ∧ (s.CellReady x (wordOf 0x04 f.toNat) → exec (.cAndn x f) s = takes fun a => a && !v)
      ∧ (s.CellReady x (wordOf 0x05 f.toNat) → exec (.cOr x f) s = takes fun a => a || v)
      ∧ (s.CellReady x (wordOf 0x06 f.toNat) → exec (.cOrn x f) s = takes fun a => a || !v)
      ∧ (s.CellReady x (wordOf 0x07 f.toNat) → exec (.cXor x f) s = takes fun a => a != v))
  ∧ (∀ (x : CellAt) (f : BitVec 26) (s : State), f.toNat < 4096 →
      let now := getD false (s.lane.get x.lane).logic.loc (x.cell.toNat * 4096 + f.toNat)
      let old := getD false (s.lane.get x.lane).logic.prv (x.cell.toNat * 4096 + f.toNat)
      let takes (v : Bool) : Host.Outcome State Fault Refusal :=
        .next (s.cellGoes x 1 fun c => { c with a := if c.e then v else c.a })
      (s.CellReady x (wordOf 0x0C f.toNat) → exec (.cEdgr x f) s = takes (now && !old))
      ∧ (s.CellReady x (wordOf 0x0D f.toNat) → exec (.cEdgf x f) s = takes (!now && old)))

/-- ST, STN, SET and RST change their operand only while E = 1, SET and RST only while A = 1 as well (R166). A local bit
changes at once; a bit of the other spaces is held for the barrier in the block's buffer (R173) where it has room. -/
def Obligations.CellBitWrites : Prop :=
  ∀ (x : CellAt) (f : BitVec 26) (s : State) (op : Nat) (i : Instr) (on v : Bool),
    (i = .cSt x f ∧ op = 0x08 ∧ on = true ∧ v = (s.cellAt x).a) ∨ (i = .cStn x f ∧ op = 0x09 ∧ on = true ∧ v = !(s.cellAt x).a)
      ∨ (i = .cSet x f ∧ op = 0x0A ∧ on = (s.cellAt x).a ∧ v = true)
      ∨ (i = .cRst x f ∧ op = 0x0B ∧ on = (s.cellAt x).a ∧ v = false) →
    s.CellReady x (wordOf op f.toNat) →
    let L := s.lane.get x.lane
    let cell := x.cell.toNat
    let t := s.cellGoes x (writeClocks f.toNat) id
    (∀ w, writeOperand L cell f.toNat = some w → ((s.cellAt x).e && on) = false → exec i s = .next t)
    ∧ (∀ b, writeOperand L cell f.toNat = some (.loc b) → ((s.cellAt x).e && on) = true →
        exec i s = .next (t.logicOf x.lane fun g => { g with loc := putD false g.loc (cell * 4096 + b) v }))
    ∧ (∀ sp w b, writeOperand L cell f.toNat = some (.held sp w b) → ((s.cellAt x).e && on) = true →
        holdFull L.logic.held (cell / 16) sp w = false →
        exec i s = .next (t.logicOf x.lane fun g => { g with held := putHeld (heldBit cell sp w b v) g.held }))

/-- The eight field compares: the byte against the immediate, in the A-combining forms A AND it; on an element that reads
UNKNOWN the compare of an input-derived field gives 0 (R166, R175). -/
def Obligations.CellFieldCompares : Prop :=
  ∀ (x : CellAt) (f : BitVec 26) (s : State),
    let L := s.lane.get x.lane
    let b := fieldByte L f.toNat
    let m := fmtBImm f.toNat
    let known := !fieldUnknown L f.toNat
    let takes (g : Bool → Bool) : Host.Outcome State Fault Refusal :=
      .next (s.cellGoes x 6 fun c => { c with a := if c.e then g c.a else c.a })
    (s.CellReady x (wordOf 0x18 f.toNat) → exec (.cFeq x f) s = takes fun _ => known && decide (b = m))
    ∧ (s.CellReady x (wordOf 0x19 f.toNat) → exec (.cFne x f) s = takes fun _ => known && decide (b ≠ m))
    ∧ (s.CellReady x (wordOf 0x1A f.toNat) → exec (.cFge x f) s = takes fun _ => known && decide (m ≤ b))
    ∧ (s.CellReady x (wordOf 0x1B f.toNat) → exec (.cFlt x f) s = takes fun _ => known && decide (b < m))
    ∧ (s.CellReady x (wordOf 0x1C f.toNat) → exec (.cFtst x f) s = takes fun _ => known && decide (b &&& m ≠ 0))
    ∧ (s.CellReady x (wordOf 0x1D f.toNat) → exec (.cFeqa x f) s = takes fun a => a && (known && decide (b = m)))
    ∧ (s.CellReady x (wordOf 0x1E f.toNat) → exec (.cFgea x f) s = takes fun a => a && (known && decide (m ≤ b)))
    ∧ (s.CellReady x (wordOf 0x1F f.toNat) → exec (.cFtsta x f) s = takes fun a => a && (known && decide (b &&& m ≠ 0)))

/-- LDT0R to LDT1F: a time register takes the stamp, the uncertainty and the valid flag of the named polarity of the slot
(R182), unless E = 0. -/
def Obligations.CellStamps : Prop :=
  ∀ (x : CellAt) (f : BitVec 26) (s : State) (k : Nat), slotOperand (s.lane.get x.lane) x.cell.toNat f.toNat = some k →
    let stamp (rise : Bool) : TReg := slotStamp (s.lane.get x.lane) (x.cell.toNat / 16) k rise
    let takes0 (r : TReg) : Host.Outcome State Fault Refusal :=
      .next (s.cellGoes x 5 fun c => { c with t0 := if c.e then r else c.t0 })
    let takes1 (r : TReg) : Host.Outcome State Fault Refusal :=
      .next (s.cellGoes x 5 fun c => { c with t1 := if c.e then r else c.t1 })
    (s.CellReady x (wordOf 0x10 f.toNat) → exec (.cLdt0r x f) s = takes0 (stamp true))
    ∧ (s.CellReady x (wordOf 0x11 f.toNat) → exec (.cLdt0f x f) s = takes0 (stamp false))
    ∧ (s.CellReady x (wordOf 0x12 f.toNat) → exec (.cLdt1r x f) s = takes1 (stamp true))
    ∧ (s.CellReady x (wordOf 0x13 f.toNat) → exec (.cLdt1f x f) s = takes1 (stamp false))

/-- TCGE and TCLT (R183): with Δ = time(T1) − time(T0), u = the uncertainties + 2 µs and H = threshold × unit, 1 only when
both registers are valid, Δ − u > 0 and Δ − u ≥ H, or Δ + u < H; the combine bit takes A AND it. -/
def Obligations.CellTimeCompares : Prop :=
  ∀ (x : CellAt) (f : BitVec 26) (s : State),
    let unit : Nat := if f.toNat / 2 ^ 24 = 0 then 100 else if f.toNat / 2 ^ 24 = 1 then 10000
      else if f.toNat / 2 ^ 24 = 2 then 1000000 else 100000000
    let H : Int := (f.toNat % 2 ^ 23 * unit : Nat)
    let combine (a v : Bool) : Bool := if f.toNat.testBit 23 then a && v else v
    let takes (g : CellSt → Bool) : Host.Outcome State Fault Refusal :=
      .next (s.cellGoes x 3 fun c => { c with a := if c.e then combine c.a (g c) else c.a })
    let later (c : CellSt) : Bool := c.t0.valid && c.t1.valid
      && decide (0 < (c.t1.time : Int) - c.t0.time - (c.t0.unc + c.t1.unc + 2000))
    (s.CellReady x (wordOf 0x14 f.toNat) → exec (.cTcge x f) s = takes fun c =>
      later c && decide (H ≤ (c.t1.time : Int) - c.t0.time - (c.t0.unc + c.t1.unc + 2000)))
    ∧ (s.CellReady x (wordOf 0x15 f.toNat) → exec (.cTclt x f) s = takes fun c =>
      later c && decide ((c.t1.time : Int) - c.t0.time + (c.t0.unc + c.t1.unc + 2000) < H))

/-- TIM and CNT issue their command for the end of evaluation when A = 1 and E = 1, RUNWHILE as START with A = 1 and as STOP
with A = 0 (R169, R176, R177). BAR and END stop the cell (R172); END notes its clocks in `CELL_CLK` (R194). -/
def Obligations.CellCommandsAndStops : Prop :=
  (∀ (x : CellAt) (f : BitVec 22) (s : State),
      let c := s.cellAt x
      let t := s.cellGoes x 2 id
      let issues (cmd : TcCmd) (on : Bool) : Host.Outcome State Fault Refusal :=
        .next (t.logicOf x.lane fun g => { g with tcCmds := if c.e && on then g.tcCmds ++ [cmd] else g.tcCmds })
      let tim (fn : Nat) (stop : Bool) : TcCmd :=
        { cell := x.cell.toNat, pc := c.pc, counter := false, fn, idx := f.toNat / 2 ^ 9, preset := f.toNat / 2 ^ 7 % 4, stop }
      let cnt (fn : Nat) : TcCmd :=
        { cell := x.cell.toNat, pc := c.pc, counter := true, fn, idx := f.toNat / 2 ^ 12, preset := 0, stop := false }
      ((s.timerCfg (f.toNat / 2 ^ 9)).isSome → f.toNat % 2 ^ 7 = 0 →
        (s.CellReady x (wordOf 0x20 f.toNat) → exec (.cTimStart x f) s = issues (tim 0 false) c.a)
        ∧ (s.CellReady x (wordOf 0x20 (2 ^ 22 + f.toNat)) → exec (.cTimRestart x f) s = issues (tim 1 false) c.a)
        ∧ (s.CellReady x (wordOf 0x20 (2 * 2 ^ 22 + f.toNat)) → exec (.cTimStop x f) s = issues (tim 2 true) c.a)
        ∧ (s.CellReady x (wordOf 0x20 (3 * 2 ^ 22 + f.toNat)) →
            exec (.cTimRunwhile x f) s = issues (if c.a then tim 0 false else tim 2 true) true))
      ∧ ((s.counterCfg (f.toNat / 2 ^ 12)).isSome → f.toNat % 2 ^ 12 = 0 →
        (s.CellReady x (wordOf 0x21 f.toNat) → exec (.cCntInc x f) s = issues (cnt 0) c.a)
        ∧ (s.CellReady x (wordOf 0x21 (2 ^ 22 + f.toNat)) → exec (.cCntDec x f) s = issues (cnt 1) c.a)
        ∧ (s.CellReady x (wordOf 0x21 (2 * 2 ^ 22 + f.toNat)) → exec (.cCntClr x f) s = issues (cnt 2) c.a)
        ∧ (s.CellReady x (wordOf 0x21 (3 * 2 ^ 22 + f.toNat)) → exec (.cCntLoad x f) s = issues (cnt 3) c.a)))
  ∧ (∀ (x : CellAt) (s : State), (s.cellAt x).stack = [] →
      (s.CellReady x (wordOf 0x2C 0) → exec (.cBar x 0) s = .next (s.cellGoes x 1 fun c => { c with wait := true }))
      ∧ (s.CellReady x (wordOf 0x2D 0) → exec (.cEnd x 0) s =
          .next ((s.cellGoes x 1 fun c => { c with wait := false, done := true }).upd x.lane fun L =>
            L.setReg (Reg.CELL_CLK (x.cell.toNat / 16) (x.cell.toNat % 16))
              (BitVec.ofNat 32 (min (L.logic.evalClk + (L.cell x.cell.toNat).phClk) 0xFFFFFF)))))

/-- NOP, IF, ELSE and ENDIF (R166, R168): IF pushes E and sets it to E AND A, ELSE sets E to the top of the stack AND NOT E,
ENDIF sets E to the value it pops, whatever E is. -/
def Obligations.CellConditions : Prop :=
  ∀ (x : CellAt) (s : State),
    (s.CellReady x (wordOf 0 0) → exec (.cNop x 0 0) s = .next (s.cellGoes x 1 id))
    ∧ (s.CellReady x (wordOf 0x28 0) → (s.cellAt x).stack.length < 16 → exec (.cIf x 0) s =
        .next (s.cellGoes x 1 fun c => { c with stack := c.e :: c.stack, e := c.e && c.a }))
    ∧ (∀ top rest, s.CellReady x (wordOf 0x29 0) → (s.cellAt x).stack = top :: rest → exec (.cElse x 0) s =
        .next (s.cellGoes x 1 fun c => { c with e := top && !c.e }))
    ∧ (∀ top rest, s.CellReady x (wordOf 0x2A 0) → (s.cellAt x).stack = top :: rest → exec (.cEndif x 0) s =
        .next (s.cellGoes x 1 fun c => { c with e := top, stack := rest }))

/-- ASSERT fails with E = 1 and A = 0: it writes 1 to its global bit, held to the barrier, and records the class, and
whether the bit was 0 in the starting image; otherwise it changes nothing (R184). -/
def Obligations.CellAsserts : Prop :=
  ∀ (x : CellAt) (f : BitVec 26) (s : State),
    let L := s.lane.get x.lane
    let b := f.toNat % 2 ^ 20
    let w := (0xC0000 * 8 + b) / 32
    let cls := f.toNat / 2 ^ 23
    let t := s.cellGoes x 2 id
    s.CellReady x (wordOf 0x30 f.toNat) → (cls = 0 ∨ cls = 1 ∨ cls = 4) → f.toNat / 2 ^ 20 % 8 = 0 →
      (((s.cellAt x).e && !(s.cellAt x).a) = false → exec (.cAssert x f) s = .next t)
      ∧ (((s.cellAt x).e && !(s.cellAt x).a) = true → holdFull L.logic.held (x.cell.toNat / 16) .img w = false →
        exec (.cAssert x f) s = .next (t.logicOf x.lane fun g =>
          { g with
            held := putHeld (heldBit x.cell.toNat .img w (b % 32) true) g.held
            asserts := g.asserts ++ [{ block := x.cell.toNat / 16, cls, bit := b, fresh := !startBit s L b }] }))

/-! ### Supply, hold-up store, heat, keep-alive domain, LEDs (R571 to R581, R595 to R599) -/

/-- X1 below 16.0 V: the module runs from the hold-up store (R571), and the interruption counts from its beginning; one that
ends bridged is counted with its length (R572); the hold-up store is measured against what R572 needs, once in 60 s and after
10 s of X1 (R574); TEMP_HIGH and OVERTEMP come at 72 °C and 80 °C and go below 68 °C (R578). The measured input power is a free
value (log 10). -/
def Obligations.SupplyAndHeat : Prop :=
  ∀ s : State, s.mstate ≠ .off →
    (∀ volts : Half, volts.toNat < 1600 → ∃ power : Half, exec (.x1Interrupted volts) s = .next
      (let p := { s.power with x1 := false, held := true, x1At := if s.power.held then s.power.x1At else s.now }
       { s with freeCtr := s.freeCtr + 1, power := p }.setMreg Reg.PM_X1 (BitVec.ofNat 32 (volts.toNat + power.toNat * 65536))))
    ∧ (∀ tenths : Half, s.power.held = true → exec (.supplyDip tenths) s = .next
      ({ s with power := { s.power with x1 := true, x1At := s.now, held := false, dip := true } }.setMreg Reg.PM_DIPS (BitVec.ofNat 32
        (min (fieldOf (s.mreg Reg.PM_DIPS) 0 16 + 1) 0xFFFF
          + max (fieldOf (s.mreg Reg.PM_DIPS) 16 16) tenths.toNat * 65536))))
    ∧ (∀ percent : Byte,
      (s.power.held = false → s.power.measured + 60000000000 ≤ s.now → s.power.x1At + 10000000000 ≤ s.now →
        exec (.holdupMeasure percent) s = .next { s.setMfld Reg.PM_TEMP 16 8 percent.toNat with
          power := { s.power with holdLow := decide (percent.toNat < 100), measured := s.now } })
      ∧ (s.power.held = true ∨ s.now < s.power.measured + 60000000000 ∨ s.now < s.power.x1At + 10000000000 →
        exec (.holdupMeasure percent) s = .next s))
    ∧ (∀ base : Half, 720 < base.toInt → exec (.tempHigh base) s = .next
      ({ s with power := { s.power with tempHigh := true } }.setMfld Reg.PM_TEMP 0 16 base.toNat))
    ∧ (∀ base : Half, base.toInt < 680 → exec (.tempHighClear base) s = .next
      ({ s with power := { s.power with tempHigh := false } }.setMfld Reg.PM_TEMP 0 16 base.toNat))
    ∧ (∀ base : Half, 800 < base.toInt → exec (.overtemp base) s = .next
      ({ s with power := { s.power with overtemp := true } }.setMfld Reg.PM_TEMP 0 16 base.toNat))
    ∧ (∀ base : Half, base.toInt < 680 → exec (.overtempClear base) s = .next
      ({ s with power := { s.power with overtemp := false } }.setMfld Reg.PM_TEMP 0 16 base.toNat))

/-- VBAT is measured, low below 2.5 V; the first tamper is recorded with the time of the backup clock in seconds; with X1
and VBAT both lost the backup clock stops and tamper is recorded (R580, R581, R599); the record is cleared and the lamp
test starts by a write of MAINTAIN or CONFIGURE (R598, R599), and the lamp test ends 5 s after it. -/
def Obligations.KeepAliveAndLeds : Prop :=
  ∀ s : State,
    (∀ mv : BitVec 12, exec (.cellLow mv) s = .next
      { s.setMfld Reg.KA_VBAT 0 12 mv.toNat with
        power := { s.power with cellLow := decide (mv.toNat < 2500), cellOk := decide (2500 ≤ mv.toNat) } })
    ∧ (s.power.tamper = false → exec (.tamper false) s = .next
      { s.setMreg Reg.KA_TAMPER (BitVec.ofNat 32 (s.power.backupClock / 1000000000)) with power := { s.power with tamper := true } })
    ∧ (s.power.tamper = true → exec (.tamper false) s = .next s)
    ∧ (s.power.tamper = false → s.mstate = .off → exec (.tamper true) s = .next
      { s.setMreg Reg.KA_TAMPER (BitVec.ofNat 32 (s.power.backupClock / 1000000000)) with
        power := { s.power with tamper := true, clkValid := false } })
    ∧ (∀ (p : Port) (d : Word), s.mstate ≠ .off → s.accessOf p ≠ .view →
      exec (.tamperClear p d) s = .next ({ s with power := { s.power with tamper := false } }.setMreg Reg.KA_TAMPER 0)
      ∧ exec (.ledTest p d) s = .next { s with power := { s.power with ledTest := true, ledAt := s.now } })
    ∧ (s.power.ledAt + 5000000000 ≤ s.now → exec .ledTestEnd s = .next { s with power := { s.power with ledTest := false } })
    ∧ (s.now < s.power.ledAt + 5000000000 → exec .ledTestEnd s = .next s)

/-- With X1 at 16.8 V or more the module starts from OFF (R571, R573): every lane in BOOT, nothing driven, the start-up counted
from now; the Occurrence Book is lost but for the MODULE entry when the reserve held (R454, R573), while the flash, the MRAM,
the keys' objects, the backup clock, the tamper record and the registers of the keep-alive domain stand. PFAIL (R573), 10 ms
and more after X1 was interrupted: the gate latches at no lane's request, every switch, LIVE signal and held telegram stops,
each lane's `FC_LAST_SAFE` takes cause 0x0C and lane 3, and the module is off. -/
def Obligations.PowerUpAndPowerFail : Prop :=
  (∀ (s : State) (volts : Half) (reserve : Bool), s.mstate = .off → 1680 ≤ volts.toNat →
      ∃ t, exec (.powerUp volts reserve) s = .next t ∧ t.mstate = .boot ∧ t.gate = false ∧ t.vdrv = false
        ∧ t.pending = s.pending ∧ t.now = s.now ∧ t.startAt = s.now ∧ t.power.x1 = true ∧ t.power.held = false
        ∧ t.power.backupClock = s.power.backupClock ∧ t.power.strapped = false ∧ t.power.clkValid = s.power.clkValid ∧ t.power.tamper = s.power.tamper
        ∧ (∀ off, off = Reg.PM_DIPS ∨ off = Reg.KA_TAMPER ∨ off = Reg.KA_VBAT → t.mreg off = s.mreg off)
        ∧ ∀ l : Lane, (t.ctl.get l).mode = .active ∧ (t.ctl.get l).permit = false
          ∧ (t.lane.get l).flash = (s.lane.get l).flash ∧ (t.lane.get l).mram = (s.lane.get l).mram
          ∧ (t.lane.get l).keys = { (s.lane.get l).keys with hasKey := false } ∧ (t.lane.get l).obKept = []
          ∧ (t.lane.get l).obRing = (if reserve then (s.lane.get l).obNewest.toList else [])
          ∧ (reserve = true → (t.lane.get l).reg Reg.FC_LAST_SAFE = (s.lane.get l).reg Reg.FC_LAST_SAFE)
          ∧ ∀ off, off ≠ Reg.FC_LAST_SAFE ∨ reserve = false → (t.lane.get l).reg off = resetOf off)
  ∧ (∀ (s : State) (bad : List (Lane × BitVec 13)), s.mstate ≠ .off → s.power.held = true → s.power.x1At + 10000000 ≤ s.now →
      ∃ t, exec (.pfail bad) s = .next t ∧ t.mstate = .off ∧ t.gate = true ∧ t.vdrv = false ∧ t.txq = [] ∧ t.held = []
        ∧ t.power.x1 = false ∧ t.power.held = false
        ∧ ∀ l : Lane, (t.ctl.get l).permit = false ∧ (t.lane.get l).field.cmd = 0
          ∧ fieldOf ((t.lane.get l).reg Reg.FC_LAST_SAFE) 0 8 = 0x0C ∧ fieldOf ((t.lane.get l).reg Reg.FC_LAST_SAFE) 8 2 = 3)

/-! ### From power to service (R467 to R475, R482, R483) -/

/-- BOOT (R1, R469, R589): with every lane sound and the straps read alike by all three, the module takes its role and PREF
from them and loads; straps are sampled in the first BOOT since power came, and every later BOOT keeps what was sampled. The
Station Clock of every lane is seeded from the backup clock, or with 0 (R227, R581). Straps that the lanes do not read alike
put it into SAFE, cause STRAP (R458). -/
def Obligations.BootTakesTheStraps : Prop :=
  ∀ (s : State) (o : LaneVec BootObs) (holdup : Byte), s.mstate = .boot →
    (s.power.strapped = true → s.readStraps o = some (s.role, s.pref))
    ∧ (∀ lineside pref : Bool, s.power.strapped = false → strapOf o BootObs.role = some lineside → strapOf o BootObs.pref = some pref →
      s.readStraps o = some (if lineside then .lineside else .central, pref))
    ∧ (∀ (role : Role) (pref : Bool), s.readStraps o = some (role, pref) →
      (∀ l : Lane, (o.get l).romOk = true ∧ (o.get l).keyOk = true ∧ s.mode l ≠ .halted) →
      ∃ t, exec (.boot o holdup) s = .next t ∧ t.mstate = .load ∧ t.role = role ∧ t.pref = pref ∧ t.power.strapped = true
        ∧ t.lx.ab = true ∧ t.lx.bc = true ∧ t.lx.ca = true ∧ t.power.holdLow = decide (holdup.toNat < 100)
        ∧ t.gate = s.gate ∧ t.vdrv = s.vdrv ∧ t.ctl = s.ctl ∧ t.file = s.file
        ∧ ∀ l : Lane, (t.lane.get l).clock = (if s.power.clkValid then s.power.backupClock else 0)
          ∧ (t.lane.get l).keys = { (s.lane.get l).keys with hasKey := true })
    ∧ (s.power.strapped = false → (strapOf o BootObs.role = none ∨ strapOf o BootObs.pref = none) → s.gate = false →
      ∃ t, exec (.boot o holdup) s = .next t ∧ t.mstate = .safe ∧ t.gate = true ∧ t.vdrv = false
        ∧ ∀ l : Lane, fieldOf ((t.lane.get l).reg Reg.FC_LAST_SAFE) 0 8 = 0x0B)

/-- LOAD and TEST (R470 to R473): with a file that two lanes hold and that passes every check, its settings take effect
and the module tests; without one it enters SAFE, cause LOAD_REFUSED. With no lane failed in TEST and no error bit set by
a channel it synchronises; with fewer than two lanes left it enters SAFE, cause LAST_LANE. -/
def Obligations.LoadThenTest : Prop :=
  ∀ s : State,
    (∀ (o : LaneVec LoadObs) (seed : Half) (runId : Word), s.mstate = .load →
      (∀ f, s.agreedFile o = some f → (∀ l : Lane, (s.needRepair o f).get l = true → (o.get l).repairOk = true) →
        fileOk (s.repairFiles (s.needRepair o f) f) f = true →
        ∃ t, exec (.load o seed runId) s = .next t ∧ t.mstate = .test ∧ t.file = f ∧ t.gen = 0
          ∧ t.runId = (if runId = 0 then 1 else runId) ∧ t.gate = s.gate ∧ t.vdrv = s.vdrv ∧ t.ctl = s.ctl)
      ∧ (s.agreedFile o = none → s.gate = false →
        ∃ t, exec (.load o seed runId) s = .next t ∧ t.mstate = .safe ∧ t.gate = true ∧ t.vdrv = false
          ∧ ∀ l : Lane, fieldOf ((t.lane.get l).reg Reg.FC_LAST_SAFE) 0 8 = 0x0A))
    ∧ (∀ (inputs : List InTestObs) (switches : List SwTestObs), s.mstate = .test → 2 ≤ s.starting.count →
      (∀ l : Lane, (((s.testChannels inputs switches).enter .sync).lane.get l).allHeld = []) →
      ∃ t, exec (.test (.all ⟨none, []⟩) inputs switches) s = .next t ∧ t.mstate = .sync ∧ t.ctl = s.ctl ∧ t.gate = s.gate ∧ t.vdrv = s.vdrv)
    ∧ (∀ (inputs : List InTestObs) (switches : List SwTestObs), s.mstate = .test → s.starting.count < 2 → s.gate = false →
      ∃ t, exec (.test (.all ⟨none, []⟩) inputs switches) s = .next t ∧ t.mstate = .safe ∧ t.gate = true ∧ t.vdrv = false
        ∧ ∀ l : Lane, fieldOf ((t.lane.get l).reg Reg.FC_LAST_SAFE) 0 8 = 0x05)

/-- SYNC of an unpaired module (R475): every ACTIVE lane has its LIVE permit, the clocks take the discipline source's time
where there is one and with them the backup clock, the Platform Link listens. -/
def Obligations.SyncStartsTheLanes : Prop :=
  ∀ (s : State) (source : Option DWord), s.mstate = .sync → s.file.paired = false →
    ∃ t, exec (.sync source) s = .next t ∧ t.mstate = .sync ∧ t.link.node = .listen ∧ t.gate = s.gate
      ∧ (∀ l : Lane, s.isActive l = true → (t.ctl.get l).permit = true) ∧ (∀ l : Lane, t.mode l = s.mode l)
      ∧ ∀ time : DWord, source = some time → t.power.backupClock = time.toNat ∧ t.power.clkValid = true
        ∧ ∀ l : Lane, (t.lane.get l).clock = time.toNat

/-- RESET_N (R482, R483): a press is a module reset, after which every lane is in BOOT and nothing is driven; RESET_N held
low for 2 s is recorded and ignored. -/
def Obligations.ResetInput : Prop :=
  ∀ s : State, s.mstate ≠ .off →
    (∃ t, exec .resetPress s = .next t ∧ t.mstate = .boot ∧ t.gate = false ∧ t.vdrv = false ∧ t.stuck = false
      ∧ t.startAt = s.now ∧ t.role = s.role ∧ t.pref = s.pref ∧ t.power = s.power ∧ t.txq = [] ∧ t.pending = s.pending
      ∧ ∀ l : Lane, (t.ctl.get l).permit = false ∧ (t.lane.get l).flash = (s.lane.get l).flash
        ∧ (t.lane.get l).keys = (s.lane.get l).keys ∧ (t.lane.get l).mram = (s.lane.get l).mram
        ∧ ∀ off, off ≠ Reg.FC_LAST_SAFE → (t.lane.get l).reg off = resetOf off)
    ∧ (s.stuck = false → s.startAt + 2000000000 ≤ s.now → exec .resetStuck s = .next ({ s with stuck := true }.event Base.sv 0x102 0))
    ∧ (s.now < s.startAt + 2000000000 → exec .resetStuck s = .next s)

/-! ### The cycle (R26, R27, R120 to R133, R140) -/

/-- A lane of the vote or in RESYNC or PROBATION asserts its SYNC request, and two requests raise the module SYNC line; a
lane that is EXCLUDED or HALTED asserts none (R121). FREEZE begins the next cycle: its number is one more (R26, R121). -/
def Obligations.SyncAndFreeze : Prop :=
  ∀ s : State, s.mstate.agrees = true →
    (∀ l : Lane, s.mode l ≠ .excluded → s.mode l ≠ .halted → exec (.syncRequest l) s = .next { s with
      cyc := { s.cyc with
        syncReq := withLane s.cyc.syncReq l
        syncLine := s.cyc.syncLine || decide (2 ≤ (withLane s.cyc.syncReq l).count) } })
    ∧ (∀ l : Lane, s.mode l = .excluded ∨ s.mode l = .halted → exec (.syncRequest l) s = .next s)
    ∧ ∀ o : LaneVec FreezeObs, ∃ t, exec (.freeze o) s = .next t
      ∧ t.cyc.step = .frozen ∧ t.cyc.num = s.cyc.num + 1 ∧ t.cyc.syncLine = true ∧ t.cyc.syncReq = s.cyc.syncReq
      ∧ t.pending = s.pending

/-- INPUT_AGREEMENT ends the assembly step of the cycle (R120, R122); the first RESTART_AUTH telegram of each session is decided,
the others wait (log 123, the model's choice). A timer that the marks expire, voted in the mode that it started in (R231), reads
EXPIRED and not RUNNING, without an expiry instant, in every lane that takes part (R232). A lane in step
starts phase 0 with nothing held and its output image at 0 (R125, R164). -/
def Obligations.AgreementTimersAndStart : Prop :=
  ∀ s : State,
    (s.mstate.agrees = true → s.cyc.step = .frozen → (∀ l : Lane, (s.lane.get l).pend = []) →
      ∃ t, exec .inputAgreement s = .next t ∧ t.cyc = { s.cyc with step := .agreed } ∧ (t.mstate ≠ .safe → t.auths = (firstAuths s.auths).2) ∧ t.pending = s.pending
        ∧ t.gen = s.gen)
    ∧ (∀ (n : BitVec 13) (c : TimerCfg), s.mstate.evaluates = true → s.timerCfg n.toNat = some c →
      s.timerVoted n.toNat ((s.lane.get s.leadLane).timerFlags n.toNat / 4 % 4 == 2) = true →
      ∃ t, exec (.timerExpiry n) s = .next t ∧ s.Steady t
        ∧ ∀ l : Lane, s.parts.get l = true → (s.lane.get l).memWf = true → ((s.lane.get l).timerFlags n.toNat).testBit 0 = true →
          ((t.lane.get l).timerFlags n.toNat).testBit 0 = false ∧ ((t.lane.get l).timerFlags n.toNat).testBit 1 = true
            ∧ (t.lane.get l).timerExpiry n.toNat = 0)
    ∧ (∀ l : Lane, s.worksImage = true → s.cyc.step = .agreed → s.inStep.get l = true → (s.lane.get l).logic.evaluating = false →
      (s.lane.get l).logic.ended = false →
      ∃ t, exec (.evaluationStart l) s = .next t ∧ s.Steady t
        ∧ (t.lane.get l).logic.evaluating = true ∧ (t.lane.get l).logic.phase = 0 ∧ (t.lane.get l).logic.held = []
        ∧ (t.lane.get l).logic.out = [] ∧ (t.lane.get l).logic.tcCmds = [] ∧ (t.lane.get l).logic.loc = (s.lane.get l).logic.loc
        ∧ (t.lane.get l).logic.prv = (s.lane.get l).logic.prv ∧ (t.lane.get l).image = (s.lane.get l).image
        ∧ ∀ x : Lane, x ≠ l → t.lane.get x = s.lane.get x)

/-- BARRIER, once every cell that holds a program stands there (R127, R172): no held write is left; before the last phase
the next one begins, and after it evaluation has ended and every previous-state bit is its local bit (R157). -/
def Obligations.BarrierEndsThePhase : Prop :=
  ∀ (s : State) (l : Lane), (s.lane.get l).logic.evaluating = true → (s.lane.get l).atBarrier = true →
    ∃ t, exec (.barrier l) s = .next t ∧ t.pending = s.pending ∧ t.cyc = s.cyc ∧ (t.lane.get l).logic.held = []
      ∧ ((s.lane.get l).logic.phase + 1 < (s.lane.get l).phaseCount →
          (t.lane.get l).logic.phase = (s.lane.get l).logic.phase + 1 ∧ (t.lane.get l).logic.ended = (s.lane.get l).logic.ended)
      ∧ ((s.lane.get l).phaseCount ≤ (s.lane.get l).logic.phase + 1 →
          (t.lane.get l).logic.ended = true ∧ (t.lane.get l).logic.evaluating = false
            ∧ (t.lane.get l).logic.prv = (t.lane.get l).logic.loc)

/-- DIGEST_VOTE among three ACTIVE lanes that have ended their evaluation: the lane whose digest differs from two equal ones
leaves the vote (R42, R44); with three different ones, or two that differ in 2-out-of-2 operation, the module enters SAFE
(R42, R52). -/
def Obligations.DigestVoteDecides : Prop :=
  ∀ s : State, s.mstate.voting = true → s.cyc.step = .agreed → (∀ l : Lane, s.inStep.get l = true → (s.lane.get l).logic.ended = true) →
    (∃ t, exec .digestVote s = .next t ∧ t.cyc = { s.cyc with step := .voted } ∧ t.pending = s.pending)
    ∧ (∀ l : Lane, (∀ x : Lane, s.isActive x = true) → s.digestVerdict = .minority l →
      ∃ t, exec .digestVote s = .next t ∧ t.LeftVote l)
    ∧ ((∀ x : Lane, s.isActive x = true) → s.digestVerdict = .noMajority → s.gate = false →
      ∃ t, exec .digestVote s = .next t ∧ t.Stopped)
    ∧ (∀ x y : Lane, s.isActive x = true → s.isActive y = true → s.activeCount = 2 → s.segsDiffer x y ≠ [] →
      s.segsDiffer y x ≠ [] → x ≠ y → s.gate = false → ∃ t, exec .digestVote s = .next t ∧ t.Stopped)

/-- OUTPUT_INSTANT, after the digest vote or, in a cycle that evaluates nothing, after input agreement (R120; log 83 for the
latter), ends the SYNC line (R123) and opens the switches of every lane that is not ACTIVE, of one whose charge pump has run
down, and of every lane outside the states that drive (R34, R60, R243); a lane commands only output channels in service (R262);
in a cycle that a planned handover pauses no switch closes (R410). RELEASE ends the output step (R120). -/
def Obligations.OutputAndRelease : Prop :=
  ∀ s : State, s.mstate.voting = true →
    (s.cyc.step = .voted ∨ s.cyc.step = .agreed ∧ s.worksImage = false →
      ∃ t, exec .outputInstant s = .next t ∧ t.cyc.step = .output ∧ t.cyc.syncLine = false ∧ t.cyc.syncReq = .all false
        ∧ t.cyc.num = s.cyc.num ∧ t.drv = s.drv ∧ t.pending = s.pending
        ∧ (s.xo.hoPaused = false → ∀ l : Lane, (s.lane.get l).field.decaying = false →
          (t.isActive l = false ∨ s.mstate.drives = false ∨ (s.lane.get l).field.unpowered = true → (t.lane.get l).field.cmd = 0)
          ∧ ∀ n : Nat, chanBit (t.lane.get l).field.cmd n = true → n ∈ t.outputs ∧ t.chanOos n = false)
        ∧ (s.xo.hoPaused = true → ∀ l : Lane, (s.lane.get l).field.decaying = false → ∀ n : Nat,
          chanBit (t.lane.get l).field.cmd n = true → chanBit (s.lane.get l).field.cmd n = true ∧ n ∈ t.outputs ∧ t.chanOos n = false))
    ∧ (s.cyc.step = .output → ∃ t, exec .release s = .next t ∧ t.cyc = { s.cyc with step := .released } ∧ t.pending = s.pending)

/-- PUBLICATION exchanges the buffers of the lane (R131) under the next generation, which the first lane to publish settles
(R134): what stood in the working buffer beyond the header is what is published. ROLL_FORWARD makes the working buffer equal
to it (R133). PIN_EXPIRY expires the pins of one port whose generation is three behind (R141). -/
def Obligations.PublicationAndRollForward : Prop :=
  ∀ (s : State) (l : Lane),
    (s.worksImage = true → s.cyc.step = .output → s.inStep.get l = true → (s.lane.get l).image.done = false →
      ∃ t, exec (.publication l) s = .next t ∧ t.drv = s.drv ∧ t.pending = s.pending ∧ (∀ x : Lane, t.mode x = s.mode x)
        ∧ t.gen = (if Lane.list.all fun x => !(s.lane.get x).image.done then s.nextGen else s.gen)
        ∧ (t.lane.get l).image.done = true ∧ (t.lane.get l).image.rolled = false ∧ (t.lane.get l).image.dirty = []
        ∧ (t.lane.get l).image.working = (s.lane.get l).image.published
        ∧ (∀ a : Nat, 32 ≤ a → memGet (t.lane.get l).image.published a = memGet (s.lane.get l).image.working a)
        ∧ ∀ x : Lane, x ≠ l → t.lane.get x = s.lane.get x)
    ∧ (∀ copied : Bool, (s.lane.get l).image.rolled = false →
      ∃ t, exec (.rollForward l copied false) s = .next t ∧ s.Steady t
        ∧ (t.lane.get l).image.working = (s.lane.get l).image.published
        ∧ (t.lane.get l).image.published = (s.lane.get l).image.published ∧ (t.lane.get l).image.rolled = true)
    ∧ ∀ p : Port, ∃ t, exec (.pinExpiry l p) s = .next t ∧ s.Steady t
        ∧ (t.lane.get l).image.pins = (s.lane.get l).image.pins.map (fun q =>
            if q.port == p && decide (q.gen + 3 ≤ (s.lane.get l).pubGen) then { q with expired := true } else q)
        ∧ (t.lane.get l).image.published = (s.lane.get l).image.published ∧ ∀ x : Lane, x ≠ l → t.lane.get x = s.lane.get x

/-! ### Lane Exchange, paired transmitters, LIVE, the limit of 2-out-of-2 operation -/

/-- A good transfer trains its link and ends the repetition that was asked; the first bad one asks for a repetition; a
window missed on one link is noted, on both the lane is silent and leaves the vote (R28, R61). A lane whose SYNC request
stood at the output instant leaves the vote (R50). A page of a resynchronisation that arrives alike is kept, one that does
not is asked again once, and then the lane is HALTED (R47, R48). -/
def Obligations.LaneExchange : Prop :=
  ∀ s : State, s.mstate.voting = true →
    (∀ (k : LxLink) (rcv : Lane) (n : Nat), linkAt rcv k = some n → s.exchanges rcv = true → s.exchanges (farEnd rcv k) = true →
      exec (.lxTransfer k rcv true) s = .next { s with
        lx := { s.lx.train k with
          retry := s.lx.retry.filter fun e => e != (k, rcv), missed := s.lx.missed.filter fun e => e != (k, farEnd rcv k) } }
      ∧ ((k, rcv) ∉ s.lx.retry → ∃ t, exec (.lxTransfer k rcv false) s = .next t
          ∧ t.lx = { s.lx with retry := s.lx.retry ++ [(k, rcv)], missed := s.lx.missed.filter fun e => e != (k, farEnd rcv k) }
          ∧ t.pending = s.pending))
    ∧ (∀ (k : LxLink) (x : Lane) (m n : Nat), linkAt x k = some m → linkAt (farEnd x k) k = some n → s.inStep.get x = true →
      ((otherLink x k, x) ∉ s.lx.missed → ∃ t, exec (.stepWindowMissed k x) s = .next t
          ∧ t.lx.missed = s.lx.missed ++ [(k, x)] ∧ t.pending = s.pending)
      ∧ ((otherLink x k, x) ∈ s.lx.missed → 2 ≤ s.activeCount → ∃ t, exec (.stepWindowMissed k x) s = .next t
          ∧ (t.mode x = .excluded ∨ t.mode x = .halted) ∧ (t.ctl.get x).permit = false))
    ∧ (∀ l x : Lane, s.inStep.get l = true → s.activeCount = 3 → s.isActive x = true →
      ∃ t, exec (.outEdgeMissing l x) s = .next t ∧ t.LeftVote x)
    ∧ ∀ (l : Lane) (page : BitVec 20), s.mode l = .resync → s.othersActive l = true → page.toNat < resyncPages →
      (∃ t, exec (.resyncPage l page true) s = .next t ∧ (t.ctl.get l).mode = .resync
        ∧ (t.ctl.get l).pages = insertNat page.toNat (s.ctl.get l).pages ∧ page.toNat ∉ (t.ctl.get l).retry
        ∧ page.toNat ∉ (t.ctl.get l).marked)
      ∧ (page.toNat ∉ (s.ctl.get l).retry → ∃ t, exec (.resyncPage l page false) s = .next t ∧ (t.ctl.get l).mode = .resync
        ∧ page.toNat ∉ (t.ctl.get l).pages ∧ (t.ctl.get l).retry = insertNat page.toNat (s.ctl.get l).retry)
      ∧ (page.toNat ∈ (s.ctl.get l).retry → ∃ t, exec (.resyncPage l page false) s = .next t ∧ t.mode l = .halted)

/-- TX_FRAME_START (R38, R40): the frame that waits first leaves when the copies of its pair are equal; a third lane that differs
leaves the vote; a lane of the pair that differs from the other and from the third lane leaves the vote; different copies in
2-out-of-2 operation take the module to SAFE; the frame of a pair that no longer stands is abandoned (R25, R39). TX_LATE: a frame
whose second copy is late is abandoned and counted (R39). -/
def Obligations.PairedTransmitters : Prop :=
  ∀ (s : State) (ch : TxChan) (f : TxFrame) (rest : List TxFrame), s.mstate.voting = true →
    (∀ (x y : Lane) (copies : LaneVec Bytes), s.nextFrame ch = some (f, rest) → pairLanes f.pair = some (x, y) →
      (s.isActive x = true → s.isActive y = true →
        (copies.get x = copies.get y → (∀ t : Lane, s.thirdLane (x, y) = some t → copies.get t = copies.get x) →
          exec (.txFrameStart ch copies) s = .next ({ s with txq := rest }.sent f (copies.get x)))
        ∧ (∀ t : Lane, copies.get x = copies.get y → s.thirdLane (x, y) = some t → copies.get t ≠ copies.get x →
          ∃ u, exec (.txFrameStart ch copies) s = .next u ∧ u.LeftVote t ∧ u.txq = rest)
        ∧ (∀ t z w : Lane, (z = x ∧ w = y ∨ z = y ∧ w = x) → s.thirdLane (x, y) = some t → copies.get z ≠ copies.get w →
          copies.get t = copies.get w → ∃ u, exec (.txFrameStart ch copies) s = .next u ∧ u.LeftVote z ∧ u.txq = rest
            ∧ u.txLast = s.txLast)
        ∧ (copies.get x ≠ copies.get y → s.thirdLane (x, y) = none → s.gate = false →
          ∃ u, exec (.txFrameStart ch copies) s = .next u ∧ u.Stopped))
      ∧ (s.isActive x = false ∨ s.isActive y = false →
        ∃ u, exec (.txFrameStart ch copies) s = .next u ∧ u.txq = rest ∧ u.txLast = s.txLast ∧ s.Steady u))
    ∧ (takeFrame ch s.txq = some (f, rest) → ∃ u, exec (.txLate ch) s = .next u ∧ u.txq = rest ∧ u.txLast = s.txLast ∧ s.Steady u
      ∧ ((∀ x y : Lane, pairLanes f.pair = some (x, y) → s.isActive x = true ∧ s.isActive y = true) →
        ∀ l : Lane, s.inStep.get l = true → (s.lane.get l).wf = true →
          fieldOf ((u.lane.get l).reg Reg.TX_ERR_CNT) 16 16 = min (fieldOf ((s.lane.get l).reg Reg.TX_ERR_CNT) 16 16 + 1) 0xFFFF))

/-- LIVE (R448 to R451): the half-periods of 90.9 to 111.1 µs that a lane itself and another lane measure are within the window, what
the drive circuit measures decides its own discrimination; a lane that both others have found outside for 1 ms is HALTED; the
switches of a lane whose LIVE has stopped open when they decay, and stay open (R60). VITAL_DRV that is still energised 200 µs after
it should have stopped is reported in the lane collector; a lane's SAFE_REQ stops the module, with its cause and the lane in
`FC_LAST_SAFE` (R433, R451, R465). -/
def Obligations.LiveAndSafeGate : Prop :=
  let inside (h : Option Half) : Prop := ∃ v : Half, h = some v ∧ 9090 ≤ v.toNat ∧ v.toNat ≤ 11110
  ∀ (s : State) (l : Lane),
    (∀ (half : LaneVec (Option Half)) (drive : Option Half), s.mstate ≠ .off → inside (half.get l) → inside (half.get l.others.1) →
      ∃ t, exec (.liveWindow l half drive) s = .next t ∧ t.mstate = s.mstate ∧ t.gate = s.gate
        ∧ (t.drv.live.get l = true ↔ inside drive)
        ∧ t.vdrv = (!s.gate && decide (2 ≤ t.drv.live.count)) ∧ (∀ x : Lane, (t.lane.get x).liveOk.get l = true ↔ inside (half.get x))
        ∧ (t.ctl.get l).lostAt = none ∧ ∀ x : Lane, t.mode x = s.mode x)
    ∧ (∀ (half : LaneVec (Option Half)) (drive : Option Half) (at_ : Nat), s.mstate.voting = true → (∀ x : Lane, s.isActive x = true) →
      inside (half.get l) → ¬ inside (half.get l.others.1) → ¬ inside (half.get l.others.2) → (s.ctl.get l).lostAt = some at_ →
      at_ + 1000000 ≤ s.now → ∃ t, exec (.liveWindow l half drive) s = .next t ∧ t.LeftVote l ∧ t.mode l = .halted)
    ∧ (s.liveSignals.get l = false → ∃ t, exec (.switchDriverDecay l) s = .next t ∧ s.Steady t ∧ (t.lane.get l).field.cmd = 0
        ∧ (t.lane.get l).field.unpowered = true
        ∧ (t.lane.get l).regs = (s.lane.get l).regs ∧ ∀ x : Lane, x ≠ l → t.lane.get x = s.lane.get x)
    ∧ (s.mstate ≠ .off → s.vdrv = false → s.drv.offAt + 200000 ≤ s.now → ∃ t, exec (.safeCheck l) s = .next t ∧ t.ErrSet l (Blk.ofOff Base.fc) 2)
    ∧ ∀ cause : Byte, s.isActive l = true → s.gate = false → cause ≠ 0 →
      ∃ t, exec (.safeGateLatch l cause) s = .next t ∧ t.Stopped ∧ (t.lane.get l).safeReq = true
        ∧ ∀ x : Lane, fieldOf ((t.lane.get x).reg Reg.FC_LAST_SAFE) 0 8 = cause.toNat
          ∧ fieldOf ((t.lane.get x).reg Reg.FC_LAST_SAFE) 8 2 = l.code

/-- The limit of 2-out-of-2 operation (R53 to R55): DEG_WARN at 75 % of the limit sets the warning; DEG_COUNT_RESET, with three
ACTIVE lanes for 10 min without interruption, sets the count to zero; DEG_EXPIRED at the limit: a module that is not in DUTY enters
SAFE (a role holder in RESTART_LOCKED among them: the model's choice, log 136), and so does a duty module without a synchronised
standby of three lanes; a duty module whose standby can take the role names the next cycle as its last; one that an armed change
bars from handing over at once goes on and tries again (R409). Before its time none of the three changes anything. -/
def Obligations.DegradedLimit : Prop :=
  ∀ s : State, s.mstate.voting = true →
    let limit := fieldOf (s.agreedReg Reg.VOTE_CFG) 0 8 * 3600000000000
    (s.deg.warn = false → 3 * limit ≤ 4 * s.deg.ns →
      ∃ t, exec .degWarn s = .next t ∧ t.deg = { s.deg with warn := true } ∧ s.Steady t)
    ∧ (s.deg.warn = true ∨ 4 * s.deg.ns < 3 * limit → exec .degWarn s = .next s)
    ∧ (s.activeCount = 3 → 600000000000 ≤ s.deg.clean → exec .degCountReset s = .next { s with deg := {} })
    ∧ (s.activeCount ≠ 3 ∨ s.deg.clean < 600000000000 → exec .degCountReset s = .next s)
    ∧ (limit ≤ s.deg.ns →
      (s.mstate ≠ .duty → s.lead.isSome = true → s.gate = false →
        ∃ t, exec .degExpired s = .next t ∧ t.Stopped ∧ t.deg.expired = true)
      ∧ (s.mstate = .duty → s.handoverBar = none →
        ∃ t, exec .degExpired s = .next t ∧ t.xo.hoCycle = some (s.cyc.num + 1) ∧ t.deg.expired = true ∧ s.Steady t)
      ∧ (s.mstate = .duty → s.handoverBar = some 0x40 ∨ s.handoverBar = some 0x41 → s.xo.hoCycle = none → s.lead.isSome = true →
        s.gate = false → ∃ t, exec .degExpired s = .next t ∧ t.Stopped ∧ t.deg.expired = true)
      ∧ (s.mstate = .duty → s.handoverBar = some 0x42 → ∃ t, exec .degExpired s = .next t ∧ t.deg.expired = true ∧ s.Steady t))
    ∧ (s.deg.ns < limit → exec .degExpired s = .next s)

/-! ### Faults (R420 to R447) -/

/-- A report sets the detector's `BLK_ERR` bit (R429). One of class NOTE changes neither the drive nor the vote (R430); one of
class LANE_RECOVER takes an ACTIVE lane out of the vote, or, the last ACTIVE one, stops the module, one of class MODULE_SAFE stops
the module (R430, R431, R433). RAIL of a region collector reports in the class of the detector that its data name, or LANE_RECOVER,
whichever is higher (R421). Of two reports of one clock both are recorded as errors, and the higher class is applied (R423). -/
def Obligations.FaultReports : Prop :=
  ∀ (s : State) (l : Lane) (k : Blk) (bit : BitVec 5) (data : Word) (held : Bool), s.mstate ≠ .off → s.mstate ≠ .safe →
    implements k bit.toNat = true → s.Hears l k bit.toNat data.toNat →
    let cls := match s.railOf k bit.toNat data.toNat with
      | some r => FClass.max r .laneRecover
      | none => s.classOf k bit.toNat
    (cls = .note → ∃ t, exec (.faultReport l k bit data held []) s = .next t ∧ t.ErrSet l k bit.toNat ∧ s.Steady t)
    ∧ (cls = .laneRecover → s.isActive l = true →
      (s.mstate.voting = false ∨ 2 ≤ s.activeCount →
        ∃ t, exec (.faultReport l k bit data held []) s = .next t ∧ t.ErrSet l k bit.toNat ∧ t.LeftVote l)
      ∧ (s.mstate.voting = true → s.activeCount = 1 → s.gate = false →
        ∃ t, exec (.faultReport l k bit data held []) s = .next t ∧ t.ErrSet l k bit.toNat ∧ t.Stopped))
    ∧ (cls = .moduleSafe → s.isActive l = true → s.gate = false →
      ∃ t, exec (.faultReport l k bit data held []) s = .next t ∧ t.ErrSet l k bit.toNat ∧ t.Stopped
        ∧ ∀ f : FaultObs, implements f.blk f.bit.toNat = true → s.Hears l f.blk f.bit.toNat f.data.toNat → s.railOf f.blk f.bit.toNat f.data.toNat = none →
          ∃ u, exec (.faultReport l f.blk f.bit f.data f.held [{ blk := k, bit, data, held }]) s = .next u ∧ u.Stopped
            ∧ u.ErrSet l k bit.toNat ∧ u.ErrSet l f.blk f.bit.toNat)

/-- HS_TIMEOUT is reported by the requester's region collector; one into the shadow of a reset changes nothing but counts and the
book (R23, R436). A rail test without a broken pair changes nothing (R422), a broken pair of a block that is not masked is reported
RAIL (R421). REVERIFY_LATE and SCRUB_LATE: re-verification and scrubbing that have passed their bound are reported by their unit
(R528, R534). -/
def Obligations.CollectorReports : Prop :=
  ∀ (s : State) (l : Lane), s.mstate ≠ .off →
    (∀ requester target : Blk, requester.region.toNat ≤ 5 → s.shadowed l requester = false →
      (s.shadowed l target = true → ∃ t, exec (.hsTimeout l requester target) s = .next t ∧ s.Steady t
        ∧ ∀ x : Lane, x ≠ l → t.lane.get x = s.lane.get x)
      ∧ (s.shadowed l target = false → ∃ t, exec (.hsTimeout l requester target) s = .next t
        ∧ t.ErrSet l (rcOf requester) 0))
    ∧ (∀ region : BitVec 4, exec (.railTest l region none) s = .next s)
    ∧ (∀ (region : BitVec 4) (b : BitVec 12) (bit : BitVec 5), implements ⟨region, b⟩ bit.toNat = true →
      s.masked l ⟨region, b⟩ = false →
      ∃ t, exec (.railTest l region (some (b, bit))) s = .next t ∧ t.ErrSet l (rcOf ⟨region, b⟩) 1)
    ∧ (∀ u : BitVec 5, u.toNat < 17 → s.passLate l u.toNat (passBound u.toNat) = true → ∃ t, exec (.reverifyLate l u) s = .next t ∧ t.ErrSet l (Blk.ofOff (Base.cv u.toNat)) 2)
    ∧ ∀ r : BitVec 3, r.toNat < 6 → s.passLate l (18 + r.toNat) 2000000000 = true →
      ∃ t, exec (.scrubLate l r) s = .next t ∧ t.ErrSet l (Blk.ofOff (Base.cv (18 + r.toNat))) 6

/-- RESET_COMPLETE ends the reset. After the last one an EXCLUDED lane whose detector still reports is HALTED (R432); otherwise it
enters RESYNC at the next cycle boundary, while the other two lanes are ACTIVE (R45, R46). RESET_OVERRUN, at the bound of the reset,
is answered by the next wider reset, of a block by its region's, of a region by the lane's; a lane reset leaves the lane HALTED
(R437). -/
def Obligations.ResetsEnd : Prop :=
  ∀ (s : State) (l : Lane) (scope : RScope) (k : Blk) (r : ResetRec), (s.lane.get l).resetOf scope k = some r →
    (∃ t, exec (.resetComplete l scope k) s = .next t ∧ (t.lane.get l).resetOf scope k = none
      ∧ (∀ (w : RScope) (j : Blk), (w, j) ≠ (scope, k) → (t.lane.get l).resetOf w j = (s.lane.get l).resetOf w j)
      ∧ t.drv = s.drv ∧ t.pending = s.pending ∧ (∀ x : Lane, x ≠ l → t.ctl.get x = s.ctl.get x)
      ∧ ((t.lane.get l).resetting = true → t.ctl = s.ctl)
      ∧ ((t.lane.get l).resetting = false → s.mstate ≠ .safe → s.mode l = .excluded →
          t.mode l = (if (s.ctl.get l).watch.any (t.stillFaulty l) then .halted else .excluded)
          ∧ ((s.ctl.get l).watch.any (t.stillFaulty l) = false → (s.ctl.get l).cls = .laneRecover → s.mstate.voting = true →
            s.othersActive l = true → (t.laneBoundary l).mode l = .resync)))
    ∧ (r.at_ + RScope.bound scope ≤ s.now →
      (scope = .lane → ∃ t, exec (.resetOverrun l scope k) s = .next t ∧ t.mode l = .halted ∧ t.drv = s.drv
        ∧ (t.lane.get l).resetOf scope k = none)
      ∧ (scope = .block → ∃ t, exec (.resetOverrun l scope k) s = .next t ∧ (t.lane.get l).resetOf .block k = none
        ∧ ((t.lane.get l).resetOf .region k).isSome = true)
      ∧ (scope = .region → ∃ t, exec (.resetOverrun l scope k) s = .next t ∧ (t.lane.get l).resetOf .region k = none
        ∧ ((t.lane.get l).resetOf .lane k).isSome = true))
    ∧ (s.now < r.at_ + RScope.bound scope → exec (.resetOverrun l scope k) s = .next s)

/-! ### The common registers (R79 to R82, R424 to R429) -/

/-- `BLK_CTRL` by broadcast, accepted: EN and INDIV take the value in every lane that takes part, RST starts a reset of the
block there. Through a lane aperture it takes effect in a lane outside the vote alone (R80), an ACTIVE lane refuses it; a lane whose block is in reset refuses it (R69). -/
def Obligations.BlockControl : Prop :=
  ∀ (s : State) (k : Blk) (p : Port) (d : Word), (pageOf (Blk.base k)).isSome = true →
    (∀ l : Lane, (s.lane.get l).bit (Blk.base k + 0x8) 2 = false ∧ (s.lane.get l).wf = true) →
    (s.AgreesWb p (Blk.base k + 0x8) → s.ctlBar k d = 0 → d.toNat.testBit 1 = false →
      (∃ t, exec (.blockEnable .broadcast k p d) s = .next t ∧ s.Steady t ∧ ∀ l : Lane, s.parts.get l = true →
        (t.lane.get l).reg (Blk.base k + 0x8) = BitVec.ofNat 32 (d.toNat % 2 + d.toNat / 4 % 2 * 4))
      ∧ ∃ t, exec (.indiv .broadcast k p d) s = .next t ∧ s.Steady t ∧ ∀ l : Lane, s.parts.get l = true →
        (t.lane.get l).reg (Blk.base k + 0x8) = BitVec.ofNat 32 (d.toNat % 2 + d.toNat / 4 % 2 * 4))
    ∧ (s.AgreesWb p (Blk.base k + 0x8) → s.ctlBar k (setField d 1 1 1) = 0 →
      ∃ t, exec (.blockReset .broadcast k p d) s = .next t ∧ s.Steady t ∧ ∀ l : Lane, s.parts.get l = true →
        (t.lane.get l).inReset k = true)
    ∧ ∀ l : Lane, s.accessOf p = .configure →
      ((s.lane.get l).inReset k = true → exec (.blockEnable (.lane l) k p d) s =
          .next (s.refuseIn (oneLane l) p (l.code * 0x10000000 + (Blk.base k + 0x8)) Reason.inReset))
      ∧ ((s.lane.get l).inReset k = false → s.mode l = .excluded ∨ s.mode l = .halted → ∃ t, exec (.blockReset (.lane l) k p d) s = .next t ∧ s.Steady t
        ∧ (t.lane.get l).inReset k = true ∧ ∀ x : Lane, x ≠ l → t.lane.get x = s.lane.get x)
      ∧ ((s.lane.get l).inReset k = false → s.isActive l = true → exec (.blockEnable (.lane l) k p d) s =
          .next (s.refuseIn (oneLane l) p (l.code * 0x10000000 + (Blk.base k + 0x8)) Reason.notBroadcast))

/-- `BLK_ERR_EN`, accepted: no vital detector's enable falls (R81), the journal holds the value. `BLK_CLASS`, accepted: the
detector has the class written (R427, R428), every other its own; the module goes on as it was. -/
def Obligations.EnablesAndClasses : Prop :=
  ∀ (s : State) (k : Blk) (p : Port) (d : Word), (pageOf (Blk.base k)).isSome = true →
    (s.AgreesWb p (Blk.base k + 0x14) → s.errEnBar k d = 0 →
      ∃ t, exec (.blkErrEnWrite k p d) s = .next t ∧ s.Steady t ∧ ∀ (l : Lane) (n : Nat), s.parts.get l = true →
        (s.lane.get l).wf = true → maskBit (vitalOf k) n = true → (s.lane.get l).bit (Blk.base k + 0x14) n = true →
        (t.lane.get l).bit (Blk.base k + 0x14) n = true)
    ∧ (∀ c : FClass, s.AgreesWb p (Blk.base k + 0x24) → classBar k d = 0 → FClass.ofCode (fieldOf d 8 3) = some c →
      SMap.wf classDefault s.classes = true →
      ∃ t, exec (.blkClassWrite k p d) s = .next t ∧ s.Steady t ∧ t.classOf k (fieldOf d 0 5) = c
        ∧ ∀ (j : Blk) (n : Nat), n < 32 → (j, n) ≠ (k, fieldOf d 0 5) → t.classOf j n = s.classOf j n)

/-- Clearing, rejoining, restarting (R440 to R442): a `BLK_ERR` bit written 1 clears unless its cause is still present; a
HALTED lane whose causes are cleared performs a lane reset; a module in SAFE whose causes are cleared makes a module
reset, after which it is in BOOT and drives nothing; elsewhere the restart is refused. -/
def Obligations.ClearingRejoiningRestarting : Prop :=
  ∀ (s : State) (p : Port),
    (∀ (ap : WAper) (k : Blk) (d : Word) (l : Lane) (n : Nat), k.region ≠ 0xF → (pageOf (Blk.base k)).isSome = true →
      s.TakesWrite p k → (wLanes ap).get l = true → (s.lane.get l).wf = true → n < 32 →
      ∃ t, exec (.blkErrClear ap k p d) s = .next t ∧ s.Steady t
        ∧ (t.lane.get l).bit (Blk.base k + 0x10) n
            = ((s.lane.get l).bit (Blk.base k + 0x10) n && (!d.toNat.testBit n || s.stillFaulty l ⟨k, n⟩)))
    ∧ (∀ l : Lane, s.TakesWrite p (Blk.ofOff Reg.FC_REJOIN) → s.rejoinBar l = 0 →
      ∃ t, exec (.rejoin l p) s = .next t ∧ t.drv = s.drv ∧ (t.ctl.get l).rejoinReq = true ∧ t.mode l = .halted
        ∧ ((t.lane.get l).resetOf .lane (Blk.ofOff Base.fc)).isSome = true ∧ ∀ x : Lane, x ≠ l → t.lane.get x = s.lane.get x)
    ∧ (s.mstate = .safe → s.accessOf p = .configure → s.restartBar = 0 →
      ((s.lane.get s.leadLane).journalPlace Reg.FC_CTRL).isSome = true →
      (∀ l : Lane, (s.lane.get l).inReset (Blk.ofOff Reg.FC_CTRL) = false) →
      ∃ t, exec (.restart p) s = .next t ∧ t.mstate = .boot ∧ t.gate = false ∧ t.vdrv = false ∧ t.pending = s.pending
        ∧ t.startAt = s.now ∧ ∀ l : Lane, t.mode l = .active ∧ (t.ctl.get l).permit = false
          ∧ (t.lane.get l).flash = (s.lane.get l).flash ∧ (t.lane.get l).keys = (s.lane.get l).keys)
    ∧ (s.AgreesWb p Reg.FC_CTRL → exec (.restart p) s = .next (s.refuseIn s.parts p (0x40000000 + Reg.FC_CTRL) 0x42))

/-- Injection (R443 to R447): an accepted write opens one injection with its block, detector, tag, cycles and lanes, and sets
the detector's bit in the lanes it names; CANCEL, and the expiry when its cycles have passed, end the forced report; the window closes once its reaction is
complete. -/
def Obligations.Injection : Prop :=
  ∀ (s : State) (k : Blk) (p : Port) (d : Word),
    ((pageOf (Blk.base k)).isSome = true → s.AgreesWb p (Blk.base k + 0x20) →
      (s.injBar k d = 0 → fieldOf d 26 1 = 0 → ∃ t, exec (.injection k p d) s = .next t ∧ ∃ i, t.inj = some i ∧ i.blk = k
        ∧ i.det = fieldOf d 0 5 ∧ i.tag = BitVec.ofNat 8 (fieldOf d 8 8) ∧ i.left = fieldOf d 16 8 ∧ i.lanes = injLanes d
        ∧ ∀ l : Lane, (injLanes d).get l = true → t.ErrSet l k (fieldOf d 0 5))
      ∧ (∀ i : InjSt, s.inj = some i → i.blk = k →
        ∃ t, exec (.injectionCancel k p d) s = .next t ∧ t.inj = some i.unforce ∧ s.Steady t))
    ∧ ∀ i : InjSt, s.inj = some i → i.blk = k →
      (i.left = 0 → exec (.injectionExpiry k) s = .next { s with inj := some i.unforce }) ∧ (i.left ≠ 0 → exec (.injectionExpiry k) s = .next s)
      ∧ (s.injDone i = true → ∃ t, exec (.injEnd k) s = .next t ∧ t.inj = none ∧ s.Steady t)
      ∧ (s.injDone i = false → exec (.injEnd k) s = .next s)

/-! ### Register writes and the ports (R67 to R112) -/

/-- The voted aperture takes no write (R68); apertures that do not exist and addresses off the word are unmapped; a register
of WB fields takes no write through a lane's own aperture but `BLK_CTRL` (R74, R88), and the token presented with it is used up
(R87); the units 0 to 23 take no configuration (R512). A read of a word of the voted aperture is OK with the word that two
counted lanes give (R70, R71). `TMR_SEL` takes a write for its port alone (R235), `LED_TEST` lights every LED (R598). -/
def Obligations.RegisterWrites : Prop :=
  ∀ (s : State) (p : Port) (d : Word) (token : Half) (tag : Byte),
    (∀ off : Nat, off < 0x10000000 →
      (off % 4 = 0 → mapped off = true → exec (.registerWrite (BitVec.ofNat 32 (0x30000000 + off)) p d token tag) s
        = .next (s.refuseModule p Base.acc (0x30000000 + off) Reason.votedWrite))
      ∧ (∀ ap : Nat, ap < 16 → 6 ≤ ap ∨ off % 4 ≠ 0 →
        exec (.registerWrite (BitVec.ofNat 32 (ap * 0x10000000 + off)) p d token tag) s = .next s)
      ∧ ∀ l : Lane, off % 4 = 0 → mapped off = true → holdsWb off = true → off % 0x1000 ≠ 8 → s.mstate ≠ .off →
        s.accessOf p = .configure →
        exec (.registerWrite (BitVec.ofNat 32 (l.code * 0x10000000 + off)) p d token tag) s
          = .next ((s.upd l fun L => L.useToken (off / 0x1000 * 0x1000) token).refuseIn (oneLane l) p (l.code * 0x10000000 + off)
              (if (s.lane.get l).inReset (Blk.ofOff off) then Reason.inReset else Reason.notBroadcast)))
    ∧ (∀ (off : Nat) (w : Word) (l m : Lane), off < 0x10000000 → inImageWindow off = false → off % 4 = 0 → mapped off = true →
      off % 0x1000 ≠ 0x28 → groupOf off = none → cbPort off = none → (advancesCursor off = false ∨ s.accessOf p ≠ .view) →
      (∀ x : Lane, (s.lane.get x).inReset (Blk.ofOff off) = false) → l ≠ m →
      s.countedLanes.get l = true → s.countedLanes.get m = true → s.readReg l p off = w → s.readReg m p off = w →
      (s.readWord p (0x30000000 + off)).status = stOk ∧ (s.readWord p (0x30000000 + off)).word = w)
    ∧ (∀ u : Nat, u < 24 → s.TakesWrite p (Blk.ofOff (Base.cv u)) →
      exec (.registerWrite (BitVec.ofNat 32 (0x40000000 + Reg.CV_CFG u)) p d token tag) s
        = .next (s.updAll fun l L => L.refuse l p (0x40000000 + Reg.CV_CFG u) Reason.readOnly s.cyc.num))
    ∧ (∀ l : Lane, s.TakesWrite p (Blk.ofOff Reg.TMR_SEL) → ∃ t,
      exec (.registerWrite (BitVec.ofNat 32 (l.code * 0x10000000 + Reg.TMR_SEL)) p d token tag) s = .next t
        ∧ (d.toNat % 8192 ≠ 0 → ((t.lane.get l).sel p Reg.TMR_SEL).toNat % 8192 = d.toNat % 8192)
        ∧ (∀ q : Port, q ≠ p → (t.lane.get l).sel q Reg.TMR_SEL = (s.lane.get l).sel q Reg.TMR_SEL)
        ∧ (t.lane.get l).regs = (s.lane.get l).regs ∧ s.Steady t ∧ ∀ x : Lane, x ≠ l → t.lane.get x = s.lane.get x)
    ∧ (s.mstate ≠ .off → s.accessOf p ≠ .view → d.toNat.testBit 0 = true →
      exec (.registerWrite (BitVec.ofNat 32 (0x50000000 + Reg.LED_TEST)) p d token tag) s
        = .next { s with power := { s.power with ledTest := true, ledAt := s.now } })

/-- READ and WRITE complete. A request of one word over an open session whose keys every lane holds is answered: READ with the
word, WRITE with its status (R98, R101, R102, R108, R109); so is a READ at the host port (R97, R102), where a wrong CRC is
answered CRC_ERROR (R99). A host frame that no two lanes received alike is counted and reported by each lane that received one
(R105), and neither executed nor answered (log 91, the model's choice), as is a session's. -/
def Obligations.RequestFrames : Prop :=
  ∀ (s : State) (copies : LaneVec (Option Bytes)),
    (agreedFrame copies = none → s.hostSilent = false → ∃ t, exec (.read .host copies) s = .next t
      ∧ exec (.write .host copies) s = .next t ∧ t.hp = s.hp ∧ ∀ l : Lane, (copies.get l).isSome = true → t.ErrSet l (Blk.ofOff Base.hp) 1)
    ∧ (∀ n : BitVec 2, agreedFrame (s.decrypted n.toNat copies) = none →
      exec (.read (.maint n) copies) s = .next s ∧ exec (.write (.maint n) copies) s = .next s)
    ∧ (s.hostSilent = true → exec (.read .host copies) s = .next s ∧ exec (.write .host copies) s = .next s)
    ∧ (exec (.read .internal copies) s = .next s ∧ exec (.write .internal copies) s = .next s)
    ∧ (∀ (n : BitVec 2) (tag : Byte) (addr : Word) (token : Half) (d : Word), (s.maintSt n.toNat).isOpen = true →
      (∀ l : Lane, (s.lane.get l).tlsKeys.contains n.toNat = true) →
      (s.maintSt n.toNat).queue.length < 8 → addr.toNat % 0x1000 ≤ 0xFFC →
      (∃ t, exec (.read (.maint n) (.all (some (toBe 2 10 ++ ([0x0B, tag] ++ toBe 4 addr.toNat ++ [0, 1] ++ toBe 2 token.toNat))))) s
          = .next t
        ∧ ∃ r : Resp, (t.maintSt n.toNat).queue.getLast? = some r ∧ r.tag = tag
          ∧ r.status = byteOf (s.readWord (.maint n) addr.toNat).status
          ∧ r.data = if (s.readWord (.maint n) addr.toNat).status = stOk then [(s.readWord (.maint n) addr.toNat).word] else [])
      ∧ ((s.maintSt n.toNat).last = none → ∃ t,
        exec (.write (.maint n) (.all (some (toBe 2 14 ++ ([0x02, tag] ++ toBe 4 addr.toNat ++ [0, 1] ++ toBe 2 token.toNat
          ++ toBe 4 d.toNat))))) s = .next t
        ∧ ∃ r : Resp, (t.maintSt n.toNat).queue.getLast? = some r ∧ r.tag = tag ∧ r.data = []
          ∧ r.status = byteOf (s.writeWord (.maint n) addr.toNat d token tag {}).status))
    ∧ (∀ (tag : Byte) (addr : Word) (token : Half), s.hostSilent = false → addr.toNat % 0x1000 ≤ 0xFFC →
      let body : Bytes := [0x0B, tag] ++ toBe 4 addr.toNat ++ [0, 1] ++ toBe 2 token.toNat
      let f : Bytes := body ++ toBe 2 (crc16 body)
      let u := s.hostReceive (.all (some f)) f
      ∃ t, exec (.read .host (.all (some f))) s = .next t ∧ t.hp.ready = false
        ∧ ∃ r : Resp, t.hp.resp = some r ∧ r.tag = tag ∧ r.status = byteOf (u.readWord .host addr.toNat).status
          ∧ r.data = if (u.readWord .host addr.toNat).status = stOk then [(u.readWord .host addr.toNat).word] else [])
    ∧ (∀ f : Bytes, s.hostSilent = false → 3 ≤ f.length → f.getD 0 0 ≠ 0x02 →
      beAt f (f.length - 2) 2 ≠ crc16 (f.take (f.length - 2)) → s.hp.resp = none →
      ∃ t, exec (.read .host (.all (some f))) s = .next t ∧ t.hp.resp = some (plainResp stCrcError (f.getD 1 0)) ∧ s.Steady t)

/-- POLL at the host port: nothing while it is silent (R603), the response once HP_RDY_N has fallen, PENDING before (R102). A
session sends its oldest response (R108). A lane that does not answer is answered for: REFUSED, NO_ANSWER (R69; the tag in a
session is log 92's choice). A client that meets R106 at port 5380 takes the lowest free session with the role of its
certificate, every other and a fifth one a TLS alert (R107); 300 s without a request close it. -/
def Obligations.ResponsesAndSessions : Prop :=
  ∀ s : State,
    (s.hostSilent = true → exec .hpPoll s = .next { s with hp := { s.hp with polled := none } })
    ∧ (∀ r : Resp, s.hostSilent = false → s.hp.resp = some r → s.hp.ready = true →
      exec .hpPoll s = .next { s with hp := { s.hp with fetched := true, polled := some r.frame } })
    ∧ (s.hostSilent = false → s.hp.ready = false →
      exec .hpPoll s = .next { s with hp := { s.hp with polled := some (plainResp stPending s.hp.tag).frame } })
    ∧ (s.hp.resp.isSome = true → s.hostSilent = false →
      exec (.responseReady .host) s = .next { s with hp := { s.hp with ready := true } }
      ∧ ∀ l : Lane, State.hpStat { s with hp := { s.hp with ready := true } } (s.lane.get l) % 4 = 2)
    ∧ (∀ (n : BitVec 2) (r : Resp) (rs : List Resp), (s.maintSt n.toNat).queue = r :: rs →
      ∃ t, exec (.responseReady (.maint n)) s = .next t ∧ t.maintSt n.toNat = { s.maintSt n.toNat with queue := rs, sent := some r.body }
        ∧ t.lane = s.lane ∧ s.Steady t)
    ∧ (∀ (l : Lane) (addr : Word), addr.toNat / 0x10000000 = l.code → s.hostSilent = false →
      ∃ t, exec (.noAnswer l .host addr) s = .next t
        ∧ t.hp.resp = some { status := 3, tag := s.hp.tag, reason := 0x12, data := [] } ∧ t.hp.ready = false ∧ s.Steady t)
    ∧ (∀ (c : Client) (suite : Half) (cert : Bytes) (r : Nat), s.admitsClient c = some (suite, cert, r) →
      let keys := (s.lane.get s.leadLane).keys
      c.tls13 = true ∧ c.suites.contains suite = true ∧ (suite = 0x1301 ∨ suite = 0x1302) ∧ c.groups.contains 0x0017 = true
        ∧ c.schemes.contains 0x0403 = true ∧ c.proofOk = true ∧ c.cert = some cert ∧ certRole cert = some r
        ∧ keys.chainsTo cert = true
        ∧ ∀ n : Nat, s.maintListens = true → c.port = 5380 → s.freeSession = some n →
          ∃ t, exec (.tlsHandshake c) s = .next t
            ∧ t.maintSt n = { isOpen := true, access := Access.ofCode r, cert := certPossession cert, certId := certHash cert }
            ∧ t.tlsReply = some (.opened n suite (if keys.op = [] then Config.mfgCert else keys.op))
            ∧ (∀ m : Nat, m ≠ n → t.maintSt m = s.maintSt m) ∧ s.Steady t)
    ∧ (∀ c : Client, (s.maintListens = false ∨ c.port ≠ 5380 → exec (.tlsHandshake c) s = .next s)
      ∧ (s.maintListens = true → c.port = 5380 → (s.admitsClient c = none ∨ s.freeSession = none) →
        exec (.tlsHandshake c) s = .next { s with tlsReply := some .alert }))
    ∧ (∀ n : BitVec 2, SMap.wf (fun _ => ({} : MaintSt)) s.maint = true →
      ∃ t, exec (.sessionIdle n) s = .next t ∧ t.maintSt n.toNat = {} ∧ s.Steady t
        ∧ (∀ l : Lane, t.lane.get l = { s.lane.get l with tlsKeys := (s.lane.get l).tlsKeys.filter (· != n.toNat) })
        ∧ ∀ m : Nat, m ≠ n.toNat → t.maintSt m = s.maintSt m)

/-- A voted read of `BLK_WTOKEN` issues the next value of the page's generator in every lane (R86), and it serves once (R87).
A write that some counted lane did not hold is dropped by every lane (R92). A read of the lowest word of a group latches it
for its port until 1 ms has passed (R110), unless its block is in reset (R69); a read of `IMAGE_GEN` pins the generation (R140), one of `TALLY_WIN63` advances
the cursor (R564). -/
def Obligations.TokensGroupsAndPins : Prop :=
  ∀ (s : State) (p : Port),
    (∀ k : Blk, s.mstate ≠ .off → (pageOf (Blk.base k)).isSome = true → ∃ t, exec (.tokenIssue k p) s = .next t ∧ s.Steady t
      ∧ ∀ l : Lane, ((s.lane.get l).inReset k = true → (t.lane.get l).tokens = (s.lane.get l).tokens)
        ∧ ((s.lane.get l).inReset k = false →
          (t.lane.get l).tokenOf (Blk.base k) = some ⟨Blk.base k,
              Config.token (s.lane.get l).seed (Blk.base k) (getD 0 (s.lane.get l).gens (Blk.base k) + 1), p, (s.lane.get l).clock⟩
          ∧ ∀ v : Half, ((t.lane.get l).useToken (Blk.base k) v).tokenCheck p (Blk.base k) v ≠ 0))
    ∧ (∀ (addr : Word) (tag : Byte) (l m : Lane) (w : PendWrite), s.counting.get l = true →
      (∀ x ∈ (s.lane.get l).pend, ¬ (x.addr = addr.toNat % 0x10000000 ∧ x.port = p ∧ x.tag = tag)) →
      w ∈ (s.lane.get m).pend → w.addr = addr.toNat % 0x10000000 → w.port = p → w.tag = tag →
      ∃ t, exec (.missing addr p tag) s = .next t ∧ s.Steady t ∧ ∀ x : Lane, (t.lane.get x).pend = (s.lane.get x).pend.filter
        fun w => !decide (w.addr = addr.toNat % 0x10000000 ∧ w.port = p ∧ w.tag = tag))
    ∧ (∀ (l : Lane) (a : BitVec 28) (n : Nat), groupOf a.toNat = some (a.toNat, n) → s.mstate ≠ .off →
      ((s.lane.get l).inReset (Blk.ofOff a.toNat) = true → exec (.multiwordLatch (.lane l) a p) s
        = .next (s.refuseIn (oneLane l) p (l.code * 0x10000000 + a.toNat) Reason.inReset))
      ∧ ((s.lane.get l).inReset (Blk.ofOff a.toNat) = false → ∃ t, exec (.multiwordLatch (.lane l) a p) s = .next t ∧ s.Steady t ∧ (t.lane.get l).regs = (s.lane.get l).regs
        ∧ findHolding (t.lane.get l).holds p a.toNat (s.now + 999999) = some (s.groupWords l p (a.toNat, n))
        ∧ findHolding (t.lane.get l).holds p a.toNat (s.now + 1000000) = none)
      ∧ ∃ t, exec (.holdingCopyExpiry l a p) s = .next t ∧ s.Steady t ∧ (t.lane.get l).regs = (s.lane.get l).regs
        ∧ ∀ now : Nat, findHolding (t.lane.get l).holds p a.toNat now = none)
    ∧ (∀ l : Lane, s.mstate ≠ .off → (s.lane.get l).inReset (Blk.ofOff Reg.IMAGE_GEN) = false →
      ∃ t, exec (.pin (.lane l) p) s = .next t ∧ s.Steady t
      ∧ (s.isActive l = true → (s.lane.get l).pubGen ≠ 0 →
        (t.lane.get l).pinOf p = some { port := p, gen := (s.lane.get l).pubGen, expired := false })
      ∧ (s.mode l = .excluded ∨ s.mode l = .halted ∨ s.mode l = .resync ∨ (s.lane.get l).pubGen = 0 → t = s))
    ∧ (s.mstate ≠ .off → s.accessOf p = .view → exec (.tallyCursorAdvance .voted p) s
        = .next (s.refuseModule p Base.acc (0x30000000 + Reg.TALLY_WIN 63) Reason.role))
    ∧ (s.mstate ≠ .off → s.accessOf p ≠ .view → ∃ t, exec (.tallyCursorAdvance .voted p) s = .next t ∧ s.Steady t
      ∧ ∀ l : Lane, (s.lane.get l).wf = true → (s.lane.get l).inReset (Blk.ofOff (Reg.TALLY_WIN 63)) = false →
        ((t.lane.get l).sel p Reg.TALLY_CUR).toNat
        = (((s.lane.get l).sel p Reg.TALLY_CUR).toNat % 16384 + 1) % 16384)

/-! ### Check values, re-verification and scrubbing (R512 to R534) -/

/-- The commands of a unit that software may use, in every lane that the write reaches: START loads the initial value, folds
the prefix and clears the flags; data bytes are folded; FINAL forms the result and compares it, ABORT discards the
computation, a write of `CV_RUN_HI` loads both halves (R515, R518, R519). Data and FINAL need a computation; the units 0 to
23 are read-only (R520). -/
def Obligations.CheckValueCommands : Prop :=
  ∀ (s : State) (ap : WAper) (u : BitVec 5) (p : Port) (d : Word), 24 ≤ u.toNat → s.TakesWrite p (Blk.ofOff (Base.cv u.toNat)) →
    (∃ t, exec (.cvStart ap u p) s = .next t ∧ s.Steady t ∧ ∀ l : Lane,
      ((wLanes ap).get l = false → t.lane.get l = s.lane.get l)
      ∧ ((wLanes ap).get l = true →
        ((t.lane.get l).cvUnit u.toNat).fg.st = 1 ∧ ((t.lane.get l).cvUnit u.toNat).fg.bytes = 0
        ∧ ((t.lane.get l).cvUnit u.toNat).isMatch = false ∧ ((t.lane.get l).cvUnit u.toNat).mism = false
        ∧ ((s.lane.get l).bit (Reg.CV_CFG u.toNat) 9 = false → ((t.lane.get l).cvUnit u.toNat).fg.run = BitVec.ofNat 64
            ((s.lane.get l).pairReg (Reg.CV_INIT_LO u.toNat) (Reg.CV_INIT_HI u.toNat) % 2 ^ (s.lane.get l).cvWidth u.toNat))))
    ∧ (∀ (n : Nat) (i : Instr), (n, i) ∈ [(1, Instr.cvData8 ap u p d), (2, Instr.cvData16 ap u p d), (4, Instr.cvData32 ap u p d)] →
      ∃ t, exec i s = .next t ∧ s.Steady t ∧ ∀ l : Lane,
        ((wLanes ap).get l = false → t.lane.get l = s.lane.get l)
        ∧ ((wLanes ap).get l = true → ((s.lane.get l).cvUnit u.toNat).fg.st = 1 →
          t.lane.get l = (s.lane.get l).setCvUnit u.toNat fun c => { c with fg := { c.fg with
              run := BitVec.ofNat 64 (crcRun ((s.lane.get l).cvWidth u.toNat) ((s.lane.get l).cvPoly u.toNat)
                ((s.lane.get l).bit (Reg.CV_CFG u.toNat) 7) (c.fg.run.toNat % 2 ^ (s.lane.get l).cvWidth u.toNat) (toLe n d.toNat))
              bytes := min (c.fg.bytes + n) 0xFFFF } })
        ∧ ((wLanes ap).get l = true → ((s.lane.get l).cvUnit u.toNat).fg.st ≠ 1 →
          (t.lane.get l).cvUnit u.toNat = (s.lane.get l).cvUnit u.toNat))
    ∧ ((∀ l : Lane, (wLanes ap).get l = true → ((s.lane.get l).cvUnit u.toNat).fg.st = 1
          ∧ ((s.lane.get l).bit (Reg.CV_CFG u.toNat) 10 = true → (s.lane.get l).cvMatches u.toNat)) →
        ∃ t, exec (.cvFinal ap u p) s = .next t ∧ s.Steady t ∧ ∀ l : Lane, (wLanes ap).get l = true →
          ((t.lane.get l).cvUnit u.toNat).fg.st = 2
          ∧ ((t.lane.get l).cvUnit u.toNat).result
              = BitVec.ofNat 64 ((s.lane.get l).cvOut u.toNat ((s.lane.get l).cvUnit u.toNat).fg.run.toNat)
          ∧ ((t.lane.get l).cvUnit u.toNat).isMatch = (s.lane.get l).bit (Reg.CV_CFG u.toNat) 10
          ∧ ((t.lane.get l).cvUnit u.toNat).mism = false
          ∧ (t.lane.get l).bit (Base.cv u.toNat + 0x18) 0 = true)
    ∧ (∀ l : Lane, ap = .lane l → ((s.lane.get l).cvUnit u.toNat).fg.st = 1 → (s.lane.get l).bit (Reg.CV_CFG u.toNat) 10 = true →
        ¬ (s.lane.get l).cvMatches u.toNat →
        ∃ t, exec (.cvFinal ap u p) s = .next t ∧ t.ErrSet l (Blk.ofOff (Base.cv u.toNat)) 0)
    ∧ (∃ t, exec (.cvAbort ap u p) s = .next t ∧ s.Steady t ∧ ∀ l : Lane, (wLanes ap).get l = true →
        t.lane.get l = (s.lane.get l).setCvUnit u.toNat fun c => { c with fg := {} })
    ∧ (∃ t, exec (.cvRunLoad ap u p d) s = .next t ∧ s.Steady t ∧ ∀ l : Lane, (wLanes ap).get l = true →
        ((t.lane.get l).cvUnit u.toNat).fg.st = 1
        ∧ ((t.lane.get l).cvUnit u.toNat).fg.run = d ++ ((s.lane.get l).cvUnit u.toNat).stageLo)
    ∧ (∀ off : Nat, off ∈ [Reg.CV_CFG u.toNat, Reg.CV_POLY_LO u.toNat, Reg.CV_PREFIX u.toNat] →
      (∀ l : Lane, ((s.lane.get l).cvUnit u.toNat).fg.st = 1) →
      ∀ (token : Half) (tag : Byte), exec (.registerWrite (BitVec.ofNat 32 (0x40000000 + off)) p d token tag) s
        = .next (s.updAll fun l L => L.refuse l p (0x40000000 + off) 0x41 s.cyc.num))

/-- A byte string fed to a unit as `CV_DATA8` writes, one after another (R515). -/
def feedBytes (ap : WAper) (u : BitVec 5) (p : Port) : Bytes → State → Option State
  | [], s => some s
  | b :: bs, s => match exec (.cvData8 ap u p (b.setWidth 32)) s with
    | .next t => feedBytes ap u p bs t
    | .fault _ => none
    | .refused _ => none

/-- The check value of a byte string (R513): START without a prefix, the bytes one after another and FINAL leave the model's
check value of the string, whatever its length, in every lane that takes the writes. -/
def Obligations.CheckValueOfByteString : Prop :=
  ∀ (s : State) (ap : WAper) (u : BitVec 5) (p : Port) (bs : Bytes), 24 ≤ u.toNat → s.TakesWrite p (Blk.ofOff (Base.cv u.toNat)) →
    (∀ l : Lane, (s.lane.get l).fld (Reg.CV_CFG u.toNat) 9 2 = 0) →
    ∃ t, exec (.cvStart ap u p) s = .next t ∧ ∃ v, feedBytes ap u p bs t = some v ∧ ∃ z, exec (.cvFinal ap u p) v = .next z
      ∧ s.Steady z ∧ ∀ l : Lane, (wLanes ap).get l = true →
        ((z.lane.get l).cvUnit u.toNat).fg.st = 2
        ∧ ((z.lane.get l).cvUnit u.toNat).fg.bytes = min bs.length 0xFFFF
        ∧ let W := (s.lane.get l).cvWidth u.toNat
          let init := (s.lane.get l).pairReg (Reg.CV_INIT_LO u.toNat) (Reg.CV_INIT_HI u.toNat) % 2 ^ W
          let xor := (s.lane.get l).pairReg (Reg.CV_XOR_LO u.toNat) (Reg.CV_XOR_HI u.toNat) % 2 ^ W
          8 ≤ W → W ≤ 64 → ((z.lane.get l).cvUnit u.toNat).result
            = BitVec.ofNat 64 (crcOut W ((s.lane.get l).bit (Reg.CV_CFG u.toNat) 8) xor
                (crcRun W ((s.lane.get l).cvPoly u.toNat) ((s.lane.get l).bit (Reg.CV_CFG u.toNat) 7) init bs))

/-- After eight clocks without a foreground write a suspended background context returns (R522). Re-verification counts its
passes; a cell or a file whose value differs is reported MISMATCH_V (R524, R526, R518). A scrub pass counts the events it
met, names the latest line and reports the detector of each (R531), STUCK_BIT where it corrects a word that it has corrected in the pass
before (R533), a line when its outer check, formed over its address and its
bytes, does not fit (R530); its duration is kept when it completes (R534). -/
def Obligations.Background : Prop :=
  ∀ (s : State) (l : Lane), s.mstate ≠ .off →
    (∀ u : BitVec 5, u.toNat < 24 → ∃ t, exec (.backgroundRestore l u) s = .next t ∧ s.Steady t
      ∧ (((s.lane.get l).cvUnit u.toNat).saved = true → (t.lane.get l).cvUnit u.toNat
          = { (s.lane.get l).cvUnit u.toNat with bgHeld := true, saved := false })
      ∧ ∀ x : Lane, x ≠ l → t.lane.get x = s.lane.get x)
    ∧ (∀ (u : BitVec 4) (read : List (BitVec 4 × Word)),
      ((∀ e ∈ read, ∀ c, (s.lane.get l).cellCrc (16 * u.toNat + e.1.toNat) = some c → c = e.2) →
        exec (.bankReverify l u read) s = .next (s.upd l fun L => (L.addFld (Reg.CV_CNT u.toNat) 24 8 1).setCvUnit u.toNat fun c =>
          { c with passAt := s.now }))
      ∧ ((∃ e ∈ read, ∃ c, (s.lane.get l).cellCrc (16 * u.toNat + e.1.toNat) = some c ∧ c ≠ e.2) →
        ∃ t, exec (.bankReverify l u read) s = .next t ∧ t.ErrSet l (Blk.ofOff (Base.cv u.toNat)) 1))
    ∧ (∀ crc : Word,
      (crc = (s.lane.get l).flash.active.crc → ∃ t, exec (.fileReverify l crc) s = .next t ∧ s.Steady t
        ∧ ⟨Blk.ofOff (Base.cv 16), 1⟩ ∉ (t.lane.get l).standing)
      ∧ (crc ≠ (s.lane.get l).flash.active.crc → ∃ t, exec (.fileReverify l crc) s = .next t
        ∧ t.ErrSet l (Blk.ofOff (Base.cv 16)) 1))
    ∧ ∀ (r : BitVec 3), r.toNat < 6 →
      (∀ (m : BitVec 4) (a : BitVec 28) (w : BitVec 3) (scrub : Bool) (e : MemEvent) (b : Nat),
        (e, b) ∈ [(MemEvent.corrected m a w scrub, 3), (MemEvent.double m a, 4)] →
        ∃ t, exec (.scrubPass l r [e] none) s = .next t ∧ t.ErrSet l (Blk.ofOff (Base.cv (18 + r.toNat))) b)
      ∧ (∀ (m : BitVec 4) (a : BitVec 28) (w : BitVec 3),
        ((s.lane.get l).cvUnit (18 + r.toNat)).fixed.contains (m.toNat, a.toNat / 32 * 32, w.toNat) = true →
        ∃ t, exec (.scrubPass l r [.corrected m a w true] none) s = .next t ∧ t.ErrSet l (Blk.ofOff (Base.cv (18 + r.toNat))) 7)
      ∧ (∀ (m : BitVec 4) (a : BitVec 28) (bytes : Bytes) (check : Half),
        (outerCheck a.toNat bytes = check.toNat → exec (.scrubPass l r [.line m a bytes check] none) s = .next s)
        ∧ (outerCheck a.toNat bytes ≠ check.toNat → ∃ t, exec (.scrubPass l r [.line m a bytes check] none) s = .next t
          ∧ t.ErrSet l (Blk.ofOff (Base.cv (18 + r.toNat))) 5))
      ∧ (∀ ms : Half, (s.lane.get l).wf = true → ∃ t, exec (.scrubPass l r [] (some ms)) s = .next t ∧ s.Steady t
        ∧ (t.lane.get l).fld (Reg.MEM_SCRUB (18 + r.toNat)) 0 16 = ms.toNat
        ∧ (t.lane.get l).fld (Reg.MEM_SCRUB (18 + r.toNat)) 16 16
            = min ((s.lane.get l).fld (Reg.MEM_SCRUB (18 + r.toNat)) 16 16 + 1) 0xFFFF)

/-! ### The Booking Office (R205 to R221) -/

/-- Request records in a lane that evaluates. A SET of an idle route takes the lowest empty slot and the route is REQUESTED
(R209, R216); the same tag is answered with the slot it holds (R211); a route that cannot be set is refused with its code and
the image stands (R210). A CANCEL of a requested route frees it with outcome CANCELLED, one of an idle route or with the train
in it is refused (R214). A QUERY answers state and slot. The 65th record of a cycle is answered BUSY (R208). A SET of a route that
the file does not hold is answered UNKNOWN_ROUTE, in LINESIDE role of every route (R19; log 102, the model's choice of code).
A slot closed for four generations is EMPTY (R216). -/
def Obligations.RouteRecords : Prop :=
  ∀ (s : State) (session : BitVec 6) (r : ReqRec), s.mstate = .run ∨ s.mstate = .duty →
    (s.role = .lineside → s.routeById r.routeId.toNat = none)
    ∧ (s.routeById r.routeId.toNat = none → r.rsv = 0 → r.rsv2 = 0 → r.tag ≠ 0 →
      ∃ t, exec (.routeSet session r) s = .next t ∧ s.Steady t ∧ ∀ l : Lane, s.inStep.get l = true → (s.lane.get l).logic.decided < 64 →
        (t.lane.get l).image = (s.lane.get l).image
          ∧ (t.lane.get l).logic.answers = (s.lane.get l).logic.answers ++ [(session.toNat,
              answerRecord 1 Booking.unknownRoute r.routeId.toNat r.tag.toNat 0xFFFF 0 s.nextGen)])
    ∧ ∀ rc : RouteCfg, s.routeById r.routeId.toNat = some rc → rc.num < 16384 → r.rsv = 0 → r.rsv2 = 0 → r.tag ≠ 0 →
    (∃ t, exec (.routeSet session r) s = .next t ∧ s.Steady t ∧ ∀ l : Lane, s.inStep.get l = true →
      (s.lane.get l).logic.decided < 64 → (s.lane.get l).memWf = true →
      (rc.setBy.contains session.toNat = true →
        (s.lane.get l).tagSlot r.routeId.toNat r.tag.toNat 8 (some session.toNat) = none → (s.lane.get l).setBar rc.num = 0 →
        ∃ n : Nat, (s.lane.get l).emptySlot = some n ∧ (t.lane.get l).slotState n = 1 ∧ (t.lane.get l).routeState rc.num = 1
          ∧ (t.lane.get l).routeSlot rc.num = n
          ∧ (t.lane.get l).logic.answers = (s.lane.get l).logic.answers
              ++ [(session.toNat, answerRecord 1 0 r.routeId.toNat r.tag.toNat n 1 s.nextGen)])
      ∧ (∀ n : Nat, rc.setBy.contains session.toNat = true →
        (s.lane.get l).tagSlot r.routeId.toNat r.tag.toNat 8 (some session.toNat) = some n →
        (t.lane.get l).image = (s.lane.get l).image
          ∧ (t.lane.get l).logic.answers = (s.lane.get l).logic.answers ++ [(session.toNat,
              answerRecord 1 0 r.routeId.toNat r.tag.toNat n ((s.lane.get l).routeState rc.num) s.nextGen)])
      ∧ (∀ code : Nat, (rc.setBy.contains session.toNat = false ∧ code = Booking.notAuthorised)
          ∨ (rc.setBy.contains session.toNat = true
            ∧ (s.lane.get l).tagSlot r.routeId.toNat r.tag.toNat 8 (some session.toNat) = none
            ∧ (s.lane.get l).setBar rc.num = code ∧ code ≠ 0) →
        (t.lane.get l).image = (s.lane.get l).image
          ∧ (t.lane.get l).logic.answers = (s.lane.get l).logic.answers ++ [(session.toNat,
              answerRecord 1 code r.routeId.toNat r.tag.toNat 0xFFFF ((s.lane.get l).routeState rc.num) s.nextGen)]))
    ∧ (∃ t, exec (.routeCancel session r) s = .next t ∧ s.Steady t ∧ ∀ l : Lane, s.inStep.get l = true →
      (s.lane.get l).logic.decided < 64 → (s.lane.get l).memWf = true → rc.cancBy.contains session.toNat = true →
      (s.lane.get l).tagSlot r.routeId.toNat r.tag.toNat 12 none = none →
      ((s.lane.get l).routeState rc.num = 1 → (t.lane.get l).routeState rc.num = 0 ∧ (t.lane.get l).routeOutcome rc.num = 0x20)
      ∧ ((s.lane.get l).routeState rc.num = 0 → (t.lane.get l).image = (s.lane.get l).image
        ∧ (t.lane.get l).logic.answers = (s.lane.get l).logic.answers ++ [(session.toNat,
            answerRecord 2 Booking.notSet r.routeId.toNat r.tag.toNat 0xFFFF 0 s.nextGen)])
      ∧ ((s.lane.get l).routeState rc.num = 7 → (t.lane.get l).image = (s.lane.get l).image
        ∧ (t.lane.get l).logic.answers = (s.lane.get l).logic.answers ++ [(session.toNat,
            answerRecord 2 Booking.trainInRoute r.routeId.toNat r.tag.toNat 0xFFFF 7 s.nextGen)]))
    ∧ (∃ t, exec (.routeQuery session r) s = .next t ∧ s.Steady t ∧ ∀ l : Lane, s.inStep.get l = true →
      (t.lane.get l).image = (s.lane.get l).image
      ∧ ((s.lane.get l).logic.decided < 64 → (t.lane.get l).logic.answers = (s.lane.get l).logic.answers ++ [(session.toNat,
          answerRecord 3 0 r.routeId.toNat r.tag.toNat ((s.lane.get l).answerSlot rc.num) ((s.lane.get l).routeState rc.num) s.nextGen)])
      ∧ (64 ≤ (s.lane.get l).logic.decided → (t.lane.get l).logic.answers = (s.lane.get l).logic.answers ++ [(session.toNat,
          answerRecord 3 Booking.busy r.routeId.toNat r.tag.toNat 0xFFFF ((s.lane.get l).routeState rc.num) s.nextGen)]))
    ∧ ∀ n : BitVec 9, ∃ t, exec (.slotEmptied n) s = .next t ∧ s.Steady t ∧ ∀ l : Lane, s.inStep.get l = true →
      ((s.lane.get l).memWf = true → (s.lane.get l).slotState n.toNat = 0xF →
        4 ≤ ((s.lane.get l).logic.closedAt.lookup n.toNat).getD 0 → (t.lane.get l).slotState n.toNat = 0)
      ∧ ((s.lane.get l).slotState n.toNat ≠ 0xF → t.lane.get l = s.lane.get l)

/-! ### The Station Clock and PTP (R222 to R228, R378, R379) -/

/-- A source lost for 10 s: HOLDOVER, reported SRC_LOST; one that returns within 1 s is followed, beyond 1 s a step is left
pending (R226). PTP takes the best master of its table (R378), a Sync pair from it gives each lane its offset and the module
their median, and a Delay_Req leaves; 16 consecutive pairs within 10 µs lock it; a Delay_Resp to the latest Delay_Req gives each
lane its path delay; four Sync intervals without a pair unlock it (R379). Messages of another protocol, domain or master change
only counts and that the link has been heard. -/
def Obligations.ClockFollowsItsSource : Prop :=
  (∀ s : State, s.source ≠ 0 →
      (∀ lost : Nat, s.srcLost = some lost → lost + 10000000000 ≤ s.now → ∃ t, exec .holdover s = .next t ∧ ∀ l : Lane,
        (t.lane.get l).bit Reg.STC_STAT 1 = true ∧ (t.lane.get l).bit Reg.STC_STAT 0 = false
          ∧ (s.parts.get l = true → t.ErrSet l (Blk.ofOff Base.stc) 2))
      ∧ (s.srcLost = none ∨ (∃ lost, s.srcLost = some lost ∧ s.now < lost + 10000000000) → exec .holdover s = .next s)
      ∧ ∀ x : DWord, ∃ t, exec (.sourceReturn x) s = .next t ∧ t.srcLost = none ∧ s.Steady t ∧ ∀ l : Lane, (s.lane.get l).wf = true →
        (t.lane.get l).bit Reg.STC_STAT 1 = false 
          ∧ (t.lane.get l).reg Reg.STC_SRC = (if s.mstate = .standby then (s.lane.get l).reg Reg.STC_SRC else satInt32 x.toInt)
          ∧ ((x.toInt < -1000000000 ∨ 1000000000 < x.toInt) → (t.lane.get l).bit Reg.STC_STAT 2 = true)
          ∧ (-1000000000 ≤ x.toInt → x.toInt ≤ 1000000000 →
            (t.lane.get l).bit Reg.STC_STAT 2 = (s.lane.get l).bit Reg.STC_STAT 2))
  ∧ (∀ (s : State) (n : Net) (h : PtpHead), let u := s.netHeard n (.all true)
      (∀ (a : Announce) (i : Nat), s.takesPtp n h = true → s.masterIdx n h.master = some i →
        ((s.ptp n).master = none ∨ ∃ j, (s.ptp n).master = some j ∧ j ≠ i
          ∧ betterClock a (s.ptp n).best h.master ((s.netCfg n).masters.getD j 0) = true) →
        exec (.ptpAnnounce n h a) s = .next (u.setPtp n fun _ => { st := 2, master := some i, best := a }))
      ∧ (∀ (a : Announce) (seq : Half) (t1 : DWord) (t2 t3 : LaneVec DWord) (two : Bool) (i : Instr), s.takesPtp n h = false →
        i ∈ [Instr.ptpAnnounce n h a, .ptpSync n h seq two t1 t2, .ptpFollowUp n h seq t1, .ptpDelayResp n h seq t3 t1] →
        exec i s = .next (u.foreign n))
      ∧ (s.fromMaster n h = true → ∀ (seq : Half) (t1 : DWord) (t2 : LaneVec DWord),
        (-7 ≤ h.interval.toInt → h.interval.toInt ≤ 1 → (s.ptp n).waitFu = false →
          exec (.ptpSync n h seq true t1 t2) s = .next (u.setPtp n fun q =>
            { q with seq := seq, wait2 := LaneVec.ofFn fun l => (t2.get l).toNat, waitFu := true }))
        ∧ (∀ (i : Instr) (w : LaneVec Nat), ((i = .ptpSync n h seq false t1 t2 ∧ (s.ptp n).waitFu = false
              ∧ -7 ≤ h.interval.toInt ∧ h.interval.toInt ≤ 1 ∧ w = LaneVec.ofFn fun l => (t2.get l).toNat)
            ∨ (i = .ptpFollowUp n h seq t1 ∧ (s.ptp n).waitFu = true ∧ (s.ptp n).seq = seq ∧ w = (s.ptp n).wait2)) →
          ((s.ptp n).st ≠ 3 ∨ (s.ptp n).noResp < 4) →
          ∃ t, exec i s = .next t ∧ s.Steady t ∧ (t.ptp n).gotPair = true ∧ (t.ptp n).waitFu = false ∧ (t.ptp n).missed = 0
            ∧ (match n with | .net1 => t.said1 | .net2 => t.said2)
              = some (.delayReq (s.netCfg n).ptpV6 (s.netCfg n).domain (t.ptp n).reqSeq)
            ∧ ((s.ptp n).st ≠ 3 → t.lane = u.lane)
            ∧ ((s.ptp n).st = 3 →
              let off : LaneVec Int := LaneVec.ofFn fun l => diff64 (w.get l) t1.toNat - (s.ptp n).delay.get l
              let near : Bool := decide (-10000 ≤ agreedOffset s.measuring off ∧ agreedOffset s.measuring off ≤ 10000)
              (t.ptp n).off = off ∧ (t.ptp n).run = (if near then min 16 ((s.ptp n).run + 1) else 0)
                ∧ ((s.ptp n).run = 15 → near = true → (t.ptp n).locked = true
                  ∧ ∀ l : Lane, (t.lane.get l).bit Reg.STC_STAT 0 = true)
                ∧ (s.mstate ≠ .standby → ∀ l : Lane, (s.lane.get l).wf = true →
                  (t.lane.get l).reg Reg.STC_SRC = satInt32 (agreedOffset s.measuring off))))
        ∧ ((s.ptp n).gotPair = true → (s.ptp n).reqSeq = seq → ∀ t3 : LaneVec DWord, ∃ t, exec (.ptpDelayResp n h seq t3 t1) s = .next t
          ∧ t.lane = u.lane ∧ s.Steady t ∧ (t.ptp n).st = 3 ∧ ∀ l : Lane, (t.ptp n).delay.get l
            = (diff64 ((s.ptp n).t2.get l) (s.ptp n).t1 + diff64 t1.toNat (t3.get l).toNat) / 2))
      ∧ (s.runsPtp n = true → (s.ptp n).missed < 4 → ∃ t, exec (.ptpLost n) s = .next t ∧ (t.ptp n).locked = false ∧ (t.ptp n).run = 0
        ∧ t.srcLost.isSome = true
        ∧ ∀ l : Lane, s.parts.get l = true → t.ErrSet l (Blk.ofOff (Base.net (netIdx n))) 1)
      ∧ (s.runsPtp n = false → exec (.ptpLost n) s = .next s))

/-! ### Local field channels (R240 to R283) -/

/-- A confirmed transition becomes the filtered state and an edge with its stamp and uncertainty, or OVERFLOW where the FIFO is
full (R249, R250); a channel whose filter a test holds confirms none (R247, R255). In wire-break mode a current of 2.2 mA or more
reads ON (R252). The results of tests wait for the next input agreement step (R255, R263): an input test that one lane read
wrongly gives SENSE_LANE, two INPUT_TEST_FAIL; a switch test follows R264 and a dark pulse gives DARK_FAIL, READBACK_LOW, WIRED_TO
(R268, R269), each when it has come to its end. TEST_LATE, once a test that is not suspended is overdue (R59, R265),
and LISTEN_MISMATCH (R274) arise at once; an aborted test is
counted and queued again at the head (R266). -/
def Obligations.FieldTests : Prop :=
  ∀ (s : State) (ch : BitVec 8), (s.chanCfg ch.toNat).mode ≠ 0 → SMap.wf (fun _ => ({} : BankSt)) s.fld.bank = true →
    SMap.wf (fun _ => ({} : ChanSt)) s.fld.chan = true →
    let n := ch.toNat
    let u := s.settleTests
    (∀ (l : Lane) (r : Reading) (k : RClass) (first run : DWord) (defer : Bool), s.filterHeld n = false →
      s.classOfReading n r = some k → ∃ t, exec (.filterConfirm l ch r first run defer) s = .next t
      ∧ (chanBit (t.lane.get l).field.filt n = true ↔ k = .on)
      ∧ (∀ ua : BitVec 16, s.wireBreak n = true → r = .current ua → (k = .on ↔ 2200 ≤ ua.toNat) ∧ (k = .broken ↔ ua.toNat < 350))
      ∧ (chanBit (s.lane.get l).field.filt n = true → k = .on → (t.lane.get l).field.fifo = (s.lane.get l).field.fifo)
      ∧ (chanBit (s.lane.get l).field.filt n = false → k = .on → (s.lane.get l).field.fifo.length < 1024 →
        s.Steady t ∧ ∃ e : Edge, (t.lane.get l).field.fifo = (s.lane.get l).field.fifo ++ [e] ∧ e.ch = n ∧ e.rise = true
          ∧ e.defer = defer ∧ e.stamp = first.toNat / 100 * 100
          ∧ (chanBit (s.lane.get l).field.seeded n = true → e.unc = 0xFFFFFFFF)
          ∧ (chanBit (s.lane.get l).field.seeded n = false →
            e.unc = min ((run.toNat - first.toNat) + if defer then 20000 else 0) 0xFFFFFFFF))
      ∧ (chanBit (s.lane.get l).field.filt n = false → k = .on → 1024 ≤ (s.lane.get l).field.fifo.length →
        t.ErrSet l (Blk.ofOff Base.fs) 0))
    ∧ (∀ (l : Lane) (r : Reading) (first run : DWord) (defer : Bool), s.filterHeld n = true ∨ s.classOfReading n r = none →
      exec (.filterConfirm l ch r first run defer) s = .next s)
    ∧ (∀ r : LaneVec InReadings, s.mstate.testsInputs = true → 2 ≤ s.counting.count →
      let wrong : LaneSet := LaneVec.ofFn fun l => s.counting.get l && !s.testRead n (r.get l)
      ∃ t, exec (.inputTest ch r) s = .next t ∧ s.Steady t ∧ t.sinkOpen n = true
      ∧ (∀ l : Lane, (t.lane.get l).regs = (s.lane.get l).regs ∧ (t.lane.get l).field.filt = (s.lane.get l).field.filt)
      ∧ (wrong.count = 0 → t.fld.due = s.fld.due)
      ∧ (∀ l : Lane, wrong = oneLane l →
        t.fld.due = s.fld.due ++ [{ ch := n, code := 0x01, switch := 0, partner := 0, lanes := oneLane l }])
      ∧ (2 ≤ wrong.count → t.fld.due = s.fld.due ++ [{ ch := n, code := 0x02, switch := 0, partner := 0, lanes := wrong }]))
    ∧ (∀ (sw : BitVec 3) (r : LaneVec SwReadings), u.switchTestable n sw.toNat = true → u.turnOf n (some sw.toNat) = true →
      let x := u.voteReadings n r
      let path (v : LaneSet) : Bool := match sw.toNat / 2 with | 0 => v.a | 1 => v.b | _ => v.c
      let partner := if sw.toNat % 2 = 0 then sw.toNat + 1 else sw.toNat - 1
      let codes (e : List (Nat × Nat)) : List PendCode :=
        e.map fun c => { ch := n, code := c.1, switch := c.2, partner := 0, lanes := .all true }
      ∃ t, exec (.switchTest ch sw r) s = .next t ∧ s.Steady t ∧ t.lane = s.lane
        ∧ (u.energised n = false → x.before = .high → t.fld.due = u.fld.due ++ codes [(0x12, 2 * (sw.toNat / 2))])
        ∧ (u.energised n = false → x.before = .low → t.fld.due = u.fld.due ++ codes [(0x12, 2 * (sw.toNat / 2) + 1)])
        ∧ (u.energised n = true ∨ x.before = .mid → t.fld.due = u.fld.due
          ∧ ∃ q : RunTest, (t.bank (n / 16)).running = some q ∧ q.ch = n ∧ q.sw = some sw.toNat ∧ q.at_ = s.now
            ∧ q.on = u.energised n
            ∧ (u.energised n = false → path x.i20 = true → q.codes = codes [(0x12, partner)] ∧ q.till = s.now + 20000)
            ∧ (u.energised n = true ∨ path x.i20 = false → q.till = s.now + 45000)
            ∧ (u.energised n = false → path x.i20 = false → x.rb20 = false → x.mid45 = .mid →
              (x.mid20 = if sw.toNat % 2 = 0 then .high else .low) → q.codes = [])
            ∧ (u.energised n = false → path x.i20 = false → x.mid20 = .mid → x.mid45 = .mid → q.codes = codes [(0x11, sw.toNat)])
            ∧ (u.energised n = true → path x.i20 = true → path x.i45 = true → q.codes = codes [(0x12, sw.toNat)])))
    ∧ (∀ (rb60 rb80 : LaneSet) (follow : List FollowObs), u.darkTestable n = true → u.turnOf n none = true → 2 ≤ (u.voters n).count →
      let code (c k p : Nat) (acts : Bool) : PendCode := { ch := c, code := k, switch := 0, partner := p, lanes := .all true, acts }
      ∃ t, exec (.darkPulse ch rb60 rb80 follow) s = .next t ∧ t.lane = s.lane ∧ s.Steady t ∧ t.fld.due = u.fld.due
        ∧ ∃ q : RunTest, (t.bank (n / 16)).running = some q ∧ q.ch = n ∧ q.sw = none ∧ q.at_ = s.now ∧ q.till = s.now + 80000
          ∧ (rb60 = .all true → rb80 = .all true → follow = [] → q.codes = [code n 0x17 0 true])
          ∧ (rb60 = .all true → rb80 = .all false → follow = [] → q.codes = [code n 0x17 0 true, code n 0x13 0 true])
          ∧ (rb60 = .all false → rb80 = .all true → follow = [] → q.codes = [])
          ∧ ∀ y : FollowObs, rb60 = .all false → rb80 = .all true → follow = [y] → u.wiredTo n y = true →
            q.codes = [code n 0x18 y.ch.toNat true, code y.ch.toNat 0x18 n false])
    ∧ (∀ q : RunTest, (s.bank (n / 16)).running = some q → q.till ≤ s.now →
      (u.bank (n / 16)).running = none ∧ ∀ c ∈ q.codes, c ∈ u.fld.due)
    ∧ (∀ q : RunTest, (u.bank (n / 16)).running = some q → q.ch = n → ∃ t, exec (.testAbort ch) s = .next t ∧ s.Steady t
      ∧ t.fld.due = u.fld.due ∧ (t.bank (n / 16)).running = none
      ∧ (t.bank (n / 16)).retry = ⟨n, q.sw, false⟩ :: (s.bank (n / 16)).retry)
    ∧ (s.testsLate n = true → ∃ t, exec (.testLate ch) s = .next t ∧ 0x10 ∈ (t.chan n).codes)
    ∧ (s.testsLate n = false → exec (.testLate ch) s = .next s)
    ∧ (s.mstate = .standby → (s.chanCfg n).mode = 1 → ∃ t, exec (.listenMismatch ch) s = .next t
      ∧ 0x1A ∈ (t.chan n).codes)
    ∧ (s.mstate ≠ .standby → exec (.listenMismatch ch) s = .next s)

/-- A bank whose supply two lanes find outside its range gives every channel SUPPLY and reports it, until the supply returns
(R244). A bank current above its limit opens and latches the isolator, its outputs ISOLATED (R245, R270). An overcurrent trip
holds the ladder open for 100 ms, the third within 60 s takes it out of service, 60 s without one clear it (R260). `BANK_CLEAR`
clears the codes of the channels it names (R279) or ends the latch of the isolator, which then follows the lanes' commands
(R242, R245). -/
def Obligations.BanksAndTrips : Prop :=
  ∀ (s : State) (b : BitVec 4), SMap.wf (fun _ => ({} : ChanSt)) s.fld.chan = true → SMap.wf (fun _ => ({} : BankSt)) s.fld.bank = true →
    (∀ volts : LaneVec (BitVec 12),
      let low := s.banksVote volts fun v => decide (v < 1920)
      let high := s.banksVote volts fun v => decide (3000 < v)
      (low = false → high = false → ∃ t, exec (.supply b volts) s = .next t ∧ t.fld = s.fld ∧ s.Steady t)
      ∧ (low = true ∨ high = true → ∃ t, exec (.supply b volts) s = .next t ∧ (t.bank b.toNat).high = high
        ∧ (t.bank b.toNat).low = low
        ∧ (∀ i : Nat, i < 16 → (s.chanCfg (16 * b.toNat + i)).mode ≠ 0 → 0x05 ∈ (t.chan (16 * b.toNat + i)).codes)
        ∧ ((s.bank b.toNat).low = false → (s.bank b.toNat).high = false →
          ∀ l : Lane, s.parts.get l = true → t.ErrSet l (Blk.ofOff (Base.bank b.toNat)) 6)))
    ∧ (∀ volts : LaneVec (BitVec 12),
      let good := s.banksVote volts fun v => decide (1920 ≤ v ∧ v ≤ 3000)
      (good = true → ∃ t, exec (.supplyRestored b volts) s = .next t ∧ s.Steady t ∧ (t.bank b.toNat).low = false
        ∧ (t.bank b.toNat).high = false ∧ (t.bank b.toNat).closed = (s.bank b.toNat).closed
        ∧ ∀ n : Nat, (n / 16 = b.toNat → 0x05 ∉ (t.chan n).codes) ∧ (n / 16 ≠ b.toNat → t.chan n = s.chan n))
      ∧ (good = false → ∃ t, exec (.supplyRestored b volts) s = .next t ∧ t.fld = s.fld ∧ s.Steady t))
    ∧ (∀ ma : LaneVec (BitVec 12),
      let tooHigh := s.banksVote ma fun i => decide (1600 < i)
      ((s.bank b.toNat).closed = true → (s.bank b.toNat).latched = false → tooHigh = true → ∃ t, exec (.bankOc b ma) s = .next t
        ∧ (t.bank b.toNat).closed = false ∧ (t.bank b.toNat).latched = true
        ∧ (∀ n : Nat, n / 16 = b.toNat → s.isOutput n = true → t.energised n = false ∧ 0x1B ∈ (t.chan n).codes)
        ∧ ∀ l : Lane, s.parts.get l = true → t.ErrSet l (Blk.ofOff (Base.bank b.toNat)) 7)
      ∧ ((s.bank b.toNat).closed = false ∨ tooHigh = false → ∃ t, exec (.bankOc b ma) s = .next t ∧ t.fld = s.fld ∧ s.Steady t))
    ∧ (∀ ch : BitVec 8, s.isOutput ch.toNat = true →
      (∃ t, exec (.overcurrent ch) s = .next t ∧ t.energised ch.toNat = false
        ∧ (t.chan ch.toNat).offTill = s.now + 100000000 ∧ 0x14 ∈ (t.chan ch.toNat).codes
        ∧ (2 ≤ ((s.chan ch.toNat).trips.filter fun x => decide (s.now < x + 60000000000)).length →
          0x15 ∈ (t.chan ch.toNat).codes))
      ∧ ∃ t, exec (.overcurrentClear ch) s = .next t ∧ s.Steady t ∧ t.lane = s.lane ∧ 0x14 ∉ (t.chan ch.toNat).codes
        ∧ (t.chan ch.toNat).trips = [] ∧ ∀ n : Nat, n ≠ ch.toNat → t.chan n = s.chan n)
    ∧ (∀ (p : Port) (d : Word), s.AgreesWb p (Reg.BANK_CLEAR b.toNat) →
      (∃ t, exec (.bankClear b p d) s = .next t ∧ s.Steady t ∧ t.bank b.toNat = s.bank b.toNat
        ∧ ∀ i : Nat, i < 16 →
          (d.toNat.testBit i = true → ∀ c ∈ (t.chan (16 * b.toNat + i)).codes, codeCleared c = false)
          ∧ (d.toNat.testBit i = false → t.chan (16 * b.toNat + i) = s.chan (16 * b.toNat + i)))
      ∧ ((s.bank b.toNat).latched = true → ∃ t, exec (.bankClearIsolator b p d) s = .next t ∧ s.Steady t
        ∧ (t.bank b.toNat).latched = false
        ∧ (t.bank b.toNat).closed = decide (2 ≤ (LaneVec.ofFn fun l => (s.lane.get l).field.iso.toNat.testBit b.toNat).count)
        ∧ ∀ n : Nat, n / 16 = b.toNat → 0x1B ∉ (t.chan n).codes))

/-! ### The Platform Link (R284 to R343) -/

/-- Cold start (R319, R320): after its silence a CENTRAL node sends COLD_START at the start of its next own basic cycle, backs off on a
collision, listens again after the eighth, and is the master when none was seen; then a module that waits in SYNC is RESTART_LOCKED
(R475). COLD_START frames of another node are heard, or clash. Two reference frames of consecutive basic cycles that agree integrate a
node (R323); a second master of lower identity, outside a change of the master, sends the first back to LISTEN, and both report
MASTER_CLASH (R321). A lineside unit that loses the reference listens again and reports it (R324). -/
def Obligations.ColdStartAndIntegration : Prop :=
  ∀ s : State,
    (s.link.node = .listen → s.role = .central → s.link.seen = none → s.link.heardCold = false →
      exec .listenExpiry s = .next { s with link := { s.link with coldReady := true } })
    ∧ ((s.link.node ≠ .listen ∨ s.link.seen ≠ none ∨ s.link.heardCold = true) → exec .listenExpiry s = .next s)
    ∧ (s.link.node = .backoff → s.role = .central →
      exec .backoffExpiry s = .next { s with link := { s.link with coldReady := true } })
    ∧ (s.link.node ≠ .backoff → exec .backoffExpiry s = .next s)
    ∧ (∀ a b : SfpObs, s.link.copies = [] →
      (s.link.coldReady = true → (s.link.node = .listen ∧ s.link.seen = none ∧ s.link.heardCold = false) ∨ s.link.node = .backoff →
        ∃ t, exec (.basicCycleStart a b) s = .next t ∧ t.link.node = .coldstart ∧ t.link.clash = false ∧ t.link.coldReady = false
          ∧ s.Steady t)
      ∧ (s.link.coldReady = false → s.link.node = .listen ∨ s.link.node = .backoff →
        ∃ t, exec (.basicCycleStart a b) s = .next t ∧ t.link.node = s.link.node ∧ t.txq = s.txq ∧ s.Steady t))
    ∧ (s.link.node = .coldstart →
      (∀ bad : Bool, bad = true ∨ s.link.clash = true → ∃ t, exec (.contentionWindowEnd bad) s = .next t ∧ s.Steady t
        ∧ (s.link.collisions < 7 → t.link.node = .backoff ∧ t.link.collisions = s.link.collisions + 1)
        ∧ (7 ≤ s.link.collisions → t.link.node = .listen ∧ t.link.collisions = 0))
      ∧ (s.link.clash = false → ∃ t, exec (.contentionWindowEnd false) s = .next t ∧ t.link.node = .master
        ∧ t.link.mode = s.file.coldMode ∧ t.link.collisions = 0 ∧ t.ctl = s.ctl ∧ t.pending = s.pending
        ∧ (s.mstate = .sync → s.role = .central → s.file.paired = false → t.mstate = .restartLocked)
        ∧ (s.mstate ≠ .sync → t.drv = s.drv)))
    ∧ (s.link.node ≠ .coldstart → ∀ bad : Bool, exec (.contentionWindowEnd bad) s = .next s)
    ∧ (∀ x : LinkRx, s.role = .central → lkSrc x.bytes ≠ s.nodeId →
      s.GoodFrame x 5 none (s.isMasterId (lkSrc x.bytes) && lkDst x.bytes == 0xFFFF && lkSlot x.bytes == 0 && lkBc x.bytes == 0) →
      ∃ t, exec (.coldStart x) s = .next t
        ∧ (s.link.node = .listen → t.link.node = .listen ∧ t.link.heardCold = true ∧ s.Steady t)
        ∧ (s.link.node = .backoff → t.link.node = .listen ∧ t.link.heardCold = true ∧ s.Steady t)
        ∧ (s.link.node = .coldstart → t.link.node = .coldstart ∧ t.link.clash = true ∧ s.Steady t)
        ∧ (s.link.node = .master → s.link.next = 0 → ∀ l : Lane, s.parts.get l = true → t.ErrSet l (Blk.ofOff Base.plt) 3))
    ∧ (∀ x : LinkRx, s.role = .central → lkSrc x.bytes ≠ s.nodeId → s.GoodFrame x 1 none (s.refPlaced x) →
      ∃ t, exec (.reference x) s = .next t
        ∧ (s.link.node = .listen → s.link.seen = none →
          t.link.node = .listen ∧ t.link.seen = some (refOf x) ∧ s.Steady t)
        ∧ (∀ r : RefSeen, s.link.node = .listen → s.link.seen = some r → refAgree s r (refOf x) = true →
          t.link.node = .follow ∧ t.link.bc64 = (refOf x).bc64 ∧ t.link.mode = (refOf x).mode
            ∧ (s.mstate = .sync → s.file.paired = false → t.mstate = .restartLocked))
        ∧ (∀ r : RefSeen, s.link.node = .listen → s.link.seen = some r → refAgree s r (refOf x) = false →
          t.link.node = .listen ∧ t.link.seen = some (refOf x) ∧ s.Steady t)
        ∧ (s.link.node = .coldstart → t.link.node = .coldstart ∧ t.link.clash = true ∧ s.Steady t)
        ∧ (s.link.node = .follow → t.link.node = .follow ∧ t.link.bc64 = (refOf x).bc64 ∧ t.link.mode = (refOf x).mode ∧ s.Steady t)
        ∧ (s.link.node = .master → s.link.next = 0 → lkSrc x.bytes < s.nodeId → t.link.node = .listen
          ∧ ∀ l : Lane, s.parts.get l = true → t.ErrSet l (Blk.ofOff Base.plt) 3))
    ∧ (∀ x : LinkRx, linkSound s.file x.bytes = false →
      ∃ t, exec (.reference x) s = .next t ∧ s.Steady t ∧ t.link.node = s.link.node ∧ t.link.seen = s.link.seen)
    ∧ (s.role = .lineside → s.link.node = .integrated ∨ s.link.node = .answering → ∃ t, exec .refLost s = .next t
      ∧ t.link.node = .listen ∧ t.link.seen = none ∧ ∀ l : Lane, s.parts.get l = true → t.ErrSet l (Blk.ofOff Base.plt) 4)
    ∧ (s.role = .central ∨ s.link.node.inside = false → exec .refLost s = .next s)

/-- The master's basic cycle and slots: the next basic cycle and position, a due announcement (R317, R328); the node named in two
frames sends from then on (R321); a module in FOLLOW counts a basic cycle whose reference frame has not come (R322). A poll in the slot
of an admitted unit, an invitation in an INVITE slot (R325). A mode change is requested, announced, made at its target, and ends the
admission of units that have not acknowledged (R327, R330). A unit whose AGE has passed MAX_AGE is reported, at 255 its admission ends
(R332). -/
def Obligations.MasterSchedule : Prop :=
  ∀ s : State, s.link.copies = [] → SMap.wf (fun _ => ({} : UnitAdm)) s.adm = true →
    (∀ a b : SfpObs, s.link.litA = true → s.link.litB = true →
      (s.link.node = .master → s.link.next = 0 ∨ s.link.changeLeft ≠ 0 → s.link.coldDue = false → s.link.pending = false →
        ∃ t, exec (.basicCycleStart a b) s = .next t ∧ s.Steady t
        ∧ t.link.node = .master ∧ t.link.bc64 = (s.link.bc64 + 1) % 2 ^ 64 ∧ t.link.ttPos = (s.link.ttPos + 1) % s.ttLen
        ∧ t.link.slot = 0 ∧ t.link.litA = false ∧ t.link.litB = false
        ∧ ((s.link.announceDue = true ∧ (s.link.ttPos + 1) % s.ttLen = 0) →
          t.link.pending = true ∧ t.link.announceDue = false
            ∧ t.link.target = announceTarget ((s.link.bc64 + 1) % 2 ^ 64 % 2 ^ 32) s.ttLen))
      ∧ (s.link.node = .master → s.link.next = 0 → s.link.coldDue = true → ∃ t, exec (.basicCycleStart a b) s = .next t ∧ s.Steady t
        ∧ t.link.node = .master ∧ t.link.bc64 = 0 ∧ t.link.ttPos = 0 ∧ t.link.coldDue = false)
      ∧ (s.link.node = .master → s.link.next = 0 → s.link.coldDue = false → s.link.pending = true →
        (s.link.bc64 + 1) % 2 ^ 32 = s.link.target → ∃ t, exec (.basicCycleStart a b) s = .next t
        ∧ t.link.mode = s.link.pendMode ∧ t.link.pending = false ∧ t.link.ttPos = 0)
      ∧ (s.link.node = .master → s.link.next ≠ 0 → s.link.changeLeft = 0 → ∃ t, exec (.basicCycleStart a b) s = .next t
        ∧ t.link.node = .follow ∧ t.link.next = 0 ∧ t.link.bc64 = (s.link.bc64 + 1) % 2 ^ 64 ∧ s.Steady t)
      ∧ (s.link.node = .follow → s.link.next = s.nodeId → 2 ≤ s.link.changeLeft → s.link.pending = false →
        ∃ t, exec (.basicCycleStart a b) s = .next t ∧ t.link.node = .master ∧ t.link.next = 0 ∧ s.Steady t)
      ∧ (s.link.node = .follow → s.link.next ≠ s.nodeId → ∃ t, exec (.basicCycleStart a b) s = .next t ∧ t.link.node = .follow
        ∧ s.Steady t ∧ t.link.bc64 = (if s.refSeen then s.link.bc64 else (s.link.bc64 + 1) % 2 ^ 64))
      ∧ (s.link.node = .integrated ∨ s.link.node = .answering → ∃ t, exec (.basicCycleStart a b) s = .next t
        ∧ t.link.node = s.link.node ∧ t.link.bc64 = s.link.bc64 ∧ s.Steady t))
    ∧ (∀ n : BitVec 10, (s.link.node = .follow →
        exec (.slotStart n) s = .next { s with link := { s.link with slot := n.toNat } })
      ∧ (s.link.node ≠ .follow → s.link.node ≠ .master → exec (.slotStart n) s = .next s)
      ∧ (∀ (tt : Timetable) (e : TtEntry), s.link.node = .master → s.table = some tt → tt.entryAt n.toNat s.link.ttPos = some e →
        (e.kind = 2 → (s.unitAdm e.unit).admitted = true → s.mstate.polls = true → ∃ t, exec (.slotStart n) s = .next t ∧ s.Steady t
          ∧ t.link.slot = n.toNat ∧ t.link.polled = e.unit ∧ t.link.invited = false
          ∧ (t.unitAdm e.unit).answered = false
          ∧ ∀ l : Lane, ((t.lane.get l).session (unitSess e.unit)).seqTx
              = (((s.lane.get s.leadLane).session (unitSess e.unit)).seqTx + 1) % 2 ^ 32)
        ∧ (∀ u : Nat, e.kind = 3 → s.nextInvite = some u → ∃ t, exec (.slotStart n) s = .next t ∧ s.Steady t
          ∧ t.link.slot = n.toNat ∧ t.link.polled = u ∧ t.link.invited = true ∧ t.link.lastInv = u
          ∧ ∃ f : Bytes, t.txq = s.txq ++ [⟨.plA, f, s.txPair, none⟩, ⟨.plB, f, s.txPair, none⟩] ∧ lkType f = 2
            ∧ lkInvite f = true)))
    ∧ (∀ (p : Port) (d : Word), s.AgreesWb p Reg.PL_MODE_REQ → s.modeReqBar (fieldOf d 0 3) = 0 →
      ∃ t, exec (.plModeReq p d) s = .next t ∧ s.Steady t ∧ t.link.announceDue = true ∧ t.link.pendMode = fieldOf d 0 3
        ∧ t.link.pending = s.link.pending)
    ∧ (s.link.pending = true → s.link.node.inside = true →
      (s.link.bc64 % 2 ^ 32 = s.link.target ∨ (s.link.bc64 + 1) % 2 ^ 32 = s.link.target → ∃ t, exec .modeSwitch s = .next t
        ∧ t.link.mode = s.link.pendMode ∧ t.link.pending = false
        ∧ t.link.ttPos = (if s.link.bc64 % 2 ^ 32 = s.link.target then 0 else t.ttLen - 1)
        ∧ ∀ u : Nat, (t.unitAdm u).acked = false
          ∧ ((s.unitAdm u).admitted = true → (s.unitAdm u).acked = true → (t.unitAdm u).admitted = true)
          ∧ (s.link.node = .master → (s.unitAdm u).acked = false → (t.unitAdm u).admitted = false))
      ∧ (s.link.bc64 % 2 ^ 32 ≠ s.link.target → (s.link.bc64 + 1) % 2 ^ 32 ≠ s.link.target → exec .modeSwitch s = .next s))
    ∧ (s.link.pending = false ∨ s.link.node.inside = false → exec .modeSwitch s = .next s)
    ∧ (∀ u : BitVec 11, (∃ t, exec (.unitLost u) s = .next t
        ∧ ∀ l : Lane, s.parts.get l = true → t.ErrSet l (Blk.ofOff Base.plt) 0)
      ∧ ∃ t, exec (.admissionEnd u) s = .next t ∧ s.Steady t ∧ (t.unitAdm u.toNat).admitted = false
        ∧ (t.unitAdm u.toNat).pdA = 0xFFFF ∧ (t.unitAdm u.toNat).pdB = 0xFFFF ∧ (t.unitAdm u.toNat).valid = false
        ∧ ∀ v : Nat, v ≠ u.toNat → t.unitAdm v = s.unitAdm v)

/-- Answers at the master, in their slot and window (R305, R314): a response that a lane's session accepts is that lane's data of
the unit (R331); a MODE_ACK that names the announced mode and target is noted (R329); a join request that meets R326 admits the
unit or measures the channel of one admitted, another is reported with its reason. An answer before the window counts and changes
nothing more. At the lineside unit a poll that two lanes accept carries its command bits (R297, R313, R335), an invitation restarts the
command timeout and is answered with a join request; without a poll for the command timeout the command bits fall to 0 (R335). -/
def Obligations.LinkAnswersAndPolls : Prop :=
  ∀ (s : State) (x : LinkRx), linkSound s.file x.bytes = true → s.link.copies = [] →
    SMap.wf (fun _ => ({} : UnitAdm)) s.adm = true → (∀ l : Lane, SMap.wf (fun _ => ({} : SessSt)) (s.lane.get l).sess = true) →
    (∀ (u : Nat) (q : Nat × Nat), s.role = .central → u = s.link.polled → s.inSlot x.bytes = true → s.answerWindow x.ch = some q →
      let inside : Bool := decide (q.1 ≤ x.sAt.toNat) && decide (x.endAt.toNat ≤ q.2)
      (∀ c : UnitCfg, lkType x.bytes = 3 → s.link.invited = false → s.unitCfg u = some c →
        let verdict (l : Lane) : SessSt × Bool :=
          ((s.lane.get l).session (unitSess u)).receive (s.linkCtx (s.lane.get l) c true u) (s.lane.get l).clock (lkBody x.bytes)
        (inside = true → ∃ t, exec (.response x) s = .next t ∧ s.Steady t ∧ ∀ l : Lane, (s.linkLanes x).get l = true →
          (t.lane.get l).session (unitSess u) = (verdict l).1
          ∧ ((verdict l).2 = true → (t.lane.get l).unitRx u = unitRxOf (lkBc x.bytes) (tgPayload (lkBody x.bytes))
            ∧ (t.unitAdm u).answered = true)
          ∧ ((verdict l).2 = false → (t.lane.get l).unitRx u = (s.lane.get l).unitRx u))
        ∧ (inside = false → ∃ t, exec (.response x) s = .next t ∧ s.Steady t ∧ t.adm = s.adm
          ∧ ∀ l : Lane, (t.lane.get l).sess = (s.lane.get l).sess ∧ (t.lane.get l).units = (s.lane.get l).units))
      ∧ (s.GoodFrame x 4 (some q) true → s.link.pending = true → byteAt (lkBody x.bytes) 2 = s.link.pendMode →
        beAt (lkBody x.bytes) 4 4 = s.link.target → beAt (lkBody x.bytes) 0 2 = u →
        ∃ t, exec (.modeAck x) s = .next t ∧ s.Steady t ∧ (t.unitAdm u).acked = true)
      ∧ (∀ c : UnitCfg, s.GoodFrame x 6 (some q) true → s.unitCfg u = some c →
        let pd := (x.sAt.toNat - (s.link.pollEnd + c.tau * 1000 + 1024)) / 10
        ((s.unitAdm u).admitted = false → ∃ t, exec (.joinRequest x) s = .next t
          ∧ (s.joinBar u pd (lkBody x.bytes) = 0 → s.Steady t ∧ (t.unitAdm u).admitted = true ∧ (t.unitAdm u).pd x.ch = pd
            ∧ ∀ l : Lane, ((t.lane.get l).session (unitSess u)).st = .opening)
          ∧ (s.joinBar u pd (lkBody x.bytes) ≠ 0 → (t.unitAdm u).admitted = false
            ∧ (t.unitAdm u).reason = s.joinBar u pd (lkBody x.bytes)
            ∧ ∀ l : Lane, s.parts.get l = true → t.ErrSet l (Blk.ofOff Base.plt) 2))
        ∧ ((s.unitAdm u).admitted = true → s.link.invited = true → s.joinBar u pd (lkBody x.bytes) = 0 →
          ∃ t, exec (.joinRequest x) s = .next t ∧ s.Steady t ∧ (t.unitAdm u).admitted = true ∧ (t.unitAdm u).pd x.ch = pd)))
    ∧ (s.role = .lineside → lkType x.bytes = 2 → s.pollPlaced x = true →
      (lkInvite x.bytes = false → s.link.node = .integrated
          ∨ s.link.node = .answering ∧ ((s.lane.get s.leadLane).session ownSess).st.receives = true →
        let verdict (l : Lane) : SessSt × Bool := ((s.lane.get l).session ownSess).receive
          (s.linkCtx (s.lane.get l) s.ownUnit false (lkSrc x.bytes)) (s.lane.get l).clock (lkBody x.bytes)
        let p := tgPayload (lkBody x.bytes)
        (∃ l m : Lane, l ≠ m ∧ ∀ y : Lane, y = l ∨ y = m → (s.linkLanes x).get y = true ∧ (verdict y).2 = true) →
          ∃ t, exec (.poll x) s = .next t ∧ t.link.timedOut = false ∧ t.link.pollAt = some (s.now, lkBc x.bytes)
            ∧ t.link.cmdAck = lkBc x.bytes
            ∧ t.link.cmds = (if (byteAt p 0x20).testBit 0 then BitVec.ofNat 256 (ofLe (slice p 0 32)) else 0)
            ∧ (s.mstate = .sync → s.file.paired = false → t.mstate = .run))
      ∧ (lkInvite x.bytes = true → s.link.node = .answering → 2 ≤ (s.linkLanes x).count →
        ∃ t, exec (.poll x) s = .next t ∧ s.Steady t ∧ t.link.timedOut = false ∧ t.link.pollAt = some (s.now, lkBc x.bytes)
          ∧ t.link.admitted = false ∧ t.link.cmds = s.link.cmds
          ∧ (s.tooLate x (burstNs 52) = false → ∃ f : TxFrame, t.txq = s.txq ++ [f] ∧ f.ch = plTx x.ch ∧ lkType f.bytes = 6)))
    ∧ (s.role = .lineside → s.link.timedOut = false → s.pollExpired = true → ∃ t, exec .cmdTimeout s = .next t ∧ t.link.cmds = 0
      ∧ t.link.cmdsFrozen = 0 ∧ t.link.timedOut = true ∧ ∀ l : Lane, s.parts.get l = true → t.ErrSet l (Blk.ofOff Base.plt) 5)
    ∧ (s.role = .central ∨ s.link.timedOut = true ∨ s.pollExpired = false → exec .cmdTimeout s = .next s)

/-! ### The Tablet layer (R344 to R386, R477 to R481) -/

/-- A telegram delivered to a session is checked by each lane that received it, in its own session (R358); the lanes that accept
it take its payload: DATA replaces the session's sources (R345, R359), a ROUTE_REQUEST waits for the freeze or in a queue of
four (R208), CLOSE closes the session (R369), a CAN_DATA telegram fills its buffer's source (R382). -/
def Obligations.TelegramsTakeEffect : Prop :=
  ∀ (s : State) (g : Dgram) (c : SessCfg), s.SessWf → (∀ l : Lane, SMap.wf (fun _ => (0 : BitVec 512)) (s.lane.get l).rx = true) →
    (s.Delivers g c →
      (tgType g.bytes = Tg.data → c.num < 64 → ∃ t, exec (.data g) s = .next t ∧ s.Steady t ∧ ∀ l : Lane,
        ((s.checking g.lanes).get l = true → (t.lane.get l).session c.num = (s.tgVerdict g c l).1
          ∧ ((s.tgVerdict g c l).2 = true → ∀ i : Nat, i < 32 → SMap.get (fun _ => 0) (t.lane.get l).rx (0x1000 + 32 * c.num + i)
              = BitVec.ofNat 512 (ofLe (slice (tgPayload g.bytes) (32 * i) 32)))
          ∧ ((s.tgVerdict g c l).2 = false → (t.lane.get l).rx = (s.lane.get l).rx))
        ∧ ((s.checking g.lanes).get l = false → (t.lane.get l).sess = (s.lane.get l).sess ∧ (t.lane.get l).rx = (s.lane.get l).rx))
      ∧ (tgType g.bytes = Tg.routeRequest → ∃ t, exec (.routeRequest g) s = .next t ∧ s.Steady t ∧ ∀ l : Lane,
        (s.checking g.lanes).get l = true → (s.tgVerdict g c l).2 = true →
          (t.lane.get l).session c.num =
            (if (s.tgVerdict g c l).1.waiting.isEmpty ∧ (s.tgVerdict g c l).1.nextReq.isNone then
              { (s.tgVerdict g c l).1 with nextReq := some (tgPayload g.bytes) }
            else if (s.tgVerdict g c l).1.waiting.length < 4 then
              { (s.tgVerdict g c l).1 with waiting := (s.tgVerdict g c l).1.waiting ++ [tgPayload g.bytes] }
            else (s.tgVerdict g c l).1))
      ∧ (tgType g.bytes = Tg.close → c.cat = 3 → ((s.lane.get s.leadLane).session c.num).st.receives = true →
        ∃ t, exec (.close g) s = .next t ∧ s.Steady t ∧ ∀ l : Lane, (s.checking g.lanes).get l = true →
          (s.tgVerdict g c l).2 = true → ((t.lane.get l).session c.num).st = .closed))
    ∧ (s.netSession g = none → ∀ i ∈ [Instr.data g, .routeRequest g, .close g], ∃ t, exec i s = .next t ∧ s.Steady t
      ∧ ∀ l : Lane, (t.lane.get l).sess = (s.lane.get l).sess ∧ (t.lane.get l).rx = (s.lane.get l).rx)
    ∧ ∀ (cb : BitVec 2) (b : BitVec 6) (bytes : Bytes) (lanes : LaneSet) (k : CanBufCfg), s.canBufCfg cb.toNat b.toNat = some k →
      k.tablet = true → k.dir = 1 → s.canNormal cb.toNat = true → (s.canPt cb.toNat).busOff = false → bytes.length = 64 →
      ∃ t, exec (.canData cb b bytes lanes) s = .next t ∧ s.Steady t ∧ ∀ l : Lane, (s.checking lanes).get l = true →
        let v := ((s.lane.get l).session (canSess cb.toNat b.toNat)).receive (canCtx s k) (s.lane.get l).clock
          (bytes.take (32 + tgLen bytes + 8))
        (t.lane.get l).session (canSess cb.toNat b.toNat) = v.1
          ∧ (v.2 = true → SMap.get (fun _ => 0) (t.lane.get l).rx (0x2000 + 128 * cb.toNat + 2 * b.toNat)
              = BitVec.ofNat 512 (ofLe (slice (slice (tgPayload bytes) 0 24) 0 32)))
          ∧ (v.2 = false → (t.lane.get l).rx = (s.lane.get l).rx)

/-- The handshake of category 3 (R365 to R371), each lane by its own checks (R368). HS_HELLO with a certificate that passes in both
lanes of the pair opens a handshake in the lanes where it passes and is answered with the responder's nonce, key and signature, one
that fails in both closes the session. HS_KEY at the initiator that waits for it, HS_FINISH at the responder that waits for it make
the keys of the handshake in each lane where their checks hold: the responder's stand at once, the initiator's when HS_FINISH leaves
(R370). A time-out of 1 s counts a failure: the initiator sends HS_HELLO again, the responder discards the handshake (R369). A renewal
runs at the initiator of an open session whose keys are worn; the old epoch ends 1 s after the switch; a session at its limit is
closed, reported and opened again (R371). -/
def Obligations.HandshakesInstallKeys : Prop :=
  ∀ (s : State) (g : Dgram) (c : SessCfg) (nonce : BitVec 256), s.SessWf → c.num < 64 → s.sessCfg c.num = some c →
    s.formed.count c.num < 4 →
    let S := (s.lane.get s.leadLane).session c.num
    let clock := (s.lane.get s.leadLane).clock
    let p := tgPayload g.bytes
    let ls := s.checking g.lanes
    let T (l : Lane) : SessSt := (s.lane.get l).session c.num
    let undatedIsNote : Prop := s.datesCerts = true ∨ s.classOf (Blk.ofOff Base.tb) 3 = .note
    (s.HsArrives g c Tg.hsHello → helloOk p 100 = true → tgEpoch g.bytes = 0 → (∀ l : Lane, (T l).st.receives = false) →
      let good (l : Lane) : Bool := (s.lane.get l).certFinds (s.lane.get l).keys s.datesCerts c.peer (helloCert p)
      (s.BothOfPair (fun x => ls.get x = true ∧ good x = true) → ∃ t, exec (.hsHello g nonce) s = .next t ∧ ∀ l : Lane,
        (ls.get l = true → good l = true →
          ((t.lane.get l).session c.num).hs = .finishDue ∧ ((t.lane.get l).session c.num).st = .handshake
          ∧ ((t.lane.get l).session c.num).hello = p ∧ ((t.lane.get l).session c.num).newEpoch = 0
          ∧ ((t.lane.get l).session c.num).key = s.helloPayload nonce ++ moduleSign (p ++ s.helloPayload nonce))
        ∧ (ls.get l = false ∨ good l = false → ((t.lane.get l).session c.num).hs = (T l).hs))
      ∧ (s.BothOfPair (fun x => ls.get x = true ∧ good x = false) → ∃ t, exec (.hsHello g nonce) s = .next t ∧ ∀ l : Lane,
        ((t.lane.get l).session c.num).st = .closed ∧ ((t.lane.get l).session c.num).fails = S.fails + 1))
    ∧ (s.HsArrives g c Tg.hsKey → helloOk p 164 = true → (∀ l : Lane, (T l).renew = false) →
      let due (l : Lane) : Prop := ls.get l = true ∧ (T l).hs = .helloSent ∧ tgEpoch g.bytes = (T l).newEpoch
      let find (l : Lane) : Nat := (s.lane.get l).keyFinds c s.datesCerts p
      let k (l : Lane) : SessKeys := (T l).derive p (T l).hello p (s.sessIdent c) c.peer
      (s.BothOfPair (fun x => due x ∧ find x = 0) → s.hasStandby = false → s.beforeRelease = false → undatedIsNote →
        s.pairTime.isSome = true → ∃ t, exec (.hsKey g) s = .next t ∧ s.Steady t ∧ ∀ l : Lane, due l → find l = 0 →
        ((t.lane.get l).session c.num).st = .opening ∧ ((t.lane.get l).session c.num).epoch = (T l).newEpoch
          ∧ ((t.lane.get l).session c.num).keyTx = (k l).keyTx ∧ ((t.lane.get l).session c.num).keyRx = (k l).keyRx)
      ∧ (s.BothOfPair (fun x => due x ∧ find x = 0) → s.hasStandby = true ∨ s.beforeRelease = true → undatedIsNote →
        ∃ t, exec (.hsKey g) s = .next t ∧ s.Steady t ∧ ∀ l : Lane, due l → find l = 0 →
        ((t.lane.get l).session c.num).newKeys = some (k l) ∧ ((t.lane.get l).session c.num).hs = .none
          ∧ ((t.lane.get l).session c.num).keyTx = (T l).keyTx)
      ∧ (∀ r : Nat, r ≠ 0 → s.BothOfPair (fun x => due x ∧ find x = r) → ∃ t, exec (.hsKey g) s = .next t ∧ ∀ l : Lane,
        ((t.lane.get l).session c.num).st = .closed))
    ∧ (s.HsArrives g c Tg.hsFinish → (∀ l : Lane, (T l).renew = false) →
      let due (l : Lane) : Prop := ls.get l = true ∧ (T l).hs = .finishDue
      let good (l : Lane) : Bool := signedBy (helloCert (T l).hello) ((T l).hello ++ (T l).key) p
      let k (l : Lane) : SessKeys := (T l).derive (T l).hello (T l).hello (T l).key c.peer (s.sessIdent c)
      (s.BothOfPair (fun x => due x ∧ good x = true) → ∃ t, exec (.hsFinish g) s = .next t ∧ s.Steady t
        ∧ ∀ l : Lane, due l → good l = true → ((t.lane.get l).session c.num).st = .opening
          ∧ ((t.lane.get l).session c.num).keyTx = (k l).keyRx ∧ ((t.lane.get l).session c.num).keyRx = (k l).keyTx)
      ∧ (s.BothOfPair (fun x => due x ∧ good x = false) → ∃ t, exec (.hsFinish g) s = .next t ∧ ∀ l : Lane,
        ((t.lane.get l).session c.num).st = .closed))
    ∧ (∀ m : BitVec 6, m.toNat = c.num →
      (c.cat = 3 → c.initiator = true → s.sending c = true → S.hs = .helloSent → S.st = .handshake → S.newKeys = none →
        S.renew = false →
        (S.fails < 4 → S.hsAt + 1000000000 ≤ clock →
          ∃ t, exec (.hsKeyTimeout m nonce) s = .next t ∧ s.Steady t ∧ ∀ l : Lane, ((t.lane.get l).session c.num).hs = .helloSent
            ∧ ((t.lane.get l).session c.num).st = .handshake ∧ ((t.lane.get l).session c.num).fails = S.fails + 1
            ∧ ((t.lane.get l).session c.num).nonce = nonce)
        ∧ (clock < S.hsAt + 1000000000 → exec (.hsKeyTimeout m nonce) s = .next s))
      ∧ (s.sending c = true → S.hs = .finishDue → S.st = .handshake → S.fails ≠ 4 → S.hsAt + 1000000000 ≤ clock →
        ∃ t, exec (.hsFinishTimeout m) s = .next t ∧ s.Steady t
        ∧ ((t.lane.get s.leadLane).session c.num).st = .closed
        ∧ ∀ l : Lane, ((t.lane.get l).session c.num).hs = .none ∧ ((t.lane.get l).session c.num).fails = S.fails + 1)
      ∧ (S.hs ≠ .finishDue ∨ clock < S.hsAt + 1000000000 → exec (.hsFinishTimeout m) s = .next s)
      ∧ (c.cat = 3 → c.initiator = true → s.sending c = true → (∀ l : Lane, (T l).st = .opened) → S.keyWorn clock 86400000000000 (2 ^ 32 - 2 ^ 24) = true →
        ∃ t, exec (.keyRenewal m nonce) s = .next t ∧ s.Steady t ∧ ∀ l : Lane,
        ((t.lane.get l).session c.num).st = .renewing ∧ ((t.lane.get l).session c.num).newEpoch = ((T l).epoch + 1) % 256
          ∧ ((t.lane.get l).session c.num).hs = .helloSent)
      ∧ (S.st ≠ .opened ∨ S.keyWorn clock 86400000000000 (2 ^ 32 - 2 ^ 24) = false → exec (.keyRenewal m nonce) s = .next s)
      ∧ (∃ t, exec (.epochOverlapEnd m) s = .next t ∧ s.Steady t ∧ ∀ l : Lane,
        (t.lane.get l).session c.num =
          (if ((s.lane.get l).session c.num).keyAt + 1000000000 ≤ (s.lane.get l).clock then
            { (s.lane.get l).session c.num with oldEpoch := none, oldKeyRx := 0, oldSaltRx := 0 }
          else (s.lane.get l).session c.num))
      ∧ (c.cat = 3 → s.sending c = true → S.st.receives = true → S.keyWorn clock 86460000000000 (2 ^ 32 - 1) = true →
        ∃ t, exec (.keyLimit m) s = .next t ∧ ∀ l : Lane,
        ((t.lane.get l).session c.num).st.receives = false
          ∧ (s.parts.get l = true → t.ErrSet l (Blk.ofOff Base.tb) 2))
      ∧ (S.keyWorn clock 86460000000000 (2 ^ 32 - 1) = false → exec (.keyLimit m) s = .next s))

/-- An open session in which nothing is accepted for 4 × T_EXP returns to OPENING and is reported (R360). `TB_CTRL` reopens a session or renews
its keys (R383, R370). `KS_LOAD` installs the staged object that passes R364 in every lane that counts, or erases it, in every lane (R385). -/
def Obligations.SessionsAndKeyStore : Prop :=
  ∀ (s : State) (p : Port) (d : Word), s.SessWf →
    (∀ n : BitVec 6, let S := (s.lane.get s.leadLane).session n.toNat
      (∀ c : SessCfg, s.sessCfg n.toNat = some c → s.receiving c = true → S.st = .opened ∨ S.st = .renewing →
        S.accAt + 4 * (c.tExp * 1000) * 1000 ≤ (s.lane.get s.leadLane).clock → ∃ t, exec (.sessionLost n) s = .next t ∧ ∀ l : Lane,
        ((t.lane.get l).session n.toNat).st = .opening ∧ ((t.lane.get l).session n.toNat).heard = false
          ∧ (s.parts.get l = true → t.ErrSet l (Blk.ofOff Base.tb) 1))
      ∧ (∀ c : SessCfg, s.sessCfg n.toNat = some c → (s.receiving c = false ∨ S.st ≠ .opened ∧ S.st ≠ .renewing
          ∨ (s.lane.get s.leadLane).clock < S.accAt + 4 * (c.tExp * 1000) * 1000) → exec (.sessionLost n) s = .next s))
    ∧ (∀ c : SessCfg, s.AgreesWb p Reg.TB_CTRL → s.sessCfg (fieldOf d 0 6) = some c → s.sending c = true → c.cat ≠ 0 →
      (∃ t, exec (.tbReopen p d) s = .next t ∧ s.Steady t ∧ ∀ l : Lane,
        (c.cat ≠ 3 → ((t.lane.get l).session c.num).st = .opening ∧ ((t.lane.get l).session c.num).seqTx = 0
          ∧ ((t.lane.get l).session c.num).heard = false)
        ∧ (c.cat = 3 → c.initiator = true → ((t.lane.get l).session c.num).st = .handshake
          ∧ ((t.lane.get l).session c.num).hs = .helloSent)
        ∧ (c.cat = 3 → c.initiator = false → ((t.lane.get l).session c.num).st = .closed))
      ∧ (∀ nonce : BitVec 256, c.cat = 3 → c.initiator = true → (∀ l : Lane, ((s.lane.get l).session c.num).st = .opened) →
        ∃ t, exec (.tbRenew p d nonce) s = .next t ∧ s.Steady t ∧ ∀ l : Lane,
          ((t.lane.get l).session c.num).st = .renewing ∧ ((t.lane.get l).session c.num).nonce = nonce
            ∧ ((t.lane.get l).session c.num).newEpoch = (((s.lane.get l).session c.num).epoch + 1) % 256))
    ∧ (s.AgreesWb p Reg.KS_LOAD →
      (s.ksBar (setField d 16 1 0) = 0 → ∃ t, exec (.ksLoad p d) s = .next t ∧ s.Steady t ∧ ∀ l : Lane,
        s.parts.get l = true → (t.lane.get l).keys = (s.lane.get l).keys.put (fieldOf d 0 4) ((s.lane.get l).staged (fieldOf d 4 12)))
      ∧ (s.ksBar (setField d 16 1 1) = 0 → ∃ t, exec (.ksErase p d) s = .next t ∧ s.Steady t ∧ ∀ l : Lane,
        s.parts.get l = true → (t.lane.get l).keys = (s.lane.get l).keys.put (fieldOf d 0 4) []))

/-- A RESTART_AUTH telegram that two lanes accept waits for input agreement (R122, R479); there it is decided: an accepted PREPARE
is held with its challenge, an accepted CONFIRM restarts at the next cycle, a refused one changes neither (R480). -/
def Obligations.RestartAuthorisation : Prop :=
  ∀ (s : State) (g : Dgram) (c : SessCfg) (draw : Half),
    (s.Delivers g c → tgType g.bytes = Tg.restartAuth →
      (∃ l m : Lane, l ≠ m ∧ ∀ x : Lane, x = l ∨ x = m → (s.checking g.lanes).get x = true ∧ (s.tgVerdict g c x).2 = true) →
      (byteAt (tgPayload g.bytes) 0 ≠ 2 → ∃ t, exec (.prepare g draw) s = .next t ∧ s.Steady t ∧ t.prepare = s.prepare
        ∧ t.auths = s.auths ++ [{ session := c.num, payload := tgPayload g.bytes, draw := draw }])
      ∧ (byteAt (tgPayload g.bytes) 0 = 2 → ∃ t, exec (.confirm g) s = .next t ∧ s.Steady t ∧ t.confirmed = s.confirmed
        ∧ ∃ x : Half, t.auths = s.auths ++ [{ session := c.num, payload := tgPayload g.bytes, draw := x }]))
    ∧ (s.netSession g = none → ∀ i ∈ [Instr.prepare g draw, .confirm g], ∃ t, exec i s = .next t ∧ s.Steady t ∧ t.auths = s.auths)
    ∧ ∀ b : Bytes,
      (s.authResult c b = 0 → byteAt b 0 = 1 → (s.authDecide c b draw).confirmed = s.confirmed
        ∧ ∃ q : Prepare, (s.authDecide c b draw).prepare = some q ∧ q.session = c.num ∧ q.tag = beAt b 4 4 ∧ q.gen = s.nextGen
          ∧ q.at_ = s.now ∧ q.challenge = (if draw = 0 then 1 else draw.toNat))
      ∧ (s.authResult c b = 0 → byteAt b 0 = 2 → (s.authDecide c b draw).confirmed = true ∧ s.mstate = .restartLocked
        ∧ ∃ q : Prepare, s.prepare = some q ∧ q.session = c.num ∧ q.tag = beAt b 4 4 ∧ q.challenge = beAt b 2 2
          ∧ s.now ≤ q.at_ + 30000000000)
      ∧ (s.authResult c b ≠ 0 → (s.authDecide c b draw).prepare = s.prepare ∧ (s.authDecide c b draw).confirmed = s.confirmed)

/-! ### Duty and standby (R387 to R413) -/

/-- A heartbeat tells what the peer is; a holder whose standby is no longer synchronised sends what it holds (R147, R391). A loss is
declared by two of the lanes in the vote (R399): a standby that loses the heartbeat reports it and is synchronised no longer, or, with
PEER_LIVE stopped as well, claims the role once the duty token stands still (R399 to R401). The claim window: an edge withdraws the
claim of the secondary, silence gives it the role (R401, R402, R404), in a planned handover unless it has fallen to 2-out-of-2
operation (R57, R410); the primary extends it once. A module in SYNC that hears no peer claims after 2 s (R392). Mirrors carry the
peer's commands (R393); without lane XH, or with one twin lane left, a standby is synchronised no longer (R396). -/
def Obligations.PeerLossAndClaims : Prop :=
  ∀ s : State,
    (∀ (h : Beat) (live tok : Bool), (s.mstate = .safe ∨ s.mstate = .off → exec (.heartbeat h live tok) s = .next s)
      ∧ (s.mstate ≠ .off → s.mstate ≠ .safe → s.mstate ≠ .sync → ∃ t, exec (.heartbeat h live tok) s = .next t
        ∧ t.xo.hb = true ∧ t.xo.peer = some h
        ∧ (s.deg.expired = false → s.Steady t ∧ t.chg.peer = h.chg ∧ t.xo.role = s.xo.role
          ∧ t.xo.peerLive = (live || s.xo.peerLive) ∧ t.xo.peerTok = (tok || s.xo.peerTok))
        ∧ (s.hasStandby = true → h.sync ≠ 2 → t.held = [])))
    ∧ (∀ by_ : LaneSet,
      let lost := orLanes s.xo.hbLost by_
      let both : LaneSet := LaneVec.ofFn fun l => lost.get l && s.xo.liveLost.get l
      (s.gateOf lost = false → exec (.xoLink by_) s = .next { s with xo := { s.xo with hbLost := lost } })
      ∧ (s.gateOf lost = true → ∃ t, exec (.xoLink by_) s = .next t ∧ t.xo.hb = false
        ∧ (s.mstate = .standby → s.gateOf both = false → t.xo.sync ≠ .synced
          ∧ ∀ l : Lane, s.parts.get l = true → t.ErrSet l (Blk.ofOff Base.xo) 0)
        ∧ (s.mstate = .standby → s.xo.role = .standby → s.gateOf both = true →
          (s.xo.peerTok = false → t.xo.role = .claiming ∧ t.xo.claimAt = some s.now ∧ s.Steady t)
          ∧ (s.xo.peerTok = true → t.xo.role = .standby ∧ t.xo.lossClaim = true ∧ s.Steady t))
        ∧ (s.hasStandby = true → s.mstate ≠ .standby → t.held = [] ∧ s.Steady t)))
    ∧ (∀ by_ : LaneSet,
      let lost := orLanes s.xo.liveLost by_
      let both : LaneSet := LaneVec.ofFn fun l => s.xo.hbLost.get l && lost.get l
      (s.gateOf lost = false → exec (.peerLive by_) s = .next { s with xo := { s.xo with liveLost := lost } })
      ∧ (s.gateOf lost = true → ∃ t, exec (.peerLive by_) s = .next t ∧ t.xo.peerLive = false
        ∧ (s.mstate = .standby → s.gateOf both = false → ∀ l : Lane, s.parts.get l = true → t.ErrSet l (Blk.ofOff Base.xo) 1)
        ∧ (s.mstate = .standby → s.xo.role = .standby → s.gateOf both = true → s.xo.peerTok = false →
          t.xo.role = .claiming ∧ t.xo.claimAt = some s.now ∧ s.Steady t)
        ∧ (s.mstate ≠ .standby → s.Steady t)))
    ∧ (∃ t, exec .dutyTokStill s = .next t ∧ t.xo.peerTok = false
      ∧ (s.mstate = .standby → s.xo.role = .standby → (s.xo.hoTaken = true ∧ s.twoOfTwo = false) ∨ s.xo.lossClaim = true →
        t.xo.role = .claiming ∧ t.xo.claimAt = some s.now ∧ s.Steady t)
      ∧ (s.mstate = .standby → s.xo.hoTaken = false ∨ s.twoOfTwo = true → s.xo.lossClaim = false → t.xo.role = s.xo.role))
    ∧ (∀ (e x y : Bool) (a : Nat), s.mstate = .standby → s.xo.claimAt = some a →
      let ends := a + (if s.xo.extended then 10000 else 5000)
      (s.now < ends → exec (.claimWindowEnd e x y) s = .next s)
      ∧ (ends ≤ s.now →
        let wins : Bool := if s.pref then (if s.xo.extended then y else x) else !e
        (s.pref = false → e = true → ∃ t, exec (.claimWindowEnd e x y) s = .next t ∧ t.xo.role = .standby ∧ t.xo.claimAt = none
          ∧ t.xo.peerTok = true ∧ s.Steady t)
        ∧ (wins = true → s.xo.hoTaken = false → s.xo.lossClaim = true → s.xo.synced0 = true →
          ∃ t, exec (.claimWindowEnd e x y) s = .next t ∧ t.xo.role = .holder ∧ t.xo.claimAt = none ∧ t.xo.takeover = true
            ∧ t.mstate = s.copiedState ∧ t.ctl = s.ctl ∧ t.gate = s.gate)
        ∧ (wins = true → s.xo.hoTaken = false → s.xo.lossClaim = true → s.xo.synced0 = false →
          s.classOf (Blk.ofOff Base.xo) 6 = .note →
          ∃ t, exec (.claimWindowEnd e x y) s = .next t ∧ t.xo.role = .holder ∧ t.xo.claimAt = none
            ∧ (s.role = .central → t.mstate = .restartLocked ∧ t.gen = 0 ∧ t.areas = 0 ∧ t.runId ≠ 0)
            ∧ (s.role = .lineside → t.mstate = .standby ∧ t.link.cmds = 0))
        ∧ (wins = true → s.xo.hoTaken = true →
          (s.twoOfTwo = false → ∃ t, exec (.claimWindowEnd e x y) s = .next t ∧ t.xo.role = .holder ∧ t.xo.hoTaken = false
            ∧ t.xo.takeover = s.xo.takeover ∧ t.mstate = s.copiedState ∧ t.ctl = s.ctl)
          ∧ (s.twoOfTwo = true → ∃ t, exec (.claimWindowEnd e x y) s = .next t ∧ t.xo.role = .standby ∧ t.xo.claimAt = none
            ∧ s.Steady t))
        ∧ (s.pref = true → s.xo.extended = false → x = false →
          exec (.claimWindowEnd e x y) s = .next { s with xo := { s.xo with extended := true } })
        ∧ (s.pref = true → s.xo.extended = true → y = false → ∃ t, exec (.claimWindowEnd e x y) s = .next t ∧ t.xo.claimAt = none
          ∧ t.xo.peerTok = true ∧ ∀ l : Lane, s.parts.get l = true → t.ErrSet l (Blk.ofOff Base.xo) 4)))
    ∧ (s.xo.claimAt = none → s.mstate ≠ .sync → ∀ e x y : Bool, exec (.claimWindowEnd e x y) s = .next s)
    ∧ (s.xo.claimAt = none → s.mstate = .sync → s.file.paired = true → s.xo.role = .none → s.xo.peerTok = false → s.xo.hb = false →
      ∀ e x y : Bool, (s.xo.syncAt + 2000000000 ≤ s.now → ∃ t, exec (.claimWindowEnd e x y) s = .next t ∧ t.xo.role = .claiming
          ∧ t.xo.claimAt = some s.now ∧ s.Steady t)
        ∧ (s.now < s.xo.syncAt + 2000000000 → exec (.claimWindowEnd e x y) s = .next s))
    ∧ (∀ m : Mirror, (s.mstate ≠ .standby → exec (.mirror m) s = .next s)
      ∧ (s.mstate = .standby → ∃ t, exec (.mirror m) s = .next t ∧ s.Steady t ∧ t.lane = s.lane
        ∧ (m.link = false → t.xo = { s.xo with mirror := s.xo.mirror.set m.lane (getD 0 m.cmds 0) })
        ∧ (m.link = true →
          t.xo = { s.xo with mirrorLink := s.xo.mirrorLink.set m.lane (SMap.puts (fun _ => 0) [] m.cmds) })))
    ∧ ∀ p : XoPort, ∃ t, exec (.crossoverLaneFailure p) s = .next t ∧ t.xo.linkUp = p.up
      ∧ (2 ≤ p.up.count → p.xh = true → s.Steady t ∧ t.lane = s.lane)
      ∧ (p.up.count ≤ 1 ∨ p.xh = false → s.mstate = .standby → t.xo.sync ≠ .synced
        ∧ ∀ l : Lane, s.parts.get l = true → t.ErrSet l (Blk.ofOff Base.xo) 0)
      ∧ (p.up.count ≤ 1 ∨ p.xh = false → s.mstate ≠ .standby → s.Steady t ∧ (s.hasStandby = true → t.held = []))

/-- A copy that a standby receives is its next image, cells, numbers and areas; when every ACTIVE lane finds the carried digests
the generation is confirmed (R394 to R397). A confirmation releases what waited for it (R145, R146). The handover: written, refused
with its reason, offered, handed over once the last generation is confirmed, ended with the old ladders open (R409, R410); at the
limit of 2-out-of-2 operation the old holder then enters SAFE (R55). It starts by itself on a revertive return (R412) and a role
swap, which is reported while it cannot and is overdue until it is made (R413). -/
def Obligations.CopiesAndHandover : Prop :=
  ∀ s : State,
    (∀ c : LaneVec CopyData, (s.mstate ≠ .standby → exec (.stateCopy c) s = .next s)
      ∧ (s.mstate = .standby → s.xo.sync ≠ .synced → s.lead.isSome = true →
        s.xo.gen = 0 ∨ (c.get s.leadLane).gen.toNat = s.xo.gen + 1 →
        let next (l : Lane) : List Host.Cell := (c.get l).image.foldl (fun m e => memPut m e.1 e.2)
          ((s.lane.get l).image.published.filter fun e => !((c.get l).pages.map fun p => p.toNat).contains (e.1 / 4096))
        BitVec.ofNat 32 (memLe (next s.leadLane) 0x1C 4) = s.fileDigest →
        (memLe (next s.leadLane) 0x18 4).testBit 10 = ((s.lane.get s.leadLane).logic.bank == 1) → ∃ t, exec (.stateCopy c) s = .next t
        ∧ t.gen = (c.get s.leadLane).gen.toNat ∧ t.runId = (c.get s.leadLane).runId ∧ t.areas = (c.get s.leadLane).areas
        ∧ t.cyc.num = (c.get s.leadLane).cycle.toNat
        ∧ (∀ l : Lane, s.parts.get l = true → (t.lane.get l).image.published = next l)
        ∧ ((∀ l : Lane, s.isActive l = true → (t.lane.get l).copyAgrees (c.get l) = true) → t.drv = s.drv ∧ t.pending = s.pending
          ∧ (∀ l : Lane, s.mode l ≠ .resync → t.ctl.get l = s.ctl.get l)
          ∧ t.xo.gen = (c.get s.leadLane).gen.toNat
          ∧ t.xo.pagesGen = (if copyPages ≤ t.xo.pages.length then min 2 (s.xo.pagesGen + 1) else 0)
          ∧ (copyPages ≤ t.xo.pages.length → t.xo.out.conf = some (c.get s.leadLane).gen)
          ∧ (s.xo.sync = .catchup → 1 ≤ s.xo.pagesGen → copyPages ≤ t.xo.pages.length → t.xo.sync = .synced))))
    ∧ (∀ g : DWord, (s.xo.role = .holder ∨ s.xo.role = .handing → ∃ t, exec (.confirmation g) s = .next t ∧ s.Steady t
        ∧ t.xo.gen = max s.xo.gen g.toNat
        ∧ (∀ a b n, HeldItem.done a b n ∈ t.held → g.toNat < a ∧ HeldItem.done a b n ∈ s.held)
        ∧ (s.xo.hoPaused = true → s.xo.hoCycle.isSome = true → g.toNat = s.gen → t.xo.hoConf = true)
        ∧ ∀ a b n, HeldItem.done a b n ∈ s.held → g.toNat < a → HeldItem.done a b n ∈ t.held)
      ∧ (s.xo.role ≠ .holder → s.xo.role ≠ .handing → exec (.confirmation g) s = .next s))
    ∧ (∀ (p : Port) (d : Word), s.AgreesWb p Reg.XO_CTRL → d.toNat.testBit 0 = true →
      (s.handoverBar = none → ∃ t, exec (.handover p d) s = .next t ∧ s.Steady t ∧ t.xo.hoCycle = some (s.cyc.num + 1)
        ∧ t.xo.out.offer = some (BitVec.ofNat 64 (s.cyc.num + 1)) ∧ t.xo.role = .holder)
      ∧ ∀ r : Nat, s.handoverBar = some r →
        exec (.handover p d) s = .next (s.refuseIn s.parts p (0x40000000 + Reg.XO_CTRL) r))
    ∧ (∀ c : DWord, (s.mstate = .standby → s.xo.role = .standby → s.xo.sync = .synced → s.twoOfTwo = false →
        exec (.handoverOffer c) s = .next { s with xo := { s.xo with hoTaken := true, hoCycle := some c.toNat } })
      ∧ (s.xo.sync ≠ .synced ∨ s.twoOfTwo = true → exec (.handoverOffer c) s = .next s))
    ∧ (s.xo.role = .holder → s.xo.hoPaused = true → s.xo.hoCycle.isSome = true → s.xo.hoConf = true → s.masterPassed = true →
      s.xo.confAt + 10000 ≤ s.now → ∃ t, exec .dutyTokStop s = .next t ∧ s.Steady t ∧ t.xo.role = .handing)
    ∧ (s.xo.role ≠ .holder ∨ s.xo.hoConf = false ∨ s.now < s.xo.confAt + 10000 → exec .dutyTokStop s = .next s)
    ∧ (s.xo.role = .handing → s.mstate ≠ .safe → (s.deg.expired = false → ∃ t, exec .oldLaddersOpen s = .next t ∧ t.mstate = .standby
        ∧ t.xo.role = .standby ∧ t.xo.sync = .synced ∧ t.xo.overdue = false ∧ t.xo.latch = 0 ∧ t.ctl = s.ctl
        ∧ (∀ u : Nat, (t.unitAdm u).latch = 0) ∧ ∀ l : Lane, (t.lane.get l).field.cmd = 0)
      ∧ (s.deg.expired = true → s.gate = false → s.lead.isSome = true → ∃ t, exec .oldLaddersOpen s = .next t ∧ t.Stopped))
    ∧ (s.xo.role ≠ .handing → exec .oldLaddersOpen s = .next s)
    ∧ (s.xo.role = .holder → s.pref = false → s.twoOfTwo = false → s.revertHeld = true → s.testsSince s.xo.dutySince = true →
      s.xo.retryAt ≤ s.now →
      s.handoverBar = none → ∃ t, exec .revertiveReturn s = .next t ∧ s.Steady t ∧ t.lane = s.lane
        ∧ t.xo.hoCycle = some (s.cyc.num + 1))
    ∧ (s.pref = true ∨ s.twoOfTwo = true ∨ s.revertHeld = false → exec .revertiveReturn s = .next s)
    ∧ (s.xo.role = .holder → s.file.swapEn = true → s.swapReached = true → s.xo.retryAt ≤ s.now →
      (s.handoverBar = none → ∃ t, exec .roleSwap s = .next t ∧ s.Steady t ∧ t.xo.hoCycle = some (s.cyc.num + 1)
        ∧ t.xo.overdue = s.xo.overdue)
      ∧ (s.handoverBar.isSome = true → ∃ t, exec .roleSwap s = .next t ∧ t.xo.overdue = true
        ∧ t.xo.retryAt = s.now + 10000000000
        ∧ (s.xo.overdue = false ∨ s.xo.overdueAt + 3600000000000 ≤ s.now → t.xo.overdueAt = s.now
          ∧ ∀ l : Lane, s.parts.get l = true → t.ErrSet l (Blk.ofOff Base.xo) 5)))
    ∧ (s.xo.role ≠ .holder ∨ s.swapReached = false ∨ s.now < s.xo.retryAt → exec .roleSwap s = .next s)

/-! ### Forces, possessions, commissioning, on-line change (R485 to R507) -/

/-- An accepted SET puts the force into its entry of the force table, REMOVE empties it, REMOVE_ALL every entry of its kind (R490,
R491). A declared area is a bit of the areas until it is withdrawn (R487). COMMISSIONING is entered and left: no force remains and
the module is RESTART_LOCKED with its run identity (R489). A write that its register's checks refuse is refused in every lane with
the reason (R83, R88). -/
def Obligations.ForcesAndPossessions : Prop :=
  ∀ (s : State) (p : Port) (d : Word),
    (s.AgreesWb p Reg.SV_FORCE → ∀ l : Lane, s.parts.get l = true → (s.lane.get l).memWf = true →
      let bit := if fcKind d = 0 then 0 else fcBit d
      (∀ n : Nat, s.forceBar (s.writerOf p) (withOp d 0) = 0 →
        ((s.lane.get l).forcePlace (fcIdent d) (fcKind d + 1) bit = some n
          ∨ ((s.lane.get l).forcePlace (fcIdent d) (fcKind d + 1) bit = none ∧ (s.lane.get l).freeForce = some n)) → n < 256 →
        ∃ t, exec (.svForceSet p d) s = .next t ∧ s.Steady t
          ∧ memBytes (t.lane.get l).image.working (Img.force n) 16 = s.forceEntry (s.writerOf p) (withOp d 0))
      ∧ (∀ n : Nat, s.forceBar (s.writerOf p) (withOp d 1) = 0 →
        (s.lane.get l).forcePlace (fcIdent d) (fcKind d + 1) bit = some n → n < 256 →
        ∃ t, exec (.svForceRemove p d) s = .next t ∧ s.Steady t ∧ (t.lane.get l).forceAt n = none)
      ∧ (s.forceBar (s.writerOf p) (withOp d 2) = 0 → ∃ t, exec (.svForceRemoveAll p d) s = .next t ∧ s.Steady t
        ∧ ∀ (n : Nat) (f : Force), n < 256 → (t.lane.get l).forceAt n = some f → f.kind ≠ fcKind d + 1))
    ∧ (∀ r : Nat, s.AgreesWb p Reg.SV_FORCE → s.forceBar (s.writerOf p) (withOp d 0) = r → r ≠ 0 → r ≠ Reason.role →
      exec (.svForceSet p d) s = .next (s.refuseIn s.parts p (0x40000000 + Reg.SV_FORCE) r))
    ∧ (s.AgreesWb p Reg.SV_POSS →
      (s.possBar (s.writerOf p) (setField d 8 1 1) = 0 → ∃ t, exec (.declare p d) s = .next t ∧ s.Steady t
        ∧ ∀ a : Nat, a < 32 → t.areas.toNat.testBit a = (s.areas.toNat.testBit a || a == fieldOf d 0 5))
      ∧ (s.possBar (s.writerOf p) (setField d 8 1 0) = 0 → ∃ t, exec (.withdraw p d) s = .next t ∧ s.Steady t
        ∧ ∀ a : Nat, a < 32 → t.areas.toNat.testBit a = (s.areas.toNat.testBit a && a != fieldOf d 0 5)))
    ∧ (s.AgreesWb p Reg.SV_MODE_REQ →
      (s.modeBar (s.writerOf p) (setField d 0 2 1) = 0 → ∃ t, exec (.commissioningEnter p d) s = .next t ∧ s.Steady t ∧ t.comm = true)
      ∧ (s.comm = true → ∃ t, exec (.commissioningLeave p d) s = .next t ∧ t.comm = false ∧ t.mstate = .restartLocked
        ∧ t.runId = s.runId ∧ t.areas = s.areas ∧ t.ctl = s.ctl ∧ ∀ l : Lane, s.parts.get l = true → (s.lane.get l).memWf = true →
          ∀ n : Nat, n < 256 → (t.lane.get l).forceAt n = none)
      ∧ (s.comm = false → exec (.commissioningLeave p d) s
        = .next (s.refuseIn s.parts p (0x40000000 + Reg.SV_MODE_REQ) Reason.wrongState)))

/-- The on-line change: OPEN loads, CLOSE verifies, the lanes' results make it VERIFIED, STAGED or FAILED (R497, R498); ARM and
REVERT name a target 2 to 10,000 cycles on (R500, R504); COMMIT and the end of the REVERT window keep the change, ABANDON drops
it, ACTIVATE starts the module with the staged file (R498, R504, R507), in RESTART_LOCKED or, of a blank module, in SYNC (R474;
the model's reading, log 157). A word written to the staging area or to an open shadow window is stored and the address advances
(R189, R497); windows open and close (R188, R189). -/
def Obligations.OnLineChange : Prop :=
  ∀ (s : State) (p : Port) (d : Word),
    (s.AgreesWb p Reg.SV_CHANGE →
      (s.changeBar (setField d 0 4 1) = 0 → ∃ t, exec (.changeOpen p d) s = .next t ∧ s.Steady t ∧ t.chg = { st := .loading })
      ∧ (s.chg.st = .loading → ∃ t, exec (.changeClose p d) s = .next t ∧ s.Steady t ∧ t.chg.st = .verifying
        ∧ t.chg.sendDue = s.hasStandby)
      ∧ (s.armBar (fieldOf d 8 24) = 0 → ∃ t, exec (.arm p d) s = .next t ∧ s.Steady t ∧ t.chg.st = .armed
        ∧ t.chg.revert = false ∧ t.chg.target % 2 ^ 24 = fieldOf d 8 24 ∧ s.cyc.num + 2 ≤ t.chg.target
        ∧ t.chg.target ≤ s.cyc.num + 10000)
      ∧ (s.revertBar (fieldOf d 8 24) = 0 → ∃ t, exec (.revert p d) s = .next t ∧ s.Steady t ∧ t.chg.st = .armed
        ∧ t.chg.revert = true ∧ t.chg.target % 2 ^ 24 = fieldOf d 8 24 ∧ s.cyc.num + 2 ≤ t.chg.target
        ∧ t.chg.target ≤ s.cyc.num + 10000)
      ∧ (s.chg.st = .swapped → ∃ t, exec (.commit p d) s = .next t ∧ s.Steady t ∧ t.chg = {}
        ∧ ∀ l : Lane, (t.lane.get l).flash = { (s.lane.get l).flash with kept := none, keptTill := 0 })
      ∧ (s.chg.st = .failed ∨ s.chg.st = .verified → ∃ t, exec (.abandon p d) s = .next t ∧ s.Steady t ∧ t.chg = {}
        ∧ ∀ l : Lane, (t.lane.get l).flash = { (s.lane.get l).flash with staged := none })
      ∧ (s.chg.st = .staged → s.takesFile = true → ∃ t, exec (.activate p d) s = .next t ∧ t.mstate = .boot
        ∧ t.gate = false ∧ t.vdrv = false ∧ t.pending = s.pending ∧ ∀ l : Lane, (t.lane.get l).flash.active
            = (s.lane.get l).flash.staged.getD (s.lane.get l).flash.active ∧ (t.lane.get l).flash.staged = none)
      ∧ ∀ r : Nat, s.changeBar (setField d 0 4 1) = r → r ≠ 0 → r ≠ Reason.role →
        exec (.changeOpen p d) s = .next (s.refuseIn s.parts p (0x40000000 + Reg.SV_CHANGE) r))
    ∧ (∀ o : LaneSet, (s.chg.st ≠ .verifying → exec (.deltaVerify o) s = .next s)
      ∧ (s.chg.st = .verifying → (∃ l : Lane, s.isActive l = true ∧ s.verifyLane (s.lane.get l) (o.get l) ≠ 0) →
        ∃ t, exec (.deltaVerify o) s = .next t ∧ s.Steady t ∧ t.chg.st = .failed ∧ t.chg.reason ≠ 0)
      ∧ (s.chg.st = .verifying → (∀ l : Lane, s.isActive l = true → s.verifyLane (s.lane.get l) (o.get l) = 0) →
        ∃ t, exec (.deltaVerify o) s = .next t ∧ s.Steady t ∧ (t.chg.st = .staged ∨ t.chg.st = .verified) ∧ t.chg.reason = 0
          ∧ ∀ l : Lane, (t.lane.get l).flash.staged
              = some (Config.rebuild (s.lane.get l).package (s.lane.get l).flash.active)))
    ∧ (s.chg.st = .swapped ∨ (s.chg.st = .armed ∧ s.chg.revert = true) → s.chg.endAt ≤ (s.lane.get s.leadLane).clock →
      ∃ t, exec .revertWindowEnd s = .next t ∧ s.Steady t ∧ t.chg = {} ∧ ∀ l : Lane, (t.lane.get l).flash.kept = none)
    ∧ (s.chg.st = .verified ∨ (s.lane.get s.leadLane).clock < s.chg.endAt → exec .revertWindowEnd s = .next s)
    ∧ (s.TakesWrite p (Blk.ofOff Reg.SV_DLT_DATA) →
      (s.chg.st = .loading → s.twoOfTwo = false → ∃ t, exec (.svDltData .broadcast p d) s = .next t ∧ s.Steady t ∧ ∀ l : Lane,
        (t.lane.get l).staging = memPuts (s.lane.get l).staging ((s.lane.get l).fld Reg.SV_DLT_ADDR 0 26) (toLe 4 d.toNat)
        ∧ ((s.lane.get l).wf = true → ((t.lane.get l).reg Reg.SV_DLT_ADDR).toNat
            = ((s.lane.get l).fld Reg.SV_DLT_ADDR 0 26 + 4) % 2 ^ 26))
      ∧ ∀ l : Lane, exec (.svDltData (.lane l) p d) s = .next (s.upd l fun L =>
          L.refuse l p (l.code * 0x10000000 + Reg.SV_DLT_DATA) Reason.notBroadcast s.cyc.num))
    ∧ ∀ b : BitVec 4, (s.AgreesWb p (Reg.LF_SHD_CTRL b.toNat) →
        (s.shdBar b.toNat (setField d 0 2 1) = 0 → ∃ t, exec (.lfShdOpen b p d) s = .next t ∧ s.Steady t ∧ ∀ l : Lane,
          s.parts.get l = true → (t.lane.get l).bit (Reg.LF_SHD_CTRL b.toNat) 0 = true
            ∧ (t.lane.get l).fld (Reg.LF_SHD_STAT b.toNat) 0 2 = 1 ∧ ((t.lane.get l).cvUnit b.toNat).fg.st = 1)
        ∧ (∃ t, exec (.lfShdClose b p d) s = .next t ∧ s.Steady t ∧ ∀ l : Lane, s.parts.get l = true → (s.lane.get l).wf = true →
          (t.lane.get l).bit (Reg.LF_SHD_CTRL b.toNat) 0 = false
            ∧ ((s.lane.get l).bit (Reg.LF_SHD_CTRL b.toNat) 0 = true → (t.lane.get l).fld (Reg.LF_SHD_STAT b.toNat) 0 2 = 2)))
      ∧ (s.TakesWrite p (Blk.ofOff (Reg.LF_SHD_DATA b.toNat)) → (∀ l : Lane,
          (s.lane.get l).bit (Reg.LF_SHD_CTRL b.toNat) 0 = true ∧ ((s.lane.get l).reg (Reg.LF_SHD_ADDR b.toNat)).toNat < 2 ^ 18) →
        ∃ t, exec (.lfShdData .broadcast b p d) s = .next t ∧ s.Steady t ∧ ∀ l : Lane,
          (t.lane.get l).logic.banks = putD 0 (s.lane.get l).logic.banks ((s.lane.get l).shadow * 2 ^ 22 + b.toNat * 2 ^ 18
            + ((s.lane.get l).reg (Reg.LF_SHD_ADDR b.toNat)).toNat) d
          ∧ (t.lane.get l).reg (Reg.LF_SHD_ADDR b.toNat) = (s.lane.get l).reg (Reg.LF_SHD_ADDR b.toNat) + 1)

/-! ### Cabinet Bus, Tally Recorder, network ports (R541 to R566, R373, R384) -/

/-- Frames of others fill the lowest receive buffer that takes them (R546), one with the identifier of a transmit buffer is a
clash (R551); a frame of the port's own, whose turn it is, leaves the queue, or meets a bit error (R549, R550); one that fails
otherwise is counted and stands queued (R547, R556). An owner that is not ACTIVE sends nothing (R543). Remote frames are
discarded (R541). A port goes bus-off, where it takes no part (log 129, PRESUMED), and recovers (R553). Its reference message is
due at every end of its period, and tells its own start of frame to the next one (R554). A read of `CB_BHDR` locks a buffer for
its reader, who releases it, or 1 ms does (R548). -/
def Obligations.CabinetBus : Prop :=
  ∀ (s : State) (cb : BitVec 2) (f : CanFrame) (ls : LaneSet) (l : Lane),
    SMap.wf (fun _ => ({} : CanPort)) s.canPort = true → SMap.wf (fun _ => ({} : CanBuf)) (s.lane.get l).can = true →
    (f.rtr = true ∨ (s.canPt cb.toNat).busOff = true → ∀ own e, exec (.canFrame cb f own e ls) s = .next s)
    ∧ (f.rtr = false → s.canNormal cb.toNat = true → (s.canPt cb.toNat).busOff = false →
      (∀ c : CanBufCfg, s.canClash cb.toNat f = false → s.canTarget cb.toNat f = some c → c.port = cb.toNat →
        ∃ t, exec (.canFrame cb f .other .none ls) s = .next t ∧ s.Steady t ∧ ((s.checking ls).get l = true →
          ((t.lane.get l).canBuf (canKey cb.toNat c.buf)).data = f.data
          ∧ ((t.lane.get l).canBuf (canKey cb.toNat c.buf)).got = true
          ∧ ((t.lane.get l).canBuf (canKey cb.toNat c.buf)).storedAt = (s.lane.get l).clock
          ∧ ((t.lane.get l).canBuf (canKey cb.toNat c.buf)).locked = ((s.lane.get l).canBuf (canKey cb.toNat c.buf)).locked
          ∧ ∀ k : Nat, k ≠ canKey cb.toNat c.buf → (t.lane.get l).canBuf k = (s.lane.get l).canBuf k))
      ∧ (s.canClash cb.toNat f = true → (s.checking ls).get l = true → ∃ t, exec (.canFrame cb f .other .none ls) s = .next t
        ∧ t.ErrSet l (Blk.ofOff (Base.cb cb.toNat)) 0 ∧ (t.lane.get l).reg (Reg.CB_COLL cb.toNat) = collWord f 1)
      ∧ (∀ e : CanErr, e ≠ .none → ∃ t, exec (.canFrame cb f .other e ls) s = .next t ∧ s.Steady t
        ∧ (t.lane.get l).can = (s.lane.get l).can
        ∧ ∀ n : Nat, canErrPlace e = some n → (s.lane.get l).wf = true → (s.checking ls).get l = true →
          (t.lane.get l).fld (Reg.CB_ERRCNT cb.toNat) n 8 = min ((s.lane.get l).fld (Reg.CB_ERRCNT cb.toNat) n 8 + 1) 0xFF)
      ∧ ∀ o : Lane, (s.canPt cb.toNat).owner = some o → (s.isActive o = false → ∀ (b : BitVec 6) (e : CanErr),
          exec (.canFrame cb f (.buffer b) e ls) s = .next s) ∧ (s.isActive o = true →
        (∀ (b : BitVec 6) (e : CanErr), s.canMaySend cb.toNat o b.toNat f = true → e ≠ .none → e ≠ .dataBit →
          ∃ t, exec (.canFrame cb f (.buffer b) e ls) s = .next t ∧ s.Steady t
            ∧ (t.lane.get o).can = (s.lane.get o).can ∧ ∀ x : Lane, x ≠ o → t.lane.get x = s.lane.get x)
        ∧ (∀ b : BitVec 6, s.canMaySend cb.toNat o b.toNat f = true →
          ((∀ x : Lane, s.isActive x = true → ∀ c : CanBufCfg, s.canBufCfg cb.toNat b.toNat = some c → (s.lane.get x).canForm c = f) →
            ∃ t, exec (.canFrame cb f (.buffer b) .none ls) s = .next t ∧ s.Steady t
              ∧ ((t.lane.get l).canBuf (canKey cb.toNat b.toNat)).queued = false ∧ (∃ g : TxFrame, g ∈ t.txLast ∧ g.ch = .cb cb ∧ g.bytes = f.data))
          ∧ ∃ t, exec (.canFrame cb f (.buffer b) .dataBit ls) s = .next t ∧ t.ErrSet o (Blk.ofOff (Base.cb cb.toNat)) 1
            ∧ (t.lane.get o).reg (Reg.CB_COLL cb.toNat) = collWord f 0)
        ∧ (∀ b : BitVec 6, s.canMaySend cb.toNat o b.toNat f = false → ∀ e, exec (.canFrame cb f (.buffer b) e ls) s = .next s)
        ∧ ((s.canPt cb.toNat).trefQ.isSome = true → ∀ ago : Half, ∃ t, exec (.canFrame cb f (.reference ago) .none ls) s = .next t
          ∧ s.Steady t ∧ (t.canPt cb.toNat).trefQ = none
          ∧ (t.canPt cb.toNat).trefAt = some (((s.lane.get o).micros + 2 ^ 48 - ago.toNat) % 2 ^ 48)
          ∧ ∃ g : TxFrame, g ∈ t.txLast ∧ g.ch = .cb cb ∧ g.bytes = s.trefBytes cb.toNat)))
    ∧ (s.canNormal cb.toNat = true → (s.canPt cb.toNat).busOff = false → ∃ t, exec (.cbBusOff cb) s = .next t
      ∧ (t.canPt cb.toNat).busOff = true ∧ (s.parts.get l = true → t.ErrSet l (Blk.ofOff (Base.cb cb.toNat)) 2))
    ∧ ((s.canPt cb.toNat).busOff = true → ((s.canPortCfg cb.toNat).auto = true → ∃ t, exec (.cbRecovered cb) s = .next t ∧ s.Steady t
        ∧ (t.canPt cb.toNat).busOff = false)
      ∧ ((s.canPortCfg cb.toNat).auto = false → exec (.cbRecovered cb) s = .next s))
    ∧ (let due := (s.canPt cb.toNat).trefDue + (s.canPortCfg cb.toNat).trefMs.toNat * 1000000
      (s.canNormal cb.toNat = true → (s.canPt cb.toNat).entered = true → (s.canPortCfg cb.toNat).master = true → due ≤ s.now →
        ∃ t, exec (.timeReference cb) s = .next t ∧ s.Steady t ∧ t.lane = s.lane ∧ (t.canPt cb.toNat).trefOver = true
          ∧ (t.canPt cb.toNat).trefDue = due)
      ∧ (s.now < due ∨ (s.canPortCfg cb.toNat).master = false → exec (.timeReference cb) s = .next s))
    ∧ (∀ (p : Port) (c : CanBufCfg), s.canBufCfg cb.toNat ((s.lane.get l).canSel p cb.toNat) = some c →
      let k := canKey cb.toNat ((s.lane.get l).canSel p cb.toNat)
      (c.dir = 1 → c.nd = false → ((s.lane.get l).canBuf k).lock = none → ∃ t, exec (.cbLock (.lane l) cb p) s = .next t ∧ s.Steady t
        ∧ ((t.lane.get l).canBuf k).lock = some (p, (s.lane.get l).clock)
        ∧ ((t.lane.get l).canBuf k).locked = ((s.lane.get l).canBuf k).data)
      ∧ (∀ at_ : Nat, ((s.lane.get l).canBuf k).lock = some (p, at_) → (∃ t, exec (.cbUnlock (.lane l) cb p) s = .next t ∧ s.Steady t
          ∧ ((t.lane.get l).canBuf k).lock = none ∧ ((t.lane.get l).canBuf k).shadow = false
          ∧ ((t.lane.get l).canBuf k).data = ((s.lane.get l).canBuf k).data)
        ∧ ∀ q : Port, q ≠ p → (s.lane.get l).canSel q cb.toNat = (s.lane.get l).canSel p cb.toNat →
          ∃ t, exec (.cbUnlock (.lane l) cb q) s = .next t ∧ (t.lane.get l).canBuf k = (s.lane.get l).canBuf k))
    ∧ ∀ b : BitVec 6, ∃ t, exec (.cbLockExpiry l cb b) s = .next t ∧ s.Steady t ∧ (∀ x : Lane, x ≠ l → t.lane.get x = s.lane.get x)
      ∧ ∀ (p : Port) (at_ : Nat), ((s.lane.get l).canBuf (canKey cb.toNat b.toNat)).lock = some (p, at_) →
        (at_ + 1000000 ≤ (s.lane.get l).clock → ((t.lane.get l).canBuf (canKey cb.toNat b.toNat)).lock = none)
        ∧ ((s.lane.get l).clock < at_ + 1000000 →
          (t.lane.get l).canBuf (canKey cb.toNat b.toNat) = (s.lane.get l).canBuf (canKey cb.toNat b.toNat))

/-- A changed Tally record is written to MRAM, at most once in 10 s (R557, R559), and the copy stands as written; a read-back that
fails is reported. A copy whose check fails loses its mark (R560); the last copy ends the pass (R528; the
order is log 159). `TALLY_CLEAR` zeroes the records of the groups it names (R565). A
link that goes down is reported (R384); a port that holds an address answers, in its own protocol, ARP requests and solicitations for
it, and ICMP echoes at most ten times a second (R373); a frame received tells that the link is up (log 148). -/
def Obligations.TallyAndNetworkPorts : Prop :=
  ∀ (s : State) (l : Lane),
    (∀ r : BitVec 13, s.mstate ≠ .off → (tallyGroup s.role r.toNat).isSome = true → ((s.lane.get l).tallyRec r.toNat).dirty = true →
      (∀ w, ((s.lane.get l).tallyRec r.toNat).writtenAt = some w → w + 10000000000 ≤ (s.lane.get l).clock) →
      (∃ t, exec (.tallyWrite l r true) s = .next t ∧ s.Steady t ∧ ((t.lane.get l).tallyRec r.toNat).dirty = false
        ∧ ((t.lane.get l).tallyRec r.toNat).payload = ((s.lane.get l).tallyRec r.toNat).payload
        ∧ ((t.lane.get l).slotValid (2 * r.toNat) = true ∨ (t.lane.get l).slotValid (2 * r.toNat + 1) = true))
      ∧ ∃ t, exec (.tallyWrite l r false) s = .next t ∧ t.ErrSet l (Blk.ofOff Base.tally) 1)
    ∧ (∀ (r : BitVec 13) (ok : Bool), ((s.lane.get l).tallyRec r.toNat).dirty = false → exec (.tallyWrite l r ok) s = .next s)
    ∧ (∀ n : BitVec 14,
      (s.mstate ≠ .off → (s.lane.get l).slotMarked n.toNat = true → (s.lane.get l).slotChecks n.toNat = false → ∃ t, exec (.tallyCheck l n) s = .next t
        ∧ t.ErrSet l (Blk.ofOff Base.tally) 0)
      ∧ ((s.lane.get l).slotValid n.toNat = true →
        ((s.lane.get l).lastMarked n.toNat = false → exec (.tallyCheck l n) s = .next s)
        ∧ (s.mstate ≠ .off → (s.lane.get l).lastMarked n.toNat = true → exec (.tallyCheck l n) s = .next (s.upd l fun L =>
          (L.addFld (Reg.CV_CNT 17) 24 8 1).setCvUnit 17 fun c => { c with passAt := s.now }))))
    ∧ (∀ (p : Port) (d : Word), s.AgreesWb p Reg.TALLY_CLEAR → ∃ t, exec (.tallyClear p d []) s = .next t ∧ s.Steady t
      ∧ ∀ r g : Nat, r ∈ tallyRecords s.role g → g < 4 → d.toNat.testBit g = true → ((t.lane.get l).tallyRec r).payload = [])
    ∧ (∀ n : Net, (s.agreedFld (Reg.NET_STAT (netIdx n)) 0 1 = 0 → exec (.linkDown n) s = .next s)
      ∧ (s.agreedFld (Reg.NET_STAT (netIdx n)) 0 1 = 1 → ∃ t, exec (.linkDown n) s = .next t
        ∧ ((s.lane.get l).wf = true → (t.lane.get l).bit (Reg.NET_STAT (netIdx n)) 0 = false)
        ∧ (s.parts.get l = true → t.ErrSet l (Blk.ofOff (Base.net (netIdx n))) 0)))
    ∧ ∀ (n : Net) (ask : NetAsk),
      let h := s.netHeard n (.all true)
      let answer := (s.heldAddr n).bind fun a => netAnswer (s.netCfg n).v6 a ask
      (answer = none → exec (.arpNdIcmpEcho n ask) s = .next h)
      ∧ ∀ m : NetMsg, answer = some m →
        (asksEcho ask = false → exec (.arpNdIcmpEcho n ask) s = .next (h.say n m))
        ∧ (asksEcho ask = true →
          (∀ k : Nat, n = .net1 → s.echo1 = (s.now / 1000000000, k) →
            (k < 10 → exec (.arpNdIcmpEcho n ask) s = .next { h.say n m with echo1 := (s.now / 1000000000, k + 1) })
            ∧ (10 ≤ k → exec (.arpNdIcmpEcho n ask) s = .next h))
          ∧ (n = .net2 → s.echo2.1 ≠ s.now / 1000000000 →
            exec (.arpNdIcmpEcho n ask) s = .next { h.say n m with echo2 := (s.now / 1000000000, 1) }))
end

