-- ==== Sys2Proof/Laws/State.lean ====
section
/-! SUPPORT. Laws/State.lean: the small lemmas of lanes and of the updates of a lane. -/

namespace Sys2Proof

@[simp] theorem LaneVec.get_set_self {α : Type} (v : LaneVec α) (l : Lane) (x : α) : (v.set l x).get l = x := by
  cases l <;> rfl

theorem LaneVec.get_set_of_ne {α : Type} (v : LaneVec α) {l m : Lane} (x : α) (h : m ≠ l) : (v.set l x).get m = v.get m := by
  cases l <;> cases m <;> first | rfl | exact absurd rfl h

@[simp] theorem LaneVec.set_set {α : Type} (v : LaneVec α) (l : Lane) (x y : α) : (v.set l x).set l y = v.set l y := by
  cases l <;> rfl

@[simp] theorem LaneVec.set_get_self {α : Type} (v : LaneVec α) (l : Lane) : v.set l (v.get l) = v := by cases l <;> rfl

@[simp] theorem LaneVec.get_map {α β : Type} (f : Lane → α → β) (v : LaneVec α) (l : Lane) :
    (v.map f).get l = f l (v.get l) := by cases l <;> rfl

@[simp] theorem LaneVec.get_all {α : Type} (x : α) (l : Lane) : (LaneVec.all x).get l = x := by cases l <;> rfl

@[simp] theorem LaneVec.get_ofFn {α : Type} (f : Lane → α) (l : Lane) : (LaneVec.ofFn f).get l = f l := by cases l <;> rfl

namespace Machine

@[simp] theorem State.upd_lane_self (s : State) (l : Lane) (f : LaneSt → LaneSt) : (s.upd l f).lane.get l = f (s.lane.get l) := by
  simp [State.upd]

theorem State.upd_lane_of_ne (s : State) {l m : Lane} (f : LaneSt → LaneSt) (h : m ≠ l) :
    (s.upd l f).lane.get m = s.lane.get m := LaneVec.get_set_of_ne _ _ h

@[simp] theorem State.upd_upd (s : State) (l : Lane) (f g : LaneSt → LaneSt) : (s.upd l f).upd l g = s.upd l fun L => g (f L) := by
  simp [State.upd]

theorem State.upd_congr (s : State) (l : Lane) {f g : LaneSt → LaneSt} (h : f (s.lane.get l) = g (s.lane.get l)) :
    s.upd l f = s.upd l g := by simp only [State.upd, h]

theorem State.upd_id (s : State) (l : Lane) {f : LaneSt → LaneSt} (h : f (s.lane.get l) = s.lane.get l) : s.upd l f = s := by
  simp only [State.upd, h, LaneVec.set_get_self]

@[simp] theorem State.updAll_lane (s : State) (f : Lane → LaneSt → LaneSt) (l : Lane) :
    (s.updAll f).lane.get l = f l (s.lane.get l) := by simp [State.updAll, State.updIn]

@[simp] theorem State.updIn_lane (s : State) (ls : LaneSet) (f : Lane → LaneSt → LaneSt) (l : Lane) :
    (s.updIn ls f).lane.get l = if ls.get l then f l (s.lane.get l) else s.lane.get l := by simp [State.updIn]

end Machine

end Sys2Proof
end

