-- ==== Sys2Proof/Laws/Cells.lean ====
section
/-! SUPPORT. Laws/Cells.lean: what one instruction of a logic cell does when its word is legal, its halves agree and the
held-write buffer has room: every claim about the instructions rests on it. -/

namespace Sys2Proof.Machine

/-- The logic of a lane after the effects of an instruction other than on its cell. -/
def CellEff.logic (e : CellEff) (cell : Nat) (g : LogicSt) : LogicSt :=
  { g with
    loc := match e.loc with | some (b, v) => putD false g.loc (cell * 4096 + b) v | none => g.loc
    held := match e.held with | some w => putHeld w g.held | none => g.held
    tcCmds := g.tcCmds ++ e.cmd.toList
    asserts := g.asserts ++ e.asrt.toList }

/-- An instruction whose word is legal changes its cell and the logic of its lane as its effect says. -/
theorem runCell_eff {x : CellAt} {w : Nat} {eff : LaneSt → CellSt → Option CellEff} {s : State} {e : CellEff}
    (hr : s.CellReady x w) (he : eff (s.lane.get x.lane) (s.cellAt x) = some e)
    (hh : (s.lane.get x.lane).overflows x.cell.toNat e = false) (hf : e.fault = none) :
    runCell x w eff s = (s.cellGoes x e.base fun _ => e.cell).logicOf x.lane (e.logic x.cell.toNat) := by
  obtain ⟨h1, h2, h3⟩ := hr
  unfold State.cellAt at he
  simp only [runCell, h1, h2, h3, he, hf, hh, Bool.not_true, ne_eq, not_true_eq_false, decide_false, Bool.or_self,
    Bool.false_eq_true, if_false, State.cellGoes, State.logicOf, State.upd_upd]
  apply State.upd_congr
  unfold LaneSt.overflows at hh
  unfold LaneSt.applyEff CellEff.logic
  cases hd : e.held with
  | none => rfl
  | some w =>
    simp only [hd] at hh
    simp only [LaneSt.setCell, hh, Bool.false_eq_true, if_false]
    rfl

/-- Only the cell as it stands matters to what a cell goes to. -/
theorem State.cellGoes_congr (s : State) (x : CellAt) (b : Nat) {f g : CellSt → CellSt} (h : f (s.cellAt x) = g (s.cellAt x)) :
    s.cellGoes x b f = s.cellGoes x b g := by
  unfold State.cellAt at h
  apply State.upd_congr
  simp only [LaneSt.setCell, h]

/-- An instruction that leaves its cell as it is. -/
theorem runCell_logic {x : CellAt} {w : Nat} {eff : LaneSt → CellSt → Option CellEff} {s : State} {e : CellEff}
    (hr : s.CellReady x w) (he : eff (s.lane.get x.lane) (s.cellAt x) = some e) (hc : e.cell = s.cellAt x)
    (hh : (s.lane.get x.lane).overflows x.cell.toNat e = false) (hf : e.fault = none) :
    runCell x w eff s = (s.cellGoes x e.base id).logicOf x.lane (e.logic x.cell.toNat) := by
  rw [runCell_eff hr he hh hf, State.cellGoes_congr (f := fun _ => e.cell) (g := id) s x _ hc]

/-- An instruction with no effect outside its cell. -/
theorem runCell_cell {x : CellAt} {w b : Nat} {eff : LaneSt → CellSt → Option CellEff} {s : State} {g : CellSt → CellSt}
    (hr : s.CellReady x w) (he : eff (s.lane.get x.lane) (s.cellAt x) = some { cell := g (s.cellAt x), base := b }) :
    runCell x w eff s = s.cellGoes x b g := by
  rw [runCell_eff hr he rfl rfl, State.cellGoes_congr (g := g) s x b rfl]
  exact State.upd_id _ _ (by simp [CellEff.logic])

theorem CellSt.setA_eq (c : CellSt) (v : Bool) : c.setA v = { c with a := if c.e then v else c.a } := by
  rcases c with ⟨a, e⟩
  cases e <;> rfl

theorem CellSt.setT0_eq (c : CellSt) (t : TReg) : c.setT0 t = { c with t0 := if c.e then t else c.t0 } := by
  rcases c with ⟨a, e⟩
  cases e <;> rfl

theorem CellSt.setT1_eq (c : CellSt) (t : TReg) : c.setT1 t = { c with t1 := if c.e then t else c.t1 } := by
  rcases c with ⟨a, e⟩
  cases e <;> rfl

end Sys2Proof.Machine
end

