-- ==== Sys2Proof/Laws/Maps.lean ====
section
/-! SUPPORT. Laws/Maps.lean: the sparse maps: reading after writing, and that every write keeps the canonical form; the
same for registers and byte memories. -/

namespace Sys2Proof

namespace SMap
variable {V : Type}

/-- No key of the list lies at or below `lo`. -/
theorem get_of_above (d : Nat → V) : ∀ (m : List (Nat × V)) (lo i : Nat), above lo m = true → i ≤ lo → get d m i = d i
  | [], _, _, _, _ => rfl
  | (k, v) :: m, lo, i, h, hi => by
    simp only [above, Bool.and_eq_true, decide_eq_true_eq] at h
    rw [get, if_neg (by omega), get_of_above d m lo i h.2 hi]

theorem above_mono : ∀ (m : List (Nat × V)) (a b : Nat), a ≤ b → above b m = true → above a m = true
  | [], _, _, _, _ => rfl
  | (k, v) :: m, a, b, h, hb => by
    simp only [above, Bool.and_eq_true, decide_eq_true_eq] at hb ⊢
    exact ⟨by omega, above_mono m a b h hb.2⟩

/-- A list is rising: the part of the canonical form that reading needs. -/
theorem wf_tail [DecidableEq V] {d : Nat → V} {k : Nat} {v : V} {m : List (Nat × V)} (h : wf d ((k, v) :: m) = true) :
    v ≠ d k ∧ above k m = true ∧ wf d m = true := by
  simpa [wf, and_assoc] using h

theorem above_put [DecidableEq V] (d : Nat → V) (x : V) : ∀ (m : List (Nat × V)) (lo i : Nat), above lo m = true → lo < i →
    above lo (put d m i x) = true
  | [], lo, i, _, h => by
    unfold put
    split <;> simp [above, h]
  | (k, v) :: m, lo, i, hm, h => by
    have hm' := hm
    simp only [above, Bool.and_eq_true, decide_eq_true_eq] at hm'
    unfold put
    split
    · split
      · exact hm
      · simp [above, h, hm'.1, hm'.2]
    · split
      · split
        · exact hm'.2
        · simp [above, h, hm'.2]
      · simp [above, hm'.1, above_put d x m lo i hm'.2 h]

/-- Every write keeps the canonical form. -/
theorem put_wf [DecidableEq V] (d : Nat → V) (x : V) : ∀ (m : List (Nat × V)) (i : Nat), wf d m = true → wf d (put d m i x) = true
  | [], i, _ => by
    unfold put
    split <;> simp_all [wf, above]
  | (k, v) :: m, i, h => by
    obtain ⟨h1, h2, h3⟩ := wf_tail h
    unfold put
    split
    · split
      · exact h
      · rename_i hk hx
        simp [wf, above, hx, h1, h2, h3, hk, above_mono m i k (by omega) h2]
    · split
      · split
        · exact h3
        · rename_i _ hk hx
          subst hk
          simp [wf, hx, h2, h3]
      · simp [wf, h1, put_wf d x m i h3, above_put d x m k i h2 (by omega)]

/-- A read after a write to the same key; only the canonical form makes a write of the default readable. -/
theorem get_put_self [DecidableEq V] (d : Nat → V) (x : V) : ∀ (m : List (Nat × V)) (i : Nat), wf d m = true →
    get d (put d m i x) i = x
  | [], i, _ => by
    unfold put
    split <;> simp_all [get]
  | (k, v) :: m, i, h => by
    obtain ⟨h1, h2, h3⟩ := wf_tail h
    unfold put
    split
    · split
      · rename_i hk hx
        rw [get, if_neg (by omega), get_of_above d m k i h2 (by omega), hx]
      · simp [get]
    · split
      · split
        · rename_i hk hx
          rw [get_of_above d m k i h2 (by omega), hx]
        · simp [get]
      · rename_i hk
        rw [get, if_neg hk, get_put_self d x m i h3]

/-- A write leaves every other key alone. -/
theorem get_put_of_ne [DecidableEq V] (d : Nat → V) (x : V) : ∀ (m : List (Nat × V)) (i j : Nat), j ≠ i →
    get d (put d m i x) j = get d m j
  | [], i, j, h => by
    unfold put
    split <;> simp [get, h]
  | (k, v) :: m, i, j, h => by
    unfold put
    split
    · split
      · rfl
      · simp [get, h]
    · split
      · rename_i hk
        subst hk
        split <;> simp [get, h]
      · simp only [get, get_put_of_ne d x m i j h]

end SMap

namespace Machine

/-! ### Registers -/

theorem LaneSt.reg_setReg_of_ne (L : LaneSt) (v : Word) {off o : Nat} (h : o ≠ off) : (L.setReg off v).reg o = L.reg o :=
  SMap.get_put_of_ne _ _ _ _ _ h

theorem LaneSt.reg_setReg_self (L : LaneSt) (off : Nat) (v : Word) (h : SMap.wf Sys2Proof.Machine.resetOf L.regs = true) :
    (L.setReg off v).reg off = v := SMap.get_put_self _ _ _ _ h

theorem State.mreg_setMreg_of_ne (s : State) (v : Word) {off o : Nat} (h : o ≠ off) : (s.setMreg off v).mreg o = s.mreg o :=
  SMap.get_put_of_ne _ _ _ _ _ h

theorem State.mreg_setMreg_self (s : State) (off : Nat) (v : Word) (h : SMap.wf modResetOf s.mregs = true) :
    (s.setMreg off v).mreg off = v := SMap.get_put_self _ _ _ _ h

/-! ### Byte memories -/

theorem memGet_memPut_self (m : List Host.Cell) (a : Nat) (x : Byte) (h : SMap.wf zeroByte m = true) :
    memGet (memPut m a x) a = x := SMap.get_put_self _ _ _ _ h

theorem memGet_memPut_of_ne (m : List Host.Cell) (x : Byte) {a b : Nat} (h : b ≠ a) :
    memGet (memPut m a x) b = memGet m b := SMap.get_put_of_ne _ _ _ _ _ h

theorem memPut_wf (m : List Host.Cell) (a : Nat) (x : Byte) (h : SMap.wf zeroByte m = true) :
    SMap.wf zeroByte (memPut m a x) = true := SMap.put_wf _ _ _ _ h

theorem memPuts_wf : ∀ (bs : Bytes) (m : List Host.Cell) (a : Nat), SMap.wf zeroByte m = true →
    SMap.wf zeroByte (memPuts m a bs) = true
  | [], _, _, h => h
  | x :: xs, m, a, h => memPuts_wf xs _ _ (memPut_wf m a x h)

/-- Bytes stored leave every byte outside them alone. -/
theorem memGet_memPuts_outside : ∀ (bs : Bytes) (m : List Host.Cell) (a b : Nat), b < a ∨ a + bs.length ≤ b →
    memGet (memPuts m a bs) b = memGet m b
  | [], _, _, _, _ => rfl
  | x :: xs, m, a, b, h => by
    simp only [List.length_cons] at h
    rw [memPuts, memGet_memPuts_outside xs _ _ _ (by omega), memGet_memPut_of_ne _ _ (by omega)]

/-- The working buffer keeps its canonical form. -/
theorem LaneSt.imgPut_wf (L : LaneSt) (a : Nat) (bs : Bytes) (h : SMap.wf zeroByte L.image.working = true) :
    SMap.wf zeroByte (L.imgPut a bs).image.working = true := memPuts_wf _ _ _ h

end Machine

end Sys2Proof
end

