-- ==== Sys2Proof/Laws/Fields.lean ====
section
/-! SUPPORT. Laws/Fields.lean: fields of a word and of a register: reading after replacing. -/

namespace Sys2Proof.Machine

/-- A number as the part above a field, the field and the part below it. -/
theorem split_at_field (n lo w : Nat) : n = n / 2 ^ (lo + w) * 2 ^ (lo + w) + (n / 2 ^ lo % 2 ^ w * 2 ^ lo + n % 2 ^ lo) := by
  have h1 := Nat.div_add_mod n (2 ^ lo)
  have h2 := Nat.div_add_mod (n / 2 ^ lo) (2 ^ w)
  rw [Nat.div_div_eq_div_mul, ← pow_add] at h2
  have h3 : 2 ^ (lo + w) = 2 ^ lo * 2 ^ w := pow_add 2 lo w
  calc n = 2 ^ lo * (n / 2 ^ lo) + n % 2 ^ lo := h1.symm
    _ = 2 ^ lo * (2 ^ w * (n / 2 ^ (lo + w)) + n / 2 ^ lo % 2 ^ w) + n % 2 ^ lo := by rw [h2]
    _ = _ := by rw [h3]; ring

/-- The number that a word with a replaced field stands for. -/
theorem setField_toNat (v : Word) (lo w x : Nat) (h : lo + w ≤ 32) :
    (setField v lo w x).toNat = v.toNat / 2 ^ (lo + w) * 2 ^ (lo + w) + (x % 2 ^ w * 2 ^ lo + v.toNat % 2 ^ lo) := by
  have hp := split_at_field v.toNat lo w
  have hx : x % 2 ^ w < 2 ^ w := Nat.mod_lt _ (by positivity)
  have hr : v.toNat % 2 ^ lo < 2 ^ lo := Nat.mod_lt _ (by positivity)
  have e : v.toNat - fieldOf v lo w * 2 ^ lo + x % 2 ^ w * 2 ^ lo
      = v.toNat / 2 ^ (lo + w) * 2 ^ (lo + w) + (x % 2 ^ w * 2 ^ lo + v.toNat % 2 ^ lo) := by
    unfold fieldOf; omega
  unfold setField
  rw [e, BitVec.toNat_ofNat]
  apply Nat.mod_eq_of_lt
  have h3 : 2 ^ (lo + w) = 2 ^ lo * 2 ^ w := pow_add 2 lo w
  have low : x % 2 ^ w * 2 ^ lo + v.toNat % 2 ^ lo < 2 ^ (lo + w) := by
    calc x % 2 ^ w * 2 ^ lo + v.toNat % 2 ^ lo < x % 2 ^ w * 2 ^ lo + 2 ^ lo := by omega
      _ = (x % 2 ^ w + 1) * 2 ^ lo := by ring
      _ ≤ 2 ^ w * 2 ^ lo := Nat.mul_le_mul_right _ hx
      _ = 2 ^ (lo + w) := by rw [h3]; ring
  have hv := v.isLt
  have hs : 2 ^ 32 = 2 ^ (32 - (lo + w)) * 2 ^ (lo + w) := by rw [← pow_add]; congr 1; omega
  have hd : v.toNat / 2 ^ (lo + w) < 2 ^ (32 - (lo + w)) := by
    rw [Nat.div_lt_iff_lt_mul (by positivity)]; omega
  calc _ < v.toNat / 2 ^ (lo + w) * 2 ^ (lo + w) + 2 ^ (lo + w) := by omega
    _ = (v.toNat / 2 ^ (lo + w) + 1) * 2 ^ (lo + w) := by ring
    _ ≤ 2 ^ (32 - (lo + w)) * 2 ^ (lo + w) := Nat.mul_le_mul_right _ hd
    _ = _ := hs.symm

/-- A field reads what was put into it. -/
theorem fieldOf_setField (v : Word) (lo w x : Nat) (h : lo + w ≤ 32) : fieldOf (setField v lo w x) lo w = x % 2 ^ w := by
  have hx : x % 2 ^ w < 2 ^ w := Nat.mod_lt _ (by positivity)
  have hr : v.toNat % 2 ^ lo < 2 ^ lo := Nat.mod_lt _ (by positivity)
  unfold fieldOf
  rw [setField_toNat v lo w x h, pow_add]
  have e : v.toNat / (2 ^ lo * 2 ^ w) * (2 ^ lo * 2 ^ w) + (x % 2 ^ w * 2 ^ lo + v.toNat % 2 ^ lo)
      = v.toNat % 2 ^ lo + 2 ^ lo * (x % 2 ^ w + 2 ^ w * (v.toNat / (2 ^ lo * 2 ^ w))) := by ring
  rw [e, Nat.add_mul_div_left _ _ (by positivity), Nat.div_eq_of_lt hr, Nat.zero_add, Nat.add_mul_mod_self_left,
    Nat.mod_eq_of_lt hx]

/-- A field below the replaced one is left alone. -/
theorem fieldOf_setField_below (v : Word) (lo w x lo' w' : Nat) (h : lo + w ≤ 32) (hb : lo' + w' ≤ lo) :
    fieldOf (setField v lo w x) lo' w' = fieldOf v lo' w' := by
  unfold fieldOf
  rw [setField_toNat v lo w x h]
  have k : ∀ n : Nat, n / 2 ^ lo' % 2 ^ w' = n % 2 ^ lo / 2 ^ lo' % 2 ^ w' := by
    intro n
    have e : 2 ^ lo = 2 ^ (lo' + w') * 2 ^ (lo - (lo' + w')) := by rw [← pow_add]; congr 1; omega
    rw [← Nat.mod_mul_right_div_self, ← Nat.mod_mul_right_div_self, ← pow_add, e, Nat.mod_mul_right_mod]
  rw [k, k v.toNat]
  congr 2
  rw [show v.toNat / 2 ^ (lo + w) * 2 ^ (lo + w) + (x % 2 ^ w * 2 ^ lo + v.toNat % 2 ^ lo)
    = v.toNat % 2 ^ lo + 2 ^ lo * (x % 2 ^ w + 2 ^ w * (v.toNat / 2 ^ (lo + w))) by rw [pow_add]; ring]
  rw [Nat.add_mul_mod_self_left, Nat.mod_mod]

/-- A field above the replaced one is left alone. -/
theorem fieldOf_setField_above (v : Word) (lo w x lo' w' : Nat) (h : lo + w ≤ 32) (hb : lo + w ≤ lo') :
    fieldOf (setField v lo w x) lo' w' = fieldOf v lo' w' := by
  have hx : x % 2 ^ w < 2 ^ w := Nat.mod_lt _ (by positivity)
  have hr : v.toNat % 2 ^ lo < 2 ^ lo := Nat.mod_lt _ (by positivity)
  have low : x % 2 ^ w * 2 ^ lo + v.toNat % 2 ^ lo < 2 ^ (lo + w) := by
    calc x % 2 ^ w * 2 ^ lo + v.toNat % 2 ^ lo < x % 2 ^ w * 2 ^ lo + 2 ^ lo := by omega
      _ = (x % 2 ^ w + 1) * 2 ^ lo := by ring
      _ ≤ 2 ^ w * 2 ^ lo := Nat.mul_le_mul_right _ hx
      _ = 2 ^ (lo + w) := by rw [pow_add]; ring
  unfold fieldOf
  rw [setField_toNat v lo w x h]
  have e : 2 ^ lo' = 2 ^ (lo + w) * 2 ^ (lo' - (lo + w)) := by rw [← pow_add]; congr 1; omega
  rw [e, ← Nat.div_div_eq_div_mul, ← Nat.div_div_eq_div_mul]
  congr 2
  rw [Nat.mul_comm, Nat.mul_add_div (by positivity), Nat.div_eq_of_lt low, Nat.add_zero]

theorem LaneSt.fld_setFld_self (L : LaneSt) (off lo w x : Nat) (hw : SMap.wf Sys2Proof.Machine.resetOf L.regs = true)
    (h : lo + w ≤ 32) : (L.setFld off lo w x).fld off lo w = x % 2 ^ w := by
  unfold LaneSt.fld LaneSt.setFld
  rw [LaneSt.reg_setReg_self _ _ _ hw, fieldOf_setField _ _ _ _ h]

theorem LaneSt.reg_setFld_of_ne (L : LaneSt) (lo w x : Nat) {off o : Nat} (h : o ≠ off) :
    (L.setFld off lo w x).reg o = L.reg o := LaneSt.reg_setReg_of_ne _ _ h

end Sys2Proof.Machine
end

