-- ==== Sys2Proof/Laws/Reports.lean ====
section
/-! SUPPORT. Laws/Reports.lean: what the shared operations of the Occurrence Book, of refusals and of the entry into SAFE can
change. -/

namespace Sys2Proof.Machine

/-- A write of a value other than a key's default reads back, whatever the list. -/
theorem SMap.get_put_of_ne_default {V : Type} [DecidableEq V] (d : Nat → V) (x : V) (i : Nat) (hx : x ≠ d i) :
    ∀ m : List (Nat × V), SMap.get d (SMap.put d m i x) i = x
  | [] => by simp [SMap.put, hx, SMap.get]
  | (k, v) :: m => by
    unfold SMap.put
    split
    · simp [SMap.get]
    · split
      · simp [SMap.get]
      · rename_i hk
        simp [SMap.get, hk, get_put_of_ne_default d x i hx m]

/-- A list without the entries of some keys reads their defaults. -/
theorem SMap.get_filter {V : Type} (d : Nat → V) (p : Nat → Bool) (i : Nat) : ∀ m : List (Nat × V),
    SMap.get d (m.filter fun e => p e.1) i = if p i then SMap.get d m i else d i
  | [] => by simp [SMap.get]
  | (k, v) :: m => by
    have ih := get_filter d p i m
    by_cases hk : p k <;> by_cases hi : i = k
    · subst hi; simp [hk, SMap.get]
    · simp [hk, SMap.get, hi, ih]
    · subst hi; simp [hk, ih]
    · simp [hk, ih, SMap.get, hi]

theorem LaneSt.reg_setReg_of_ne_default (L : LaneSt) (off : Nat) (v : Word) (h : v ≠ Sys2Proof.Machine.resetOf off) :
    (L.setReg off v).reg off = v := SMap.get_put_of_ne_default _ _ _ h _

/-- An entry of the Occurrence Book touches nothing of a lane but the book and `OB_LOST`. -/
theorem LaneSt.record_frame (L : LaneSt) (path : Word) (code : Half) (cls flags cycle : Nat) (data : BitVec 48) :
    let R := L.record path code cls flags cycle data
    R = { L with obKept := R.obKept, obRing := R.obRing, obNext := R.obNext, obCount := R.obCount, regs := R.regs }
      ∧ ∀ o, o ≠ Reg.OB_LOST → R.reg o = L.reg o := by
  intro R
  refine ⟨by subst R; unfold LaneSt.record; dsimp only; split <;> rfl, fun o h => ?_⟩
  subst R
  unfold LaneSt.record
  dsimp only
  split
  · rfl
  · by_cases hf : 4096 ≤ L.obKept.length + L.obRing.length
    · simp only [hf, decide_true, if_true]
      exact LaneSt.reg_setFld_of_ne L 0 32 _ h
    · simp only [hf, decide_false, Bool.false_eq_true, if_false, LaneSt.reg]

theorem LaneSt.reg_record_of_ne (L : LaneSt) (path : Word) (code : Half) (cls flags cycle : Nat) (data : BitVec 48) {o : Nat}
    (h : o ≠ Reg.OB_LOST) : (L.record path code cls flags cycle data).reg o = L.reg o := (L.record_frame ..).2 o h

@[simp] theorem LaneSt.record_logic (L : LaneSt) (path : Word) (code : Half) (cls flags cycle : Nat) (data : BitVec 48) :
    (L.record path code cls flags cycle data).logic = L.logic := by rw [(L.record_frame path code cls flags cycle data).1]

@[simp] theorem LaneSt.record_image (L : LaneSt) (path : Word) (code : Half) (cls flags cycle : Nat) (data : BitVec 48) :
    (L.record path code cls flags cycle data).image = L.image := by rw [(L.record_frame path code cls flags cycle data).1]

@[simp] theorem LaneSt.record_field (L : LaneSt) (path : Word) (code : Half) (cls flags cycle : Nat) (data : BitVec 48) :
    (L.record path code cls flags cycle data).field = L.field := by rw [(L.record_frame path code cls flags cycle data).1]

@[simp] theorem LaneSt.record_sess (L : LaneSt) (path : Word) (code : Half) (cls flags cycle : Nat) (data : BitVec 48) :
    (L.record path code cls flags cycle data).sess = L.sess := by rw [(L.record_frame path code cls flags cycle data).1]

@[simp] theorem LaneSt.record_clock (L : LaneSt) (path : Word) (code : Half) (cls flags cycle : Nat) (data : BitVec 48) :
    (L.record path code cls flags cycle data).clock = L.clock := by rw [(L.record_frame path code cls flags cycle data).1]

@[simp] theorem LaneSt.record_keys (L : LaneSt) (path : Word) (code : Half) (cls flags cycle : Nat) (data : BitVec 48) :
    (L.record path code cls flags cycle data).keys = L.keys := by rw [(L.record_frame path code cls flags cycle data).1]

@[simp] theorem LaneSt.record_resets (L : LaneSt) (path : Word) (code : Half) (cls flags cycle : Nat) (data : BitVec 48) :
    (L.record path code cls flags cycle data).resets = L.resets := by rw [(L.record_frame path code cls flags cycle data).1]

/-- An entry in the books of lanes changes nothing outside the lanes. -/
theorem State.recordIn_frame (s : State) (ls : LaneSet) (k : Blk) (code : Half) (cls : FClass) (data : Nat) :
    s.recordIn ls k code cls data = { s with lane := (s.recordIn ls k code cls data).lane } := rfl

theorem State.event_frame (s : State) (base n data : Nat) : s.event base n data = { s with lane := (s.event base n data).lane } := rfl

theorem State.eventIn_frame (s : State) (l : Lane) (base n data : Nat) :
    s.eventIn l base n data = { s with lane := (s.eventIn l base n data).lane } := rfl

end Sys2Proof.Machine
end

