-- ==== Sys2Proof/WellFormed.lean ====
section
/-! DEFINITION. WellFormed.lean: the commands whose operands the spec admits. A command that fails a check names
something that the module does not have (an unmapped page, a seventh switch, a detector that no block implements); the
module's surroundings send no such command. -/

namespace Sys2Proof

open Sys2Proof.Machine

/-- The opcodes of R166. -/
def opcodes : List Nat :=
  [0x00, 0x01, 0x02, 0x03, 0x04, 0x05, 0x06, 0x07, 0x08, 0x09, 0x0A, 0x0B, 0x0C, 0x0D, 0x10, 0x11, 0x12, 0x13, 0x14,
   0x15, 0x18, 0x19, 0x1A, 0x1B, 0x1C, 0x1D, 0x1E, 0x1F, 0x20, 0x21, 0x28, 0x29, 0x2A, 0x2C, 0x2D, 0x30]

/-- An opcode that the table of R166 calls reserved. -/
def reservedOp (op : Nat) : Bool := !opcodes.contains op

/-- A page stands at a block of a lane (R113). -/
def Blk.mapped (k : Blk) : Bool := (pageOf (k.region.toNat * 0x1000000 + k.block.toNat * 0x1000)).isSome

/-- A block implements a detector (R420). -/
def Blk.hasDet (k : Blk) (bit : Nat) : Bool :=
  match pageOf (k.region.toNat * 0x1000000 + k.block.toNat * 0x1000) with
  | some (p, i) => (detMask p i).testBit bit
  | none => false

/-- A classic frame carries at most 8 data bytes, an FD frame at most 64 (R541). -/
def CanFrame.wf (f : CanFrame) : Bool := decide (f.data.length ≤ (if f.fd then 64 else 8))

/-- The commands whose operands name what the module has. -/
def Instr.wf : Instr → Bool
  | .cNop _ op f => decide (op.toNat = 0) || reservedOp op.toNat
    || ((op == 0x20 || op == 0x21) && decide (4 ≤ f.toNat / 2 ^ 22))
  | .outEdgeMissing l late => decide (l ≠ late)
  | .lxTransfer link rcv _ => match link with
    | .ab => decide (rcv ≠ .C)
    | .bc => decide (rcv ≠ .A)
    | .ca => decide (rcv ≠ .B)
  | .stepWindowMissed link silent => match link with
    | .ab => decide (silent ≠ .C)
    | .bc => decide (silent ≠ .A)
    | .ca => decide (silent ≠ .B)
  | .faultReport _ k bit _ _ also => k.hasDet bit.toNat && also.all fun f => f.blk.hasDet f.bit.toNat
  | .hsTimeout _ r t => r.mapped && t.mapped
  | .railTest _ region _ => decide (region.toNat < 6)
  | .blockEnable _ k _ _ => k.mapped
  | .blockReset _ k _ _ => k.mapped
  | .indiv _ k _ _ => k.mapped
  | .blkErrClear _ k _ _ => k.mapped
  | .blkErrEnWrite k _ _ => k.mapped
  | .blkClassWrite k _ _ => k.mapped
  | .injection k _ _ => k.mapped
  | .injectionCancel k _ _ => k.mapped
  | .injectionExpiry k => k.mapped
  | .injEnd k => k.mapped
  | .tokenIssue k _ => k.mapped
  | .scrubPass _ region _ _ => decide (region.toNat < 6)
  | .scrubLate _ region => decide (region.toNat < 6)
  | .filterConfirm _ _ _ first runStart _ => decide (first.toNat ≤ runStart.toNat)
  | .switchTest _ sw _ => decide (sw.toNat < 6)
  | .canFrame _ f _ _ _ => f.wf
  | .prepare _ draw => decide (draw ≠ 0)
  | _ => true

end Sys2Proof
end

