-- ==== Sys2Proof/Tests/Slice0.lean ====
section
/-! SUPPORT. Tests/Slice0.lean: the model's own tests. A witness is a state with operands that meet the hypotheses of a statement, each
clause at a boundary of its range; the smoke tests of `Instr.wf` have an ill-formed command for each check; the known answers are those
that the standards named by R362, R365 and R367 publish. -/

namespace Sys2Proof.Tests

open Sys2Proof Sys2Proof.Machine

set_option Elab.async false

/-! ### States for the witnesses -/

/-- The reset state in another module state, under a file. -/
def inState (m : MState) (f : StationFile) : State :=
  { State.reset with drv := { mstate := m, gate := false, vdrv := false, offAt := 0, live := .all false }, file := f }

/-- A file that gives the host port CONFIGURE, lets maintenance sessions in, and configures timer 8191 and counter 1023. -/
def cfgFile : StationFile :=
  { blank := false, hpRole := 2, maintEn := true, commOk := true, injOk := true, timers := [(8191, {})], counters := [(1023, {})] }

/-- A file of a pair in CENTRAL role. -/
def pairFile : StationFile := { cfgFile with paired := true, swapEn := true }

/-- RUN under `cfgFile`. -/
def run : State := inState .run cfgFile

/-- A lane changed in every lane alike. -/
def lanes (s : State) (f : LaneSt → LaneSt) : State := { s with lane := s.lane.map fun _ L => f L }

/-- Lane B out of the vote in a state. -/
def outB (m : LaneMode) (s : State) : State := { s with ctl := { s.ctl with b := { mode := m } } }

/-- A RUN state whose lane A evaluates and whose cell 255 stands at a word in bank 0. -/
def cellState (w : Nat) (c : CellSt) (f : StationFile) : State :=
  let s := inState .run f
  { s with lane := { s.lane with a := { s.lane.a with logic := { s.lane.a.logic with
      evaluating := true, banks := [(255 * 2 ^ 14, BitVec.ofNat 32 w)], slotsOf := [(15, 256)], cells := [(255, c)] } } } }

/-- Cell 255 of lane A, blocked for no clock, its halves equal. -/
def cell255 : CellAt := { lane := .A, cell := 255, stall := 0, mism := false }

/-- A self-signed root certificate of a P-256 key. -/
def rootCert : Bytes := toBe 375 0x3082017330820119a00302010202142898f49076372fc250e32c31ec6600b707380337300a06082a8648ce3d040302300f310d300b06035504030c04526f6f74301e170d3236313132383231353031335a170d3336313132353231353031335a300f310d300b06035504030c04526f6f743059301306072a8648ce3d020106082a8648ce3d0301070342000499f01f0e01a562c0006947ccb6e270b0ead7ca06bb87cc72703ee2e330709d554833e1c0f3413654bb7753dd4090d12fdaaecb9ba13e4aece81a3c27b229cf42a3533051301d0603551d0e0416041493df25d40d6212aa3914a6f647f0947055a0449a301f0603551d2304183016801493df25d40d6212aa3914a6f647f0947055a0449a300f0603551d130101ff040530030101ff300a06082a8648ce3d0403020348003045022100a0569110a4b7d5a7b910a898558429e9924913e79843526c25a58ff6278f11e902202b3ea25eff27b38c214fa1d69f17a616d17c1aaaffaaaa774e4cd93b825de9b4

/-- A certificate that the root issued: organisational unit CONFIGURE, title POSSESSION, serialNumber 00012002, digitalSignature. -/
def peerCert : Bytes := toBe 401 0x3082018d30820132a003020102020106300a06082a8648ce3d040302300f310d300b06035504030c04526f6f74301e170d3236313132393030303130365a170d3336313132363030303130365a303c31123010060355040b0c09434f4e46494755524531133011060355040c0c0a504f5353455353494f4e3111300f0603550405130830303031323030323059301306072a8648ce3d020106082a8648ce3d03010703420004d8849e78202c20ba3d6bb94f15e29ff7b38e0a969de960fae0fc3e96f628528284b45417943d07d14cb2253e0142e0b2d239d814f7406725f344df750fa28d0ca3523050300e0603551d0f0101ff040403020780301d0603551d0e04160414cfbcb3f843b2c3edc3b7c72356d063281df0f72b301f0603551d2304183016801493df25d40d6212aa3914a6f647f0947055a0449a300a06082a8648ce3d0403020349003046022100c2eeb34a1334596c4abd8166afc548afaf083199dad321f833ef7bce56ac36d9022100c3a742456822cfdfb1fb941d256abcf55e3635256f8792c96864d89879882aed

/-- A property of every lane, lane by lane. -/
theorem all_lanes {p : Lane → Prop} : (∀ l : Lane, p l) ↔ p .A ∧ p .B ∧ p .C :=
  ⟨fun h => ⟨h .A, h .B, h .C⟩, fun h l => by cases l <;> tauto⟩

/-! ### Witnesses: states and operands that meet the hypotheses of the statements -/

theorem witness_StepRunsTheFrontCommand : { State.reset with pending := [.hpPoll] }.pending = .hpPoll :: [] := by decide

theorem witness_EmptyQueuePassesTenNanoseconds : State.reset.pending = [] := by decide

theorem witness_EveryStepKeepsFailSafe : State.reset.FailSafe ∧ ∃ t, step State.reset = .next t :=
  ⟨by unfold State.FailSafe DriveSt.ok; decide, _, rfl⟩

/-- The seven reading instructions at the last local bit, and EDGR at it. -/
theorem witness_CellBitReadsAndEdges :
    (∀ op ∈ [0x01, 0x02, 0x03, 0x04, 0x05, 0x06, 0x07, 0x0C, 0x0D],
      (cellState (wordOf op 4095) {} cfgFile).CellReady cell255 (wordOf op (4095 : BitVec 26).toNat))
    ∧ readOperand (cellState (wordOf 1 4095) {} cfgFile) ((cellState (wordOf 1 4095) {} cfgFile).lane.get .A) 255 4095 = some false
    ∧ (4095 : BitVec 26).toNat < 4096 := by
  unfold State.CellReady; decide +kernel

/-- ST of the last local bit, and of the first bit of the block memory, which is held. -/
theorem witness_CellBitWrites :
    (∀ op ∈ [0x08, 0x09, 0x0A, 0x0B], ∀ f ∈ [4095, 2 * 2 ^ 23],
      (cellState (wordOf op f) { a := true } cfgFile).CellReady cell255 (wordOf op (BitVec.ofNat 26 f).toNat))
    ∧ writeOperand ((cellState 0 { a := true } cfgFile).lane.get .A) 255 4095 = some (.loc 4095)
    ∧ writeOperand ((cellState 0 { a := true } cfgFile).lane.get .A) 255 (2 * 2 ^ 23) = some (.held .blk 0 0)
    ∧ (((cellState 0 { a := true } cfgFile).cellAt cell255).e && true) = true
    ∧ (((cellState 0 { e := false } cfgFile).cellAt cell255).e && true) = false
    ∧ holdFull ((cellState 0 {} cfgFile).lane.get .A).logic.held 15 .blk 0 = false := by
  unfold State.CellReady; decide +kernel

theorem witness_CellFieldCompares : ∀ op ∈ [0x18, 0x19, 0x1A, 0x1B, 0x1C, 0x1D, 0x1E, 0x1F],
    (cellState (wordOf op (2 ^ 26 - 1)) {} cfgFile).CellReady cell255 (wordOf op (BitVec.allOnes 26).toNat) := by
  unfold State.CellReady; decide +kernel

/-- LDT at the last of 256 slots. -/
theorem witness_CellStamps : (∀ op ∈ [0x10, 0x11, 0x12, 0x13],
      (cellState (wordOf op (2 * 2 ^ 23 + 255)) {} cfgFile).CellReady cell255 (wordOf op (BitVec.ofNat 26 (2 * 2 ^ 23 + 255)).toNat))
    ∧ slotOperand ((cellState 0 {} cfgFile).lane.get .A) 255 (2 * 2 ^ 23 + 255) = some 255 := by
  unfold State.CellReady; decide +kernel

theorem witness_CellTimeCompares : ∀ op ∈ [0x14, 0x15],
    (cellState (wordOf op (2 ^ 26 - 1)) {} cfgFile).CellReady cell255 (wordOf op (BitVec.allOnes 26).toNat) := by
  unfold State.CellReady; decide +kernel

/-- Timer 8191 and counter 1023, BAR and END. -/
theorem witness_CellCommandsAndStops :
    (∀ fn ∈ [0, 1, 2, 3], (cellState (wordOf 0x20 (fn * 2 ^ 22 + 8191 * 2 ^ 9)) {} cfgFile).CellReady cell255
        (wordOf 0x20 (fn * 2 ^ 22 + (BitVec.ofNat 22 (8191 * 2 ^ 9)).toNat))
      ∧ (cellState (wordOf 0x21 (fn * 2 ^ 22 + 1023 * 2 ^ 12)) {} cfgFile).CellReady cell255
        (wordOf 0x21 (fn * 2 ^ 22 + (BitVec.ofNat 22 (1023 * 2 ^ 12)).toNat)))
    ∧ ((cellState 0 {} cfgFile).timerCfg ((BitVec.ofNat 22 (8191 * 2 ^ 9)).toNat / 2 ^ 9)).isSome = true
    ∧ (BitVec.ofNat 22 (8191 * 2 ^ 9)).toNat % 2 ^ 7 = 0
    ∧ ((cellState 0 {} cfgFile).counterCfg ((BitVec.ofNat 22 (1023 * 2 ^ 12)).toNat / 2 ^ 12)).isSome = true
    ∧ (BitVec.ofNat 22 (1023 * 2 ^ 12)).toNat % 2 ^ 12 = 0
    ∧ (∀ op ∈ [0x2C, 0x2D], (cellState (wordOf op 0) {} cfgFile).CellReady cell255 (wordOf op 0))
    ∧ ((cellState 0 {} cfgFile).cellAt cell255).stack = [] := by
  unfold State.CellReady; decide +kernel

/-- IF with fifteen values on the stack, ELSE and ENDIF with one. -/
theorem witness_CellConditions :
    (cellState (wordOf 0 0) {} cfgFile).CellReady cell255 (wordOf 0 0)
    ∧ (cellState (wordOf 0x28 0) { stack := List.replicate 15 true } cfgFile).CellReady cell255 (wordOf 0x28 0)
    ∧ ((cellState (wordOf 0x28 0) { stack := List.replicate 15 true } cfgFile).cellAt cell255).stack.length < 16
    ∧ (∀ op ∈ [0x29, 0x2A], (cellState (wordOf op 0) { stack := [true] } cfgFile).CellReady cell255 (wordOf op 0))
    ∧ ((cellState 0 { stack := [true] } cfgFile).cellAt cell255).stack = true :: [] := by
  unfold State.CellReady; decide +kernel

/-- ASSERT of class 4 on the last global bit, failing and not. -/
theorem witness_CellAsserts :
    (∀ a ∈ [true, false], (cellState (wordOf 0x30 (4 * 2 ^ 23 + 2 ^ 20 - 1)) { a := a } cfgFile).CellReady cell255
      (wordOf 0x30 (BitVec.ofNat 26 (4 * 2 ^ 23 + 2 ^ 20 - 1)).toNat))
    ∧ (BitVec.ofNat 26 (4 * 2 ^ 23 + 2 ^ 20 - 1)).toNat / 2 ^ 23 = 4
    ∧ (BitVec.ofNat 26 (4 * 2 ^ 23 + 2 ^ 20 - 1)).toNat / 2 ^ 20 % 8 = 0
    ∧ (((cellState 0 { a := true } cfgFile).cellAt cell255).e && !((cellState 0 { a := true } cfgFile).cellAt cell255).a) = false
    ∧ (((cellState 0 {} cfgFile).cellAt cell255).e && !((cellState 0 {} cfgFile).cellAt cell255).a) = true
    ∧ holdFull ((cellState 0 {} cfgFile).lane.get .A).logic.held 15 .img ((0xC0000 * 8 + (2 ^ 20 - 1)) / 32) = false := by
  unfold State.CellReady; decide +kernel


/-- A state at an instant, ns. -/
def at_ (t : Nat) (s : State) : State := { s with now := t }

/-- Each clause at a boundary of its range. -/
theorem witness_SupplyAndHeat : run.mstate ≠ .off ∧ (1599 : Half).toNat < 1600 ∧ (at_ 60000000000 run).power.held = false
    ∧ (at_ 60000000000 run).power.measured + 60000000000 ≤ (at_ 60000000000 run).now
    ∧ { run with power := { run.power with held := true } }.power.held = true
    ∧ (at_ 60000000000 run).power.x1At + 10000000000 ≤ (at_ 60000000000 run).now ∧ run.now < run.power.measured + 60000000000
    ∧ 720 < (721 : Half).toInt ∧ (679 : Half).toInt < 680 ∧ 800 < (801 : Half).toInt ∧ (-400 : Half).toInt < 680 := by
  decide +kernel

theorem witness_KeepAliveAndLeds : run.power.tamper = false
    ∧ { run with power := { run.power with tamper := true } }.power.tamper = true
    ∧ (inState .off cfgFile).mstate = .off ∧ (inState .off cfgFile).power.tamper = false
    ∧ run.mstate ≠ .off ∧ run.accessOf .host ≠ .view
    ∧ (at_ 5000000000 run).power.ledAt + 5000000000 ≤ (at_ 5000000000 run).now
    ∧ (at_ 4999999999 run).now < (at_ 4999999999 run).power.ledAt + 5000000000 := by decide +kernel

theorem witness_PowerUpAndPowerFail : (inState .off cfgFile).mstate = .off ∧ 1680 ≤ (1680 : Half).toNat ∧ run.mstate ≠ .off
    ∧ (let s := at_ 10000000 { run with power := { run.power with held := true } }
       s.mstate ≠ .off ∧ s.power.held = true ∧ s.power.x1At + 10000000 ≤ s.now) := by
  decide +kernel

/-- What a sound lane finds in BOOT. -/
def soundBoot (role pref : Strap) : BootObs := ⟨true, true, role, pref⟩

theorem witness_BootTakesTheStraps : State.reset.mstate = .boot ∧ State.reset.power.strapped = false
    ∧ ({ State.reset with power := { State.reset.power with strapped := true } }).power.strapped = true
    ∧ State.reset.readStraps (.all (soundBoot .linked .opened)) = some (.lineside, false)
    ∧ strapOf (.all (soundBoot .linked .opened)) BootObs.role = some true
    ∧ strapOf (.all (soundBoot .linked .opened)) BootObs.pref = some false
    ∧ strapOf ⟨soundBoot .linked .opened, soundBoot .opened .opened, soundBoot .linked .opened⟩ BootObs.role = none
    ∧ strapOf (.all (soundBoot .linked .between)) BootObs.pref = none ∧ State.reset.gate = false
    ∧ ∀ l ∈ Lane.list, State.reset.mode l ≠ .halted := by decide +kernel

/-- The blank file, as every flash holds it at reset, passes every check; a lane without a file, and one lane left. -/
theorem witness_LoadThenTest :
    (inState .load cfgFile).mstate = .load
    ∧ (inState .load cfgFile).agreedFile (.all ⟨true, true⟩) = some blankFile
    ∧ fileOk ((inState .load cfgFile).repairFiles ((inState .load cfgFile).needRepair (.all ⟨true, true⟩) blankFile) blankFile)
        blankFile = true
    ∧ (inState .load cfgFile).agreedFile ⟨⟨true, true⟩, ⟨false, true⟩, ⟨false, true⟩⟩ = none
    ∧ 2 ≤ (outB .halted (inState .test cfgFile)).starting.count
    ∧ (∀ l ∈ Lane.list, ((((inState .test cfgFile).testChannels [] []).enter .sync).lane.get l).allHeld = [])
    ∧ ({ inState .test cfgFile with ctl := ⟨{}, { mode := .halted }, { mode := .halted }⟩ } : State).starting.count < 2
    ∧ (inState .test cfgFile).gate = false := by decide +kernel

theorem witness_SyncStartsTheLanes : (inState .sync cfgFile).mstate = .sync ∧ (inState .sync cfgFile).file.paired = false
    ∧ (inState .sync cfgFile).isActive .A = true := by decide +kernel

theorem witness_ResetInput : State.reset.mstate ≠ .off ∧ State.reset.stuck = false
    ∧ (at_ 2000000000 State.reset).startAt + 2000000000 ≤ (at_ 2000000000 State.reset).now
    ∧ State.reset.now < State.reset.startAt + 2000000000 ∧ Reg.STC_STAT ≠ Reg.FC_LAST_SAFE := by
  decide +kernel

theorem witness_SyncAndFreeze : run.mstate.agrees = true ∧ run.mode .A ≠ .excluded ∧ run.mode .A ≠ .halted
    ∧ (outB .excluded run).mode .B = .excluded ∧ (outB .halted run).mode .B = .halted := by decide +kernel

/-- Timer 8191 runs, its lanes marked to expire. -/
def timerState : State := lanes run fun L =>
  { L with marks := [8191], image := { L.image with working := [(Img.timer 8191 + 12, 1)] } }

theorem witness_AgreementTimersAndStart :
    { run with cyc := { run.cyc with step := .frozen } }.cyc.step = .frozen ∧ (run.lane.get .A).pend = []
    ∧ timerState.mstate.evaluates = true ∧ timerState.timerCfg (8191 : BitVec 13).toNat = some {}
    ∧ timerState.timerVoted 8191 false = true ∧ timerState.parts.get .C = true ∧ (timerState.lane.get .C).memWf = true
    ∧ ((timerState.lane.get .C).timerFlags 8191).testBit 0 = true
    ∧ { run with cyc := { run.cyc with step := .agreed } }.worksImage = true ∧ run.inStep.get .A = true
    ∧ (run.lane.get .A).logic.evaluating = false ∧ (run.lane.get .A).logic.ended = false := by decide +kernel

/-- A lane that evaluates in its last phase, no cell with a program; and one with a phase to come. -/
def phaseState (phases : Nat) : State := lanes run fun L =>
  { L with logic := { L.logic with evaluating := true, phasesOf := [(0, phases)] } }

theorem witness_BarrierEndsThePhase :
    (∀ n ∈ [1, 8], ((phaseState n).lane.get .A).logic.evaluating = true ∧ ((phaseState n).lane.get .A).atBarrier = true)
    ∧ ((phaseState 1).lane.get .A).phaseCount ≤ ((phaseState 1).lane.get .A).logic.phase + 1
    ∧ ((phaseState 8).lane.get .A).logic.phase + 1 < ((phaseState 8).lane.get .A).phaseCount := by decide +kernel

theorem witness_OutputAndRelease : run.mstate.voting = true
    ∧ (∀ x ∈ [CycStep.agreed, .voted], { run with cyc := { run.cyc with step := x } }.cyc.step = .agreed
        ∨ { run with cyc := { run.cyc with step := x } }.cyc.step = .voted)
    ∧ { run with cyc := { run.cyc with step := .voted } }.cyc.step = .voted
    ∧ { inState .safe cfgFile with cyc := { run.cyc with step := .agreed } }.worksImage = false
    ∧ run.xo.hoPaused = false ∧ { run with xo := { run.xo with hoPaused := true } }.xo.hoPaused = true
    ∧ (run.lane.get .A).field.decaying = false ∧ MState.drives .sync = false
    ∧ ((lanes run fun L => { L with field := { L.field with unpowered := true } }).lane.get .A).field.unpowered = true
    ∧ { run with cyc := { run.cyc with step := .output } }.cyc.step = .output := by decide +kernel

theorem witness_PublicationAndRollForward : run.worksImage = true
    ∧ { run with cyc := { run.cyc with step := .output } }.cyc.step = .output ∧ run.inStep.get .A = true
    ∧ (run.lane.get .A).image.done = false ∧ (32 : Nat) ≤ 32
    ∧ ((lanes run fun L => { L with image := { L.image with rolled := false } }).lane.get .A).image.rolled = false := by
  decide +kernel

theorem witness_LaneExchange : run.mstate.voting = true ∧ linkAt .B .ab = some 0 ∧ run.exchanges .B = true
    ∧ run.exchanges (farEnd .B .ab) = true ∧ (LxLink.ab, Lane.B) ∉ run.lx.retry ∧ (otherLink .B .ab, Lane.B) ∉ run.lx.missed
    ∧ (otherLink .B .ab, Lane.B) ∈ { run with lx := { run.lx with missed := [(.bc, .B)] } }.lx.missed
    ∧ run.inStep.get .A = true ∧ run.twoOfTwo = false ∧ run.isActive .B = true
    ∧ (outB .resync run).mode .B = .resync ∧ (outB .resync run).othersActive .B = true
    ∧ (BitVec.ofNat 20 (resyncPages - 1)).toNat < resyncPages ∧ 0 ∉ ((outB .resync run).ctl.get .B).retry
    ∧ 0 ∈ ({ outB .resync run with ctl := ⟨{}, { mode := .resync, retry := [0] }, {}⟩ }.ctl.get .B).retry := by decide +kernel

/-- A frame coded by the pair waits at NET1. -/
def txState (pair : Nat) (s : State) : State := { s with txq := [⟨.net1, [1, 2], pair, none⟩] }

/-- The pair A, B with the third lane C, in a state where all are ACTIVE, and in one where B has left the vote; the pair A, C without
a third lane. -/
theorem witness_PairedTransmitters : (txState 0 run).nextFrame .net1 = some (⟨.net1, [1, 2], 0, none⟩, [])
    ∧ takeFrame .net1 (txState 0 run).txq = some (⟨.net1, [1, 2], 0, none⟩, [])
    ∧ run.mstate.voting = true ∧ pairLanes 0 = some (.A, .B) ∧ run.isActive .A = true ∧ run.isActive .B = true
    ∧ run.thirdLane (.A, .B) = some .C ∧ (LaneVec.get (⟨[1], [1], [2]⟩ : LaneVec Bytes) .C ≠ [1])
    ∧ (LaneVec.get (⟨[2], [1], [1]⟩ : LaneVec Bytes) .A ≠ LaneVec.get (⟨[2], [1], [1]⟩ : LaneVec Bytes) .B)
    ∧ (LaneVec.get (⟨[2], [1], [1]⟩ : LaneVec Bytes) .C = LaneVec.get (⟨[2], [1], [1]⟩ : LaneVec Bytes) .B)
    ∧ (txState 0 (outB .halted run)).nextFrame .net1 = some (⟨.net1, [1, 2], 0, none⟩, []) ∧ (outB .halted run).isActive .B = false
    ∧ (txState 1 (outB .halted run)).nextFrame .net1 = some (⟨.net1, [1, 2], 1, none⟩, []) ∧ pairLanes 1 = some (.A, .C)
    ∧ (outB .halted run).isActive .C = true ∧ (outB .halted run).thirdLane (.A, .C) = none
    ∧ (LaneVec.get (⟨[1], [1], [2]⟩ : LaneVec Bytes) .A ≠ LaneVec.get (⟨[1], [1], [2]⟩ : LaneVec Bytes) .C)
    ∧ (outB .halted run).gate = false ∧ run.inStep.get .A = true ∧ (run.lane.get .A).wf = true := by decide +kernel

/-- Half-periods at both ends of the window and beyond them. -/
theorem witness_LiveAndSafeGate : run.mstate ≠ .off ∧ run.mstate.voting = true ∧ run.gate = false ∧ run.vdrv = false
    ∧ (∀ x ∈ Lane.list, run.isActive x = true)
    ∧ 9090 ≤ (9090 : Half).toNat ∧ (11110 : Half).toNat ≤ 11110 ∧ (9089 : Half).toNat < 9090 ∧ 11110 < (11111 : Half).toNat
    ∧ ({ run with now := 1000000, ctl := ⟨{ lostAt := some 0 }, {}, {}⟩ }.ctl.get .A).lostAt = some 0
    ∧ (0 + 1000000 ≤ { run with now := 1000000 }.now) ∧ run.liveSignals.get .A = false ∧ (0x10 : Byte) ≠ 0
    ∧ (at_ 200000 run).drv.offAt + 200000 ≤ (at_ 200000 run).now := by decide +kernel

/-- RUN with a count of 2-out-of-2 operation. -/
def degState (ns : Nat) (warn : Bool) : State := { run with deg := { ns := ns, warn := warn, clean := ns } }

/-- 75 % of the limit and the limit itself, and 1 ns before each. -/
theorem witness_DegradedLimit : fieldOf ((degState 0 false).agreedReg Reg.VOTE_CFG) 0 8 = 72
    ∧ run.mstate.voting = true ∧ (degState 0 false).deg.warn = false ∧ (degState 0 true).deg.warn = true
    ∧ 3 * (72 * 3600000000000) ≤ 4 * (degState 194400000000000 false).deg.ns
    ∧ 4 * (degState 194399999999999 false).deg.ns < 3 * (72 * 3600000000000)
    ∧ run.activeCount = 3 ∧ 600000000000 ≤ (degState 600000000000 false).deg.clean ∧ (degState 599999999999 false).deg.clean < 600000000000
    ∧ (outB .halted run).activeCount ≠ 3
    ∧ 72 * 3600000000000 ≤ (degState 259200000000000 true).deg.ns ∧ (degState 259199999999999 true).deg.ns < 72 * 3600000000000
    ∧ run.mstate ≠ .duty ∧ run.lead.isSome = true ∧ run.gate = false := by
  decide +kernel

/-- A standby that has everything for a handover. -/
def ready : Beat := { mstate := 8, role := 2, sync := 2, lanes3 := true, gen := 0, digest := 0, chg := 0, hours := 0 }

/-- A duty module whose standby can take the role. -/
def dutyState : State := { inState .duty pairFile with xo := { role := .holder, hb := true, peer := some ready } }

theorem witness_DegradedLimit_duty : dutyState.mstate = .duty ∧ dutyState.handoverBar = none
    ∧ ({ dutyState with chg := { st := .armed } }).mstate = .duty ∧ ({ dutyState with chg := { st := .armed } }).handoverBar = some 0x42
    ∧ (let s : State := { dutyState with xo := { role := .holder } }
       s.mstate = .duty ∧ s.handoverBar = some 0x41 ∧ s.xo.hoCycle = none ∧ s.lead.isSome = true ∧ s.gate = false) := by decide +kernel

/-- The lanes after evaluation, with one image; lane C answers a route request besides where `a` is not empty. -/
def voteState (a : Bytes) : State :=
  let s := lanes { run with cyc := { run.cyc with step := .agreed } } fun L => { L with logic := { L.logic with ended := true } }
  { s with lane := { s.lane with c := { s.lane.c with logic := { s.lane.c.logic with answers := if a = [] then [] else [(0, a)] } } } }

/-- Lane C in the minority, all three different, and two lanes that differ in 2-out-of-2 operation. -/
theorem witness_DigestVoteDecides : (voteState []).mstate.voting = true ∧ (voteState []).cyc.step = .agreed
    ∧ (∀ l ∈ Lane.list, ((voteState []).lane.get l).logic.ended = true ∧ (voteState []).isActive l = true)
    ∧ (voteState [1]).digestVerdict = .minority .C
    ∧ (let s := voteState [1]
       ({ s with lane := { s.lane with b := { s.lane.b with logic := { s.lane.b.logic with answers := [(1, [])] } } } } : State).digestVerdict
        = .noMajority)
    ∧ (outB .halted (voteState [1])).activeCount = 2 ∧ (outB .halted (voteState [1])).isActive .C = true
    ∧ (outB .halted (voteState [1])).segsDiffer .A .C ≠ [] ∧ (outB .halted (voteState [1])).segsDiffer .C .A ≠ []
    ∧ (outB .halted (voteState [1])).gate = false := by decide +kernel

/-- The class of a report: that of its detector, or of RAIL by the detector that its data name. -/
def classIn (s : State) (k : Blk) (bit data : Nat) : FClass :=
  match s.railOf k bit data with
  | some r => FClass.max r .laneRecover
  | none => s.classOf k bit

/-- RUN with lane A alone in the vote. -/
def aloneState : State := { run with ctl := ⟨{}, { mode := .halted }, { mode := .halted }⟩ }

/-- A report of each class: FIFO overflow, a logic cell's fault, the fault collector's SAFE_CHECK. -/
theorem witness_FaultReports : run.mstate ≠ .off ∧ run.mstate ≠ .safe ∧ run.isActive .A = true ∧ run.gate = false
    ∧ (∀ e ∈ [(Base.fs, 0, FClass.note), (Base.lf 15, 15, .laneRecover), (Base.fc, 2, .moduleSafe)],
      implements (Blk.ofOff e.1) e.2.1 = true ∧ run.Hears .A (Blk.ofOff e.1) e.2.1 0 ∧ classIn run (Blk.ofOff e.1) e.2.1 0 = e.2.2)
    ∧ 2 ≤ run.activeCount ∧ run.mstate.voting = true ∧ run.railOf (Blk.ofOff Base.fs) 0 0 = none
    ∧ aloneState.activeCount = 1 ∧ aloneState.isActive .A = true ∧ aloneState.gate = false ∧ aloneState.Hears .A (Blk.ofOff (Base.lf 15)) 15 0
    ∧ implements (Blk.ofOff (Base.rc 5)) 1 = true ∧ run.Hears .A (Blk.ofOff (Base.rc 5)) 1 0
    ∧ classIn run (Blk.ofOff (Base.rc 5)) 1 0 = .laneRecover := by
  unfold State.Hears; decide +kernel

/-- A reset of a scope in lane A. -/
def resetIn (scope : RScope) (k : Blk) (s : State) : State :=
  { s with lane := { s.lane with a := { s.lane.a with resets := [{ scope, blk := k, at_ := 0 }] } } }

/-- A reset shadow, and the last clock of it. -/
theorem witness_CollectorReports : run.mstate ≠ .off ∧ (Blk.ofOff Base.xo).region.toNat ≤ 5
    ∧ run.shadowed .A (Blk.ofOff Base.xo) = false
    ∧ (resetIn .block (Blk.ofOff Base.fs) run).shadowed .A (Blk.ofOff Base.fs) = true
    ∧ (at_ 9999 (resetIn .block (Blk.ofOff Base.fs) run)).shadowed .A (Blk.ofOff Base.fs) = true
    ∧ (resetIn .block (Blk.ofOff Base.fs) run).shadowed .A (Blk.ofOff Base.xo) = false
    ∧ implements ⟨5, 1⟩ (BitVec.ofNat 5 1).toNat = true ∧ run.masked .A ⟨5, 1⟩ = false ∧ (17 : BitVec 5).toNat < 18 ∧ (5 : BitVec 3).toNat < 6
    ∧ (at_ 10000000000 run).passLate .A (15 : BitVec 5).toNat (passBound (15 : BitVec 5).toNat) = true
    ∧ (at_ 2000000000 run).passLate .A (18 + (5 : BitVec 3).toNat) 2000000000 = true := by decide +kernel

theorem witness_ResetsEnd :
    (∀ scope ∈ [RScope.block, .region, .lane],
      ((resetIn scope (Blk.ofOff Base.fs) run).lane.get .A).resetOf scope (Blk.ofOff Base.fs) = some { scope, blk := Blk.ofOff Base.fs, at_ := 0 }
        ∧ 0 + RScope.bound scope ≤ (at_ (RScope.bound scope) run).now ∧ (at_ (RScope.bound scope - 1) run).now < 0 + RScope.bound scope)
    ∧ (resetIn .lane (Blk.ofOff Base.fs) { run with ctl := ⟨{ mode := .excluded, cls := .laneRecover }, {}, {}⟩ }).mode .A = .excluded
    ∧ ({ run with ctl := ⟨{ mode := .excluded, cls := .laneRecover }, {}, {}⟩ } : State).othersActive .A = true
    ∧ run.mstate ≠ .safe ∧ run.mstate.voting = true := by decide +kernel

theorem witness_BlockControl : (pageOf (Blk.base (Blk.ofOff Base.fs))).isSome = true
    ∧ (∀ l ∈ Lane.list, (State.reset.lane.get l).bit (Blk.base (Blk.ofOff Base.fs) + 0x8) 2 = false ∧ (State.reset.lane.get l).wf = true)
    ∧ (inState .restartLocked cfgFile).AgreesWb .host (Blk.base (Blk.ofOff Base.fs) + 0x8)
    ∧ (inState .restartLocked cfgFile).ctlBar (Blk.ofOff Base.fs) 5 = 0 ∧ (5 : Word).toNat.testBit 1 = false
    ∧ (inState .restartLocked cfgFile).ctlBar (Blk.ofOff Base.fs) (setField 1 1 1 1) = 0
    ∧ (inState .restartLocked cfgFile).accessOf .host = .configure
    ∧ ((resetIn .block (Blk.ofOff Base.fs) run).lane.get .A).inReset (Blk.ofOff Base.fs) = true
    ∧ (run.lane.get .B).inReset (Blk.ofOff Base.fs) = false
    ∧ (outB .excluded run).mode .B = .excluded ∧ (outB .halted run).mode .B = .halted ∧ run.isActive .B = true := by
  unfold State.AgreesWb; simp only [all_lanes]; decide +kernel

theorem witness_EnablesAndClasses : (pageOf (Blk.base (Blk.ofOff Base.fs))).isSome = true
    ∧ run.AgreesWb .host (Blk.base (Blk.ofOff Base.fs) + 0x14) ∧ run.errEnBar (Blk.ofOff Base.fs) 0xFFFFFFFF = 0
    ∧ (run.lane.get .A).wf = true ∧ maskBit (vitalOf (Blk.ofOff Base.fs)) 1 = true
    ∧ (run.lane.get .A).bit (Blk.base (Blk.ofOff Base.fs) + 0x14) 1 = true
    ∧ run.AgreesWb .host (Blk.base (Blk.ofOff Base.fs) + 0x24) ∧ classBar (Blk.ofOff Base.fs) 0x400 = 0
    ∧ FClass.ofCode (fieldOf 0x400 8 3) = some .moduleSafe ∧ SMap.wf classDefault run.classes = true ∧ 31 < 32 := by
  unfold State.AgreesWb; simp only [all_lanes]; decide +kernel

/-- SAFE with nothing left to clear. -/
def safeState : State := { inState .safe cfgFile with drv := { mstate := .safe, gate := true, vdrv := false, offAt := 0, live := .all false } }

theorem witness_ClearingRejoiningRestarting :
    (Blk.ofOff Base.fs).region ≠ 0xF ∧ (pageOf (Blk.base (Blk.ofOff Base.fs))).isSome = true
    ∧ (∀ k ∈ [Blk.ofOff Base.fs, Blk.ofOff Reg.FC_REJOIN], run.mstate ≠ .off ∧ run.accessOf .host ≠ .view
      ∧ ∀ l ∈ Lane.list, (run.lane.get l).inReset k = false)
    ∧ (wLanes (.lane .C)).get .C = true ∧ (run.lane.get .C).wf = true ∧ 31 < 32
    ∧ (outB .halted run).rejoinBar .B = 0
    ∧ safeState.mstate = .safe ∧ safeState.accessOf .host = .configure ∧ safeState.restartBar = 0
    ∧ ((safeState.lane.get safeState.leadLane).journalPlace Reg.FC_CTRL).isSome = true
    ∧ run.AgreesWb .host Reg.FC_CTRL := by
  unfold State.AgreesWb; simp only [all_lanes]; decide +kernel

/-- An open injection into the field sequencer. -/
def injState (forced : Bool) : State :=
  { inState .restartLocked cfgFile with inj := some { blk := Blk.ofOff Base.fs, det := 0, tag := 0, left := 1, lanes := .all true, forced, excl := .all false } }

theorem witness_Injection : (pageOf (Blk.base (Blk.ofOff Base.fs))).isSome = true
    ∧ (inState .restartLocked cfgFile).AgreesWb .host (Blk.base (Blk.ofOff Base.fs) + 0x20)
    ∧ (inState .restartLocked cfgFile).injBar (Blk.ofOff Base.fs) 0x3010000 = 0 ∧ fieldOf 0x3010000 26 1 = 0
    ∧ (injState true).AgreesWb .host (Blk.base (Blk.ofOff Base.fs) + 0x20)
    ∧ (∃ i, (injState true).inj = some i ∧ i.blk = Blk.ofOff Base.fs ∧ (injState true).injDone i = false)
    ∧ (∃ i, (injState false).inj = some i ∧ i.blk = Blk.ofOff Base.fs ∧ (injState false).injDone i = true) := by
  refine ⟨by decide +kernel, ?_, by decide +kernel, by decide +kernel, ?_, ⟨_, rfl, rfl, by decide +kernel⟩, ⟨_, rfl, rfl, by decide +kernel⟩⟩
  all_goals unfold State.AgreesWb; simp only [all_lanes]; decide +kernel

theorem witness_RegisterWrites :
    0xFFFFFFC < 0x10000000 ∧ Reg.SV_FORCE % 4 = 0 ∧ mapped Reg.SV_FORCE = true ∧ holdsWb Reg.SV_FORCE = true ∧ Reg.SV_FORCE % 0x1000 ≠ 8
    ∧ (6 : Nat) < 16 ∧ 6 ≤ 6 ∧ 2 % 4 ≠ 0 ∧ run.mstate ≠ .off ∧ run.accessOf .host = .configure
    ∧ (∀ k ∈ [Blk.ofOff (Base.cv 23), Blk.ofOff Reg.TMR_SEL], ∀ l ∈ Lane.list, (run.lane.get l).inReset k = false)
    ∧ (8191 : Word).toNat % 8192 ≠ 0 ∧ Port.maint 3 ≠ Port.host ∧ (1 : Word).toNat.testBit 0 = true
    ∧ inImageWindow Reg.VOTE_CFG = false ∧ Reg.VOTE_CFG % 4 = 0 ∧ mapped Reg.VOTE_CFG = true ∧ Reg.VOTE_CFG % 0x1000 ≠ 0x28
    ∧ groupOf Reg.VOTE_CFG = none ∧ cbPort Reg.VOTE_CFG = none ∧ advancesCursor Reg.VOTE_CFG = false
    ∧ (∀ x ∈ Lane.list, (run.lane.get x).inReset (Blk.ofOff Reg.VOTE_CFG) = false)
    ∧ run.countedLanes.get .A = true ∧ run.countedLanes.get .C = true
    ∧ run.readReg .A .host Reg.VOTE_CFG = run.readReg .C .host Reg.VOTE_CFG := by decide +kernel

/-- An open session of maintenance port 3, whose keys every lane holds. -/
def maintState : State :=
  lanes { run with maint := [(3, { isOpen := true, access := .configure })] } fun L => { L with tlsKeys := [3] }

theorem witness_RequestFrames : agreedFrame ⟨some [1], some [2], none⟩ = none
    ∧ (maintState.maintSt (3 : BitVec 2).toNat).isOpen = true ∧ (maintState.maintSt (3 : BitVec 2).toNat).queue.length < 8
    ∧ (0x4000FFC : Word).toNat % 0x1000 ≤ 0xFFC ∧ (maintState.maintSt (3 : BitVec 2).toNat).last = none
    ∧ (∀ l ∈ Lane.list, (maintState.lane.get l).tlsKeys.contains (3 : BitVec 2).toNat = true)
    ∧ agreedFrame (run.decrypted (3 : BitVec 2).toNat (.all (some [1]))) = none ∧ (inState .off cfgFile).hostSilent = true
    ∧ run.hostSilent = false ∧ 3 ≤ ([0x0B, 1, 0] : Bytes).length ∧ ([0x0B, 1, 0] : Bytes).getD 0 0 ≠ 0x02
    ∧ beAt [0x0B, 1, 0] (([0x0B, 1, 0] : Bytes).length - 2) 2 ≠ crc16 (([0x0B, 1, 0] : Bytes).take (([0x0B, 1, 0] : Bytes).length - 2))
    ∧ run.hp.resp = none := by decide +kernel

/-- A response that waits for its POLL. -/
def respState (ready : Bool) : State := { run with hp := { resp := some { status := 0, tag := 1, reason := 0, data := [] }, ready } }

/-- A client whose certificate carries the role of the highest code. -/
def client : Client :=
  { port := 5380, tls13 := true, suites := [0x1302], groups := [0x0017], schemes := [0x0403], cert := some peerCert, proofOk := true }

/-- The root of an operator chain is installed. -/
def chainState : State := lanes maintState fun L => { L with keys := { L.keys with chain0 := rootCert } }

set_option maxRecDepth 100000 in
/-- The client's certificate chains to the installed operator chain. -/
theorem witness_ResponsesAndSessions_client : chainState.admitsClient client = some (0x1302, peerCert, 2)
    ∧ chainState.maintListens = true ∧ chainState.freeSession = some 0 := by decide +kernel

set_option maxRecDepth 100000 in
theorem witness_ResponsesAndSessions : run.hostSilent = false ∧ (inState .off cfgFile).hostSilent = true
    ∧ (respState true).hp.resp = some { status := 0, tag := 1, reason := 0, data := [] } ∧ (respState true).hp.ready = true
    ∧ (respState false).hp.ready = false ∧ (respState false).hostSilent = false ∧ (respState true).hostSilent = false
    ∧ ({ run with maint := [(0, { queue := [{ status := 0, tag := 1, reason := 0, data := [] }] })] }.maintSt (0 : BitVec 2).toNat).queue
        = { status := 0, tag := 1, reason := 0, data := [] } :: []
    ∧ (0x2FFFFFFC : Word).toNat / 0x10000000 = Lane.code .C
    ∧ maintState.maintListens = true ∧ client.port = 5380 ∧ ({ client with port := 1 }).port ≠ 5380
    ∧ run.admitsClient { client with tls13 := false } = none
    ∧ maintState.freeSession = some 0 ∧ (inState .run { blankFile with maintEn := false }).maintListens = false
    ∧ SMap.wf (fun _ => ({} : MaintSt)) maintState.maint = true := by decide +kernel

/-- A lane whose working and published images carry generation 1, and a write that lane B alone holds. -/
def pubState : State := lanes run fun L => { L with image := { L.image with published := [(0, 1)] } }

/-- A pending write of SV_FORCE from the host port. -/
def pendW : PendWrite :=
  { addr := Reg.SV_FORCE, value := 0, token := 1, tag := 9, port := .host, access := .configure, cert := false, certId := 0, verdict := 0, age := 0 }

theorem witness_TokensGroupsAndPins : run.mstate ≠ .off ∧ (pageOf (Blk.base (Blk.ofOff Base.xo))).isSome = true
    ∧ (run.lane.get .A).inReset (Blk.ofOff Base.xo) = false
    ∧ ((resetIn .lane (Blk.ofOff Base.fc) run).lane.get .A).inReset (Blk.ofOff Base.xo) = true
    ∧ run.counting.get .A = true ∧ (run.lane.get .A).pend = []
    ∧ pendW ∈ ({ run with lane := { run.lane with b := { run.lane.b with pend := [pendW] } } }.lane.get .B).pend
    ∧ pendW.addr = (BitVec.ofNat 32 (0x40000000 + Reg.SV_FORCE)).toNat % 0x10000000 ∧ pendW.tag = 9
    ∧ groupOf Reg.STC_NOW_LO = some (Reg.STC_NOW_LO, 2) ∧ groupOf (Reg.TALLY_WIN 0) = some (Reg.TALLY_WIN 0, 64)
    ∧ pubState.isActive .C = true ∧ (pubState.lane.get .C).pubGen ≠ 0 ∧ (run.lane.get .C).pubGen = 0
    ∧ (outB .resync pubState).mode .B = .resync
    ∧ (inState .run blankFile).accessOf .host = .view ∧ run.accessOf .host ≠ .view ∧ (run.lane.get .A).wf = true := by decide +kernel

/-- Unit `u` runs a computation in every lane, with flags in its configuration. -/
def cvState (u cfg : Nat) (bytes : Nat) : State := lanes run fun L =>
  ({ L with cv := [(u, { fg := { st := 1, bytes } })] } : LaneSt).setReg (Reg.CV_CFG u) (BitVec.ofNat 32 cfg)

theorem witness_CheckValueCommands :
    (∀ u ∈ [24, 31], 24 ≤ (BitVec.ofNat 5 u).toNat ∧ run.mstate ≠ .off ∧ run.accessOf .host ≠ .view
      ∧ (∀ l ∈ Lane.list, (run.lane.get l).inReset (Blk.ofOff (Base.cv u)) = false
        ∧ ((cvState u 0x20 3).lane.get l).inReset (Blk.ofOff (Base.cv u)) = false))
    ∧ (wLanes (.lane .C)).get .C = true ∧ (wLanes (.lane .C)).get .A = false
    ∧ ((run.lane.get .A).bit (Reg.CV_CFG 24) 9 = false) ∧ ((run.lane.get .A).cvUnit 24).fg.st ≠ 1
    ∧ (∀ l ∈ Lane.list, (((cvState 31 32 3).lane.get l).cvUnit 31).fg.st = 1 ∧ ((cvState 31 32 3).lane.get l).bit (Reg.CV_CFG 31) 10 = false)
    ∧ (((cvState 31 (32 + 1024) 3).lane.get .A).bit (Reg.CV_CFG 31) 10 = true)
    ∧ ((cvState 31 (32 + 1024) 3).lane.get .A).cvOut 31 0 = 0
    ∧ ((cvState 31 (32 + 1024) 3).lane.get .A).pairReg (Reg.CV_EXP_LO 31) (Reg.CV_EXP_HI 31) = 0
    ∧ (((lanes (cvState 31 (32 + 1024) 3) fun L => L.setReg (Reg.CV_EXP_LO 31) 1).lane.get .A).pairReg (Reg.CV_EXP_LO 31) (Reg.CV_EXP_HI 31)
        % 2 ^ ((lanes (cvState 31 (32 + 1024) 3) fun L => L.setReg (Reg.CV_EXP_LO 31) 1).lane.get .A).cvWidth 31 = 1) := by
  decide +kernel

theorem witness_CheckValueOfByteString : 24 ≤ (31 : BitVec 5).toNat ∧ run.mstate ≠ .off ∧ run.accessOf .host ≠ .view
    ∧ (∀ l ∈ Lane.list, (run.lane.get l).inReset (Blk.ofOff (Base.cv 31)) = false ∧ (run.lane.get l).fld (Reg.CV_CFG 31) 9 2 = 0)
    ∧ 8 ≤ ((cvState 31 8 0).lane.get .A).cvWidth 31 ∧ ((cvState 31 64 0).lane.get .A).cvWidth 31 ≤ 64 := by decide +kernel

/-- A lane with a cell program whose check value the file records as 5. -/
def progState : State := lanes run fun L => { L with flash := { active := { blankFile with progs := [⟨255, [0xB4000000], 5⟩], crc := 6 } } }

theorem witness_Background : run.mstate ≠ .off ∧ (23 : BitVec 5).toNat < 24
    ∧ (((lanes run fun L => { L with cv := [(23, { saved := true })] }).lane.get .A).cvUnit (23 : BitVec 5).toNat).saved = true
    ∧ (progState.lane.get .A).cellCrc (16 * (15 : BitVec 4).toNat + (15 : BitVec 4).toNat) = some 5 ∧ (5 : Word) = 5 ∧ (5 : Word) ≠ 4
    ∧ (6 : Word) = (progState.lane.get .A).flash.active.crc ∧ (7 : Word) ≠ (progState.lane.get .A).flash.active.crc
    ∧ (5 : BitVec 3).toNat < 6 ∧ (run.lane.get .A).wf = true
    ∧ (((lanes run fun L => { L with cv := [(23, { fixed := [(15, 2 ^ 28 - 32, 7)] })] }).lane.get .A).cvUnit
        (18 + (5 : BitVec 3).toNat)).fixed.contains ((15 : BitVec 4).toNat, (2 ^ 28 - 1 : BitVec 28).toNat / 32 * 32, (7 : BitVec 3).toNat) = true
    ∧ outerCheck (0 : BitVec 28).toNat [1] = (BitVec.ofNat 16 (outerCheck 0 [1])).toNat
    ∧ outerCheck (0 : BitVec 28).toNat [1] ≠ outerCheck 0 [2] := by decide +kernel

/-- One route of number 16383, set by session 63 and cancelled by session 0. -/
def routeFile : StationFile := { cfgFile with routes := [⟨16383, 1, 1, 2, [63], [0], []⟩] }

/-- Its request. -/
def req : ReqRec := { op := 1, rsv := 0, routeId := 1, tag := 5, rsv2 := 0 }

/-- The route's record in every lane: state, slot; the state and the tag's slot 511. -/
def routeAt (st slot slotSt : Nat) : State := lanes (inState .run routeFile) fun L =>
  (L.imgPut (Img.route 16383) [byteOf st, 0, 0, 0, byteOf slot, byteOf (slot / 256)]).imgPut (Img.slot 511)
    ([byteOf slotSt, 63, 1, 0, 5, 0, 0, 0])

theorem witness_RouteRecords : (inState .run routeFile).mstate = .run ∧ run.routeById req.routeId.toNat = none
    ∧ ({ inState .run routeFile with role := .lineside }).role = .lineside
    ∧ (inState .run routeFile).routeById req.routeId.toNat = some ⟨16383, 1, 1, 2, [63], [0], []⟩
    ∧ 16383 < 16384 ∧ req.rsv = 0 ∧ req.rsv2 = 0 ∧ req.tag ≠ 0
    ∧ (inState .run routeFile).inStep.get .A = true ∧ ((inState .run routeFile).lane.get .A).logic.decided < 64
    ∧ ((inState .run routeFile).lane.get .A).memWf = true ∧ ([63].contains 63 = true) ∧ ([63].contains 0 = false)
    ∧ ((inState .run routeFile).lane.get .A).tagSlot req.routeId.toNat req.tag.toNat 8 (some 63) = none
    ∧ ((inState .run routeFile).lane.get .A).setBar 16383 = 0
    ∧ ((routeAt 7 511 2).lane.get .A).setBar 16383 ≠ 0
    ∧ ((routeAt 7 511 2).lane.get .A).tagSlot req.routeId.toNat 6 12 none = none
    ∧ ((routeAt 1 511 1).lane.get .A).routeState 16383 = 1 ∧ ((routeAt 7 511 2).lane.get .A).routeState 16383 = 7
    ∧ ((inState .run routeFile).lane.get .A).routeState 16383 = 0 ∧ ((routeAt 7 511 2).lane.get .A).memWf = true
    ∧ ((lanes (inState .run routeFile) fun L => { L with logic := { L.logic with decided := 64 } }).lane.get .A).logic.decided = 64
    ∧ ((routeAt 0 0 15).lane.get .A).slotState (511 : BitVec 9).toNat = 0xF
    ∧ 4 ≤ (([(511, 4)] : List (Nat × Nat)).lookup 511).getD 0 ∧ ((routeAt 0 0 2).lane.get .A).slotState (511 : BitVec 9).toNat ≠ 0xF := by
  decide +kernel

/-- PTP at NET1 is the source, its table of two masters. -/
def ptpFile : StationFile := { cfgFile with clockSrc := 1, net1 := { masters := [5, 6], domain := 127 } }

/-- PTP at NET1 follows master 5. -/
def ptpState (st : BitVec 2) (n : Nat) : State :=
  { inState .run ptpFile with
    ptp1 :=
      { st := st, master := some 0, best := { prio1 := 9, gm := 5 }, run := n, waitFu := true, seq := 3, reqSeq := 4, gotPair := true, missed := 3,
        noResp := 3 } }

/-- The head of a message of a clock in domain 127. -/
def ptpHead (clock : DWord) (interval : Byte) : PtpHead := { v6 := false, domain := 127, master := clock, interval }

theorem witness_ClockFollowsItsSource : (ptpState 3 15).source ≠ 0 ∧ (ptpState 3 15).srcLost = none
    ∧ (at_ 10000000000 { ptpState 3 15 with srcLost := some 0 }).srcLost = some 0
    ∧ 0 + 10000000000 ≤ (at_ 10000000000 { ptpState 3 15 with srcLost := some 0 }).now
    ∧ ({ ptpState 3 15 with srcLost := some 0 }).now < 0 + 10000000000 ∧ (run.lane.get .A).wf = true
    ∧ (1000000000 < (1000000001 : DWord).toInt) ∧ ((-1000000000 : DWord).toInt = -1000000000)
    ∧ (ptpState 3 15).runsPtp .net1 = true ∧ (ptpState 3 15).takesPtp .net1 (ptpHead 6 0) = true
    ∧ (ptpState 3 15).masterIdx .net1 6 = some 1 ∧ ((ptpState 3 15).ptp .net1).master = some 0 ∧ (0 : Nat) ≠ 1
    ∧ betterClock { prio1 := 8, gm := 6 } ((ptpState 3 15).ptp .net1).best 6 5 = true
    ∧ betterClock { prio1 := 10, gm := 6 } ((ptpState 3 15).ptp .net1).best 6 5 = false
    ∧ (inState .run ptpFile).takesPtp .net1 (ptpHead 5 0) = true ∧ (inState .run ptpFile).masterIdx .net1 5 = some 0
    ∧ ((inState .run ptpFile).ptp .net1).master = none
    ∧ (ptpState 3 15).takesPtp .net1 (ptpHead 7 0) = false
    ∧ (∀ i ∈ [0xF9, 1], (ptpState 3 15).fromMaster .net1 (ptpHead 5 i) = true ∧ -7 ≤ i.toInt ∧ i.toInt ≤ 1)
    ∧ ((ptpState 3 15).ptp .net1).waitFu = true ∧ ((ptpState 3 15).ptp .net1).seq = 3 ∧ ((ptpState 3 15).ptp .net1).st = 3
    ∧ ((ptpState 3 15).ptp .net1).noResp < 4 ∧ ((ptpState 3 15).ptp .net1).missed < 4
    ∧ ({ ptpState 3 15 with ptp1 := { (ptpState 3 15).ptp1 with waitFu := false } } : State).fromMaster .net1 (ptpHead 5 1) = true
    ∧ (({ ptpState 3 15 with ptp1 := { (ptpState 3 15).ptp1 with waitFu := false } } : State).ptp .net1).waitFu = false
    ∧ ((ptpState 2 0).ptp .net1).st ≠ 3 ∧ ((ptpState 3 15).ptp .net1).run = 15 ∧ (ptpState 3 15).mstate ≠ .standby
    ∧ decide (-10000 ≤ agreedOffset (ptpState 3 15).measuring (.all 10000) ∧ agreedOffset (ptpState 3 15).measuring (.all 10000) ≤ 10000) = true
    ∧ ((ptpState 3 15).ptp .net1).gotPair = true ∧ ((ptpState 3 15).ptp .net1).reqSeq = 4 ∧ run.runsPtp .net1 = false
    ∧ (ptpState 3 15).parts.get .C = true := by decide +kernel

/-- Input 0 in wire-break mode, output 255 with a dark pulse. -/
def chanFile : StationFile := { cfgFile with chans := [(0, { mode := 1, itype := 2 }), (255, { mode := 2, dark := true })] }

/-- RUN with these channels. -/
def chanState : State := inState .run chanFile

/-- Output 255 energised in every lane, every path of it conducting. -/
def chanOn : State := lanes { chanState with fld := { bank := [(15, { closed := true })] }, ctl := .all { permit := true } } fun L =>
  { L with
    field := { L.field with cmd := 2 ^ 255, sense := [(255, { iAB := true, iBC := true, iCA := true })] }, liveOk := .all true }

/-- The readings of a switch test: the midpoint before, at 20 µs and at 45 µs, the current of every path, the readback. -/
def swRead (before at20 at45 : BitVec 10) (i : BitVec 16) (rb : Bool) : LaneVec SwReadings :=
  .all ⟨before, at20, ⟨i, i, i⟩, rb, at45, ⟨i, i, i⟩⟩

/-- What another channel shows that follows the pulse. -/
def follower : FollowObs := { ch := 0, at0 := .all true, at60 := .all false, at80 := .all true }

/-- A test of output 255 that runs since the start. -/
def runTest : RunTest := { ch := 255, sw := some 5, on := true, at_ := 0, till := 45000, codes := [] }

def testing : State :=
  { chanOn with fld := { chanOn.fld with bank := [(15, { closed := true, running := some runTest })] } }

/-- The next edge of the filter, its hold by a running test, the readings of the wire-break mode, a full FIFO. -/
theorem witness_FieldTests : (chanState.chanCfg (0 : BitVec 8).toNat).mode ≠ 0 ∧ (chanState.chanCfg (255 : BitVec 8).toNat).mode = 2
    ∧ SMap.wf (fun _ => ({} : BankSt)) chanOn.fld.bank = true ∧ SMap.wf (fun _ => ({} : ChanSt)) chanOn.fld.chan = true
    ∧ SMap.wf (fun _ => ({} : BankSt)) testing.fld.bank = true
    ∧ chanState.filterHeld 0 = false ∧ chanState.classOfReading 0 (.current 2200) = some .on
    ∧ chanState.classOfReading 0 (.current 349) = some .broken ∧ chanState.classOfReading 255 (.level true) = some .on
    ∧ chanState.classOfReading 0 (.level true) = none ∧ testing.filterHeld 255 = true
    ∧ chanState.wireBreak 0 = true ∧ chanState.wireBreak 255 = false
    ∧ chanBit (chanState.lane.get .A).field.filt 0 = false ∧ (chanState.lane.get .A).field.fifo.length < 1024
    ∧ chanBit ((lanes chanState fun L => { L with field := { L.field with filt := 1 } }).lane.get .A).field.filt 0 = true
    ∧ chanBit (chanState.lane.get .A).field.seeded 0 = false ∧ chanBit (1 : BitVec 256) 0 = true
    ∧ 1024 ≤ (List.replicate 1024 ({ ch := 0, rise := true, stamp := 0, unc := 0, defer := false } : Edge)).length
    ∧ chanState.mstate.testsInputs = true ∧ 2 ≤ chanState.counting.count
    ∧ chanState.testRead 0 ⟨.current 0, .current 1000, .current 3000⟩ = true
    ∧ chanState.testRead 0 ⟨.current 1000, .current 1000, .current 3000⟩ = false := by
  decide +kernel

/-- A switch test of an output that is off and of one that is energised, in the cases of R264; a dark pulse; the end of a test and a
test that is cut short; the checks of TEST_LATE and LISTEN_MISMATCH. -/
theorem witness_FieldTests_ladder :
    chanState.settleTests.switchTestable (255 : BitVec 8).toNat (5 : BitVec 3).toNat = true
    ∧ chanState.settleTests.turnOf 255 (some 5) = true ∧ chanState.settleTests.energised 255 = false
    ∧ chanOn.settleTests.switchTestable 255 5 = true ∧ chanOn.settleTests.turnOf 255 (some 5) = true
    ∧ chanOn.settleTests.energised 255 = true
    ∧ (chanState.settleTests.voteReadings 255 (swRead 751 0 0 0 false)).before = .high
    ∧ (chanState.settleTests.voteReadings 255 (swRead 249 0 0 0 false)).before = .low
    ∧ (chanState.settleTests.voteReadings 255 (swRead 350 0 650 20 false)).before = .mid
    ∧ (chanState.settleTests.voteReadings 255 (swRead 350 0 650 20 false)).mid20 = .low
    ∧ (chanState.settleTests.voteReadings 255 (swRead 350 0 650 20 false)).mid45 = .mid
    ∧ (chanState.settleTests.voteReadings 255 (swRead 350 0 650 20 false)).i20.c = false
    ∧ (chanState.settleTests.voteReadings 255 (swRead 350 0 650 20 false)).rb20 = false
    ∧ (chanState.settleTests.voteReadings 255 (swRead 350 500 650 50 false)).mid20 = .mid
    ∧ (chanState.settleTests.voteReadings 255 (swRead 350 500 650 50 false)).i20.c = true
    ∧ (chanOn.settleTests.voteReadings 255 (swRead 350 500 650 50 false)).i45.c = true
    ∧ chanOn.settleTests.darkTestable 255 = true ∧ chanOn.settleTests.turnOf 255 none = true
    ∧ 2 ≤ (chanOn.settleTests.voters 255).count ∧ chanOn.settleTests.wiredTo 255 follower = true
    ∧ ((at_ 45000 testing).bank (255 / 16)).running = some runTest
    ∧ 45000 ≤ (at_ 45000 testing).now
    ∧ (testing.settleTests.bank (255 / 16)).running = some runTest
    ∧ (at_ 8000000000 chanState).testsLate (255 : BitVec 8).toNat = true ∧ (at_ 7999999999 chanState).testsLate (255 : BitVec 8).toNat = false
    ∧ (inState .standby chanFile).mstate = .standby ∧ (inState .standby chanFile).chanCfg 0 = { mode := 1, itype := 2 }
    ∧ chanState.mstate ≠ .standby := by
  decide +kernel

theorem witness_BanksAndTrips : SMap.wf (fun _ => ({} : ChanSt)) chanOn.fld.chan = true
    ∧ SMap.wf (fun _ => ({} : BankSt)) chanOn.fld.bank = true ∧ 15 < 16 ∧ (chanOn.chanCfg (16 * (15 : BitVec 4).toNat + 15)).mode ≠ 0
    ∧ chanOn.parts.get .A = true ∧ (chanOn.bank (15 : BitVec 4).toNat).closed = true ∧ (chanState.bank (15 : BitVec 4).toNat).closed = false
    ∧ (chanOn.bank (15 : BitVec 4).toNat).latched = false ∧ (chanOn.bank (15 : BitVec 4).toNat).low = false
    ∧ (chanOn.bank (15 : BitVec 4).toNat).high = false
    ∧ chanOn.banksVote (.all 1919) (fun v => decide (v < 1920)) = true ∧ chanOn.banksVote (.all 3001) (fun v => decide (3000 < v)) = true
    ∧ chanOn.banksVote (.all 1920) (fun v => decide (v < 1920)) = false ∧ chanOn.banksVote (.all 3000) (fun v => decide (3000 < v)) = false
    ∧ chanOn.banksVote (.all 1920) (fun v => decide (1920 ≤ v ∧ v ≤ 3000)) = true
    ∧ chanOn.banksVote (.all 1919) (fun v => decide (1920 ≤ v ∧ v ≤ 3000)) = false
    ∧ chanOn.banksVote (.all 1601) (fun i => decide (1600 < i)) = true ∧ chanOn.banksVote (.all 1600) (fun i => decide (1600 < i)) = false
    ∧ 255 / 16 = (15 : BitVec 4).toNat ∧ chanOn.isOutput (255 : BitVec 8).toNat = true
    ∧ 2 ≤ (([0, 1] : List Nat).filter fun x => decide (chanOn.now < x + 60000000000)).length
    ∧ chanOn.AgreesWb .host (Reg.BANK_CLEAR (15 : BitVec 4).toNat) ∧ (0x8000 : Word).toNat.testBit 15 = true
    ∧ (({ chanOn with fld := { bank := [(15, { latched := true })] } }).bank (15 : BitVec 4).toNat).latched = true := by
  unfold State.AgreesWb; simp only [all_lanes]; decide +kernel


/-! ### Witnesses: the Platform Link -/

/-- A timetable entry of period 1: start, kind, length and unit (R309). -/
def ttE (start kind length unit : Nat) : TtEntry := ⟨BitVec.ofNat 32 (start + kind * 2 ^ 29), BitVec.ofNat 32 (length + unit * 2 ^ 16)⟩

/-- A station with unit 2 in slot 1 of mode 0, an INVITE slot 2, and a second mode. -/
def linkFile : StationFile :=
  { cfgFile with
    baseM := 0x800, linkSalt := 77, unitId := 2, ttDigest := 9, units := [⟨2, 2, 100, 254, 3, 500, 64⟩]
    tables := [⟨0, 1, [ttE 0 1 500 0, ttE 1000 2 5000 2, ttE 8000 3 5000 0]⟩,
      ⟨1, 2, [ttE 0 1 500 0, ttE 8000 3 5000 0]⟩] }

/-- RUN with the Platform Link in a state. -/
def linkState (f : StationFile) (k : LinkSt) : State := { inState .run f with link := k }

/-- A frame received by every lane on channel A. -/
def linkRx (sAt endAt : DWord) (bytes : Bytes) : LinkRx :=
  { ch := .chA, bytes, lanes := .all true, sAt, endAt }

/-- A coded frame of a type from a node. -/
def coded (type src dst slot bc seq len : Nat) (body : Bytes) : Bytes :=
  let h := linkHead type 1 src dst slot bc len
  linkFrame h (linkCoded 0 77 src seq h body)

/-- COLD_START and REFERENCE of a master. -/
def coldFrame (src : Nat) : LinkRx := linkRx 0 100 (coded 5 src 0xFFFF 0 0 9 48 (List.replicate 12 0 ++ toBe 4 9 ++ List.replicate 24 0))

def refFrame (src bc stime : Nat) : LinkRx := linkRx 0 100 (coded 1 src 0xFFFF 0 bc bc 48
  (toBe 8 bc ++ toBe 8 stime ++ [0, 0, 0, 0] ++ toBe 4 0 ++ toBe 4 1 ++ toBe 2 0 ++ toBe 2 0 ++ toBe 4 9 ++ toBe 4 0))

/-- A REFERENCE one basic cycle after the instant 0, its last moment for that number. -/
def lateRef (src bc : Nat) : LinkRx := { refFrame src bc 100 with sAt := BitVec.ofNat 64 ((linkState linkFile {}).bcNs / 2 * 3 - 1) }

/-- The secondary module of a pair, whose node identity is the higher. -/
def secondFile : StationFile := { linkFile with paired := true }

theorem witness_ColdStartAndIntegration :
    (linkState linkFile { node := .listen }).link.node = .listen ∧ (linkState linkFile { node := .listen }).role = .central
    ∧ (linkState linkFile { node := .listen }).link.seen = none ∧ (linkState linkFile { node := .listen }).link.heardCold = false
    ∧ (linkState linkFile { node := .listen, coldReady := true }).link.coldReady = true
    ∧ (linkState linkFile { node := .listen, coldReady := true }).link.copies = []
    ∧ (linkState linkFile { node := .listen, heardCold := true }).link.heardCold = true
    ∧ (linkState linkFile { node := .backoff }).link.node = .backoff ∧ (linkState linkFile { node := .backoff }).link.coldReady = false
    ∧ (linkState linkFile { node := .coldstart, collisions := 6 }).link.collisions < 7
    ∧ 7 ≤ (linkState linkFile { node := .coldstart, collisions := 7, clash := true }).link.collisions
    ∧ (linkState linkFile { node := .coldstart, clash := true }).link.clash = true
    ∧ (inState .sync linkFile).file.paired = false ∧ linkSound linkFile [] = false
    ∧ ({ linkState linkFile { node := .answering } with role := .lineside }).link.node = .answering := by decide +kernel

set_option maxRecDepth 20000 in
/-- Frames of the other master-capable node at a node that listens, backs off, cold-starts or is the master. -/
theorem witness_ColdStartAndIntegration_frames :
    (∀ n ∈ [NodeState.listen, .backoff, .coldstart, .master],
      (linkState linkFile { node := n }).GoodFrame (coldFrame 0x801) 5 none
        ((linkState linkFile { node := n }).isMasterId (lkSrc (coldFrame 0x801).bytes) && lkDst (coldFrame 0x801).bytes == 0xFFFF
          && lkSlot (coldFrame 0x801).bytes == 0 && lkBc (coldFrame 0x801).bytes == 0)
      ∧ lkSrc (coldFrame 0x801).bytes ≠ (linkState linkFile { node := n }).nodeId)
    ∧ (linkState linkFile { node := .listen }).GoodFrame (refFrame 0x801 7 100) 1 none
        ((linkState linkFile { node := .listen }).refPlaced (refFrame 0x801 7 100))
    ∧ (linkState linkFile { node := .follow, bc64 := 6 }).GoodFrame (lateRef 0x801 7) 1 none
        ((linkState linkFile { node := .follow, bc64 := 6 }).refPlaced (lateRef 0x801 7))
    ∧ lkSrc (refFrame 0x801 7 100).bytes ≠ (linkState linkFile {}).nodeId
    ∧ refAgree (linkState linkFile { node := .listen }) (refOf (refFrame 0x801 7 100))
        (refOf (refFrame 0x801 8 (100 + (linkState linkFile {}).bcNs))) = true
    ∧ refAgree (linkState linkFile { node := .listen }) (refOf (refFrame 0x801 7 100)) (refOf (refFrame 0x801 9 100)) = false
    ∧ (linkState secondFile { node := .master }).GoodFrame (refFrame 0x800 7 100) 1 none
        ((linkState secondFile { node := .master }).refPlaced (refFrame 0x800 7 100))
    ∧ lkSrc (refFrame 0x800 7 100).bytes < (linkState secondFile { node := .master }).nodeId := by
  simp only [State.GoodFrame, reduceCtorEq, false_implies, implies_true, true_and]
  decide +kernel

/-- A master that is to start its next basic cycle, unit 2 admitted or not. -/
def masterState (k : LinkSt) (admitted : Bool) : State :=
  { linkState linkFile { k with node := .master, litA := true, litB := true } with
    adm := if admitted then [(2, { admitted := true, pdA := 5, pdB := 0xFFFF, acked := true })] else [] }

theorem witness_MasterSchedule :
    (masterState { announceDue := true } true).link.node = .master ∧ (masterState {} true).link.copies = []
    ∧ SMap.wf (fun _ => ({} : UnitAdm)) (masterState {} true).adm = true
    ∧ (masterState {} true).link.litA = true ∧ (masterState {} true).link.litB = true
    ∧ (masterState {} true).link.next = 0 ∧ (masterState {} true).link.coldDue = false
    ∧ ((masterState { announceDue := true } true).link.ttPos + 1) % (masterState {} true).ttLen = 0
    ∧ (masterState { pending := true, bc64 := 63, target := 64 } true).link.pending = true ∧ (63 + 1) % 2 ^ 32 = 64
    ∧ (masterState { coldDue := true } true).link.coldDue = true
    ∧ (masterState { next := 0x801 } true).link.next ≠ 0 ∧ (masterState { next := 0x801 } true).link.changeLeft = 0
    ∧ (linkState linkFile { node := .follow, next := 0x800, changeLeft := 2, litA := true, litB := true }).link.next
        = (linkState linkFile { node := .follow }).nodeId
    ∧ (linkState linkFile { node := .follow, next := 0x801 }).link.next ≠ (linkState linkFile { node := .follow }).nodeId
    ∧ (linkState linkFile { node := .follow }).refSeen = false
    ∧ (linkState linkFile { node := .follow, seen := some ⟨0, 0, 0, 0, 0, 0x801, 0⟩ }).refSeen = true
    ∧ (linkState linkFile { node := .answering }).link.node = .answering
    ∧ (∀ n ∈ [NodeState.master, .follow, .integrated, .answering], n.inside = true) ∧ NodeState.listen.inside = false
    ∧ (masterState {} true).table = some ⟨0, 1, [ttE 0 1 500 0, ttE 1000 2 5000 2, ttE 8000 3 5000 0]⟩
    ∧ (∀ t ∈ (masterState {} true).table, t.entryAt (1 : BitVec 10).toNat 0 = some (ttE 1000 2 5000 2)
      ∧ t.entryAt (2 : BitVec 10).toNat 0 = some (ttE 8000 3 5000 0))
    ∧ ((masterState {} true).unitAdm 2).admitted = true ∧ (masterState {} true).mstate.polls = true
    ∧ (masterState {} false).nextInvite = some 2 ∧ (masterState {} true).AgreesWb .host Reg.PL_MODE_REQ
    ∧ (masterState {} true).modeReqBar (fieldOf 1 0 3) = 0 ∧ (masterState { pending := true, pendMode := 1 } true).link.pending = true
    ∧ ((masterState { pending := true } true).unitAdm 2).acked = true ∧ ((masterState {} false).unitAdm 2).acked = false := by
  unfold State.AgreesWb; simp only [all_lanes]; decide +kernel

/-- The master polls or invites unit 2 in slot 1. -/
def polling (invited pending : Bool) : State :=
  masterState { polled := 2, slot := 1, invited := invited, pending := pending, pendMode := 1, target := 64, slotLen := 1000000 }
    (!invited)

/-- Unit 2, admitted, is invited once more. -/
def reinvited : State := { polling true false with adm := (polling false false).adm }

/-- The answers of unit 2. -/
def ackRx : LinkRx := linkRx 50000 100000 (coded 4 2 0x800 1 0 0 16 (toBe 2 2 ++ [1, 0] ++ toBe 4 64))

def joinRx (digest : Nat) : LinkRx :=
  linkRx 3024 100000 (coded 6 2 0x800 1 0 0 32 (toBe 2 2 ++ [2, 0] ++ toBe 4 digest ++ toBe 4 9 ++ List.replicate 12 0))

def respRx (endAt : DWord) : LinkRx :=
  let t := tgBytes 1 2 0 0 2 0x800 1 0 0 0 77 0 (List.replicate 336 0)
  linkRx 50000 endAt (linkFrame (linkHead 3 1 2 0x800 1 0 t.length) t)

set_option maxRecDepth 20000 in
theorem witness_LinkAnswersAndPolls :
    (polling true false).unitAdm 2 = {} ∧ SMap.wf (fun _ => ({} : UnitAdm)) (polling false true).adm = true
    ∧ SMap.wf (fun _ => ({} : UnitAdm)) (reinvited).adm = true ∧ (reinvited.unitAdm 2).admitted = true ∧ reinvited.link.invited = true
    ∧ reinvited.joinBar 2 0 (lkBody (joinRx 3).bytes) = 0 ∧ reinvited.answerWindow .chA = some (2000, 999000)
    ∧ reinvited.inSlot (joinRx 3).bytes = true
    ∧ (∀ x ∈ [ackRx, joinRx 3, joinRx 4, respRx 100000, respRx 999001], linkSound linkFile x.bytes = true)
    ∧ (polling false true).role = .central ∧ (polling false true).inSlot ackRx.bytes = true
    ∧ (polling true false).inSlot (joinRx 3).bytes = true ∧ (polling false false).inSlot (respRx 100000).bytes = true
    ∧ (polling false true).answerWindow .chA = some (2050, 999000) ∧ (polling true false).answerWindow .chA = some (2000, 999000)
    ∧ lkType (respRx 100000).bytes = 3 ∧ (decide (2050 ≤ (respRx 100000).sAt.toNat) && decide ((respRx 100000).endAt.toNat ≤ 999000)) = true
    ∧ (decide (2050 ≤ (respRx 999001).sAt.toNat) && decide ((respRx 999001).endAt.toNat ≤ 999000)) = false
    ∧ byteAt (lkBody ackRx.bytes) 2 = (polling false true).link.pendMode ∧ beAt (lkBody ackRx.bytes) 4 4 = (polling false true).link.target
    ∧ beAt (lkBody ackRx.bytes) 0 2 = 2 ∧ ((polling true false).unitAdm 2).admitted = false
    ∧ (polling true false).joinBar 2 0 (lkBody (joinRx 3).bytes) = 0 ∧ (polling true false).joinBar 2 0 (lkBody (joinRx 4).bytes) ≠ 0
    ∧ (polling true false).unitCfg 2 = some ⟨2, 2, 100, 254, 3, 500, 64⟩ := by decide +kernel

set_option maxRecDepth 20000 in
/-- MODE_ACK and JOIN_REQUEST inside their windows. -/
theorem witness_LinkAnswersAndPolls_frames : (polling false true).GoodFrame ackRx 4 (some (2050, 999000)) true
    ∧ (polling true false).GoodFrame (joinRx 3) 6 (some (2000, 999000)) true
    ∧ reinvited.GoodFrame (joinRx 3) 6 (some (2000, 999000)) true := by
  simp only [State.GoodFrame, Option.some.injEq, forall_eq']
  decide +kernel

/-- A lineside unit that awaits its poll or answers, its session open. -/
def unitState (n : NodeState) : State :=
  lanes { linkState linkFile { node := n } with role := .lineside } fun L =>
    { L with clock := 10000, sess := [(ownSess, { st := .opened })] }

/-- A poll for it at an instant; its slot 1 starts 10 µs into the basic cycle. -/
def pollFrame (sAt : DWord) : LinkRx :=
  let t := tgBytes 1 1 0 0 0x800 2 1 0 5 0 77 0 ((List.replicate 40 0).set 0x20 1)
  linkRx sAt 20000 (linkFrame (linkHead 2 1 0x800 2 1 0 t.length) t)

/-- An invitation in slot 2, which starts 80 µs into the basic cycle. -/
def inviteAt (sAt : DWord) : LinkRx := linkRx sAt 90000 (linkFrame (linkHead 2 0x11 0x800 0xFFFF 2 0 0) [])

set_option maxRecDepth 20000 in
theorem witness_LinkAnswersAndPolls_unit :
    (∀ n ∈ [NodeState.integrated, .answering], (unitState n).role = .lineside ∧ (unitState n).link.node = n
      ∧ linkSound (unitState n).file (pollFrame 10000).bytes = true ∧ (unitState n).link.copies = []
      ∧ (∀ l ∈ Lane.list, SMap.wf (fun _ => ({} : SessSt)) ((unitState n).lane.get l).sess = true)
      ∧ (((unitState n).lane.get (unitState n).leadLane).session ownSess).st.receives = true
      ∧ (unitState n).pollPlaced (pollFrame 9488) = true ∧ (unitState n).pollPlaced (pollFrame 79487) = true
      ∧ (∀ y ∈ [Lane.A, .B], ((unitState n).linkLanes (pollFrame 9488)).get y = true
        ∧ ((((unitState n).lane.get y).session ownSess).receive
            ((unitState n).linkCtx ((unitState n).lane.get y) (unitState n).ownUnit false (lkSrc (pollFrame 9488).bytes))
            ((unitState n).lane.get y).clock (lkBody (pollFrame 9488).bytes)).2 = true))
    ∧ lkType (pollFrame 9488).bytes = 2 ∧ lkInvite (pollFrame 9488).bytes = false ∧ (unitState .answering).pollPlaced (pollFrame 9487) = false
    ∧ lkType (inviteAt 80000).bytes = 2 ∧ lkInvite (inviteAt 80000).bytes = true ∧ (unitState .answering).pollPlaced (inviteAt 80000) = true
    ∧ linkSound linkFile (inviteAt 80000).bytes = true ∧ 2 ≤ ((unitState .answering).linkLanes (inviteAt 80000)).count
    ∧ (unitState .answering).tooLate (inviteAt 80000) (burstNs 52) = false
    ∧ (at_ ((unitState .integrated).file.cmdTmo * 1000000)
        { unitState .integrated with link := { (unitState .integrated).link with pollAt := some (0, 0) } }).pollExpired = true
    ∧ (unitState .integrated).pollExpired = false ∧ (unitState .integrated).link.timedOut = false := by decide +kernel


/-! ### Witnesses: the Tablet layer -/

/-- Session 0 of category 1, which may authorise a restart; session 62 of category 3 as responder, session 63 as initiator. -/
def sess0 : SessCfg :=
  { num := 0, cat := 1, net1 := true, net2 := true, initiator := false, report := false, testOk := false, tExp := 500, window := 64,
    peer := 5, addr1 := 1, addr2 := 1, saltTx := 3, saltRx := 4, period := 1, len := 32, restart := true }

def sess62 : SessCfg := { sess0 with num := 62, cat := 3, peer := 0x12002, addr1 := 2, addr2 := 2 }

def sess63 : SessCfg := { sess0 with num := 63, cat := 3, initiator := true, peer := 0x12002, addr1 := 3, addr2 := 3 }

/-- A CAN FD receive buffer for Tablet telegrams, at the last place. -/
def buf63 : CanBufCfg :=
  { port := 3, buf := 63, dir := 1, format := 2, ide := false, nd := false, tablet := true, len := 64, period := 0, id := 1,
    mask := 0x7FF, timeout := 0, pair := 63, cat := 1, tExp := 500, window := 64, peer := 8, saltTx := 3, saltRx := 4 }

def tbFile : StationFile :=
  { cfgFile with stationId := 9, sessions := [sess0, sess62, sess63], canBufs := [buf63], canPorts := (.all {}, { en := true }) }

/-- A module state with one Tablet session in every lane, the clocks at 10 µs. -/
def tbState (m : MState) (n : Nat) (S : SessSt) : State :=
  lanes (inState m tbFile) fun L => { L with clock := 10000, sess := [(n, S)] }

/-- A telegram of category 1 for session 0, received by every lane. -/
def dgram0 (type : Nat) (payload : Bytes) : Dgram :=
  { net := .net2, srcAddr := 1, dstAddr := 0, udp := true, srcPort := 5381, dstPort := 5381,
    bytes := tgBytes 1 type 0 0 5 9 1 0 5 0 4 0 payload, lanes := .all true }

/-- A handshake telegram of category 3, its MAC field empty. -/
def hsBytes (type epoch src : Nat) (payload : Bytes) : Bytes :=
  let body := [0x31, byteOf type, 0, byteOf epoch] ++ toBe 4 src ++ toBe 4 9 ++ toBe 4 1 ++ toBe 6 0 ++ toBe 6 5
    ++ toBe 2 payload.length ++ [0, 0] ++ payload
  match pairCodes 0 0 src 9 1 body with
  | some (a, b) => body ++ toBe 4 a ++ toBe 4 b ++ List.replicate 8 0
  | none => []

def dgram3 (c : SessCfg) (type epoch : Nat) (payload : Bytes) : Dgram :=
  { net := .net1, srcAddr := c.addr1, dstAddr := 0, udp := true, srcPort := 5381, dstPort := 5381,
    bytes := hsBytes type epoch c.peer payload, lanes := .all true }

/-- The payload of HS_HELLO with a certificate: a nonce, the base point as ephemeral key. -/
def helloPay (cert : Bytes) : Bytes := List.replicate 32 1 ++ P256.toSec1 (P256.publicKey 1) ++ [0] ++ toBe 2 cert.length ++ cert

/-- The peer's signature over that payload twice, as HS_KEY and HS_FINISH of this handshake carry it. -/
def peerSig : Bytes :=
  toBe 64 0x26efcebd0ee9e34a669187e18b3a9122b2f733945b649cc9f9f921e9f9dad812dcf6375afd85d0352bce707645a87594f006feaab4eeb74db01c7279f1b78557

/-- The payload of HS_KEY. -/
def keyPay (cert sig : Bytes) : Bytes := helloPay cert ++ sig

/-- Another source port, which no session has. -/
def stray (g : Dgram) : Dgram := { g with srcPort := 5380 }

set_option maxRecDepth 20000 in
theorem witness_TelegramsTakeEffect :
    (∀ l ∈ Lane.list, SMap.wf (fun _ => ({} : SessSt)) (((tbState .run 0 { st := .opened }).lane.get l).sess) = true
      ∧ SMap.wf (fun _ => (0 : BitVec 512)) ((tbState .run 0 { st := .opened }).lane.get l).rx = true)
    ∧ (∀ e ∈ [(Tg.data, List.replicate 1024 (1 : Byte)), (Tg.routeRequest, List.replicate 16 1)],
      (tbState .run 0 { st := .opened }).netSession (dgram0 e.1 e.2) = some sess0 ∧ tgType (dgram0 e.1 e.2).bytes = e.1)
    ∧ (tbState .run 0 { st := .opened }).mstate.netUp = true ∧ (tbState .run 0 { st := .opened }).receiving sess0 = true ∧ sess0.num < 64
    ∧ ((tbState .run 0 { st := .opened }).checking (LaneVec.all true)).get .C = true
    ∧ ((tbState .run 0 { st := .opened }).checking ⟨true, true, false⟩).get .C = false
    ∧ ((tbState .run 0 { st := .opened }).tgVerdict (dgram0 Tg.routeRequest (List.replicate 16 1)) sess0 .C).2 = true
    ∧ ((tbState .run 0 {}).tgVerdict (dgram0 Tg.routeRequest (List.replicate 16 1)) sess0 .C).2 = false
    ∧ (tbState .run 63 { st := .opened }).netSession (dgram3 sess63 Tg.close 0 [0, 0, 0, 1]) = some sess63
    ∧ tgType (dgram3 sess63 Tg.close 0 [0, 0, 0, 1]).bytes = Tg.close ∧ sess63.cat = 3
    ∧ ((tbState .run 63 { st := .opened }).lane.get .A |>.session 63).st.receives = true
    ∧ (tbState .run 0 {}).netSession (stray (dgram0 Tg.data [])) = none
    ∧ run.canBufCfg 3 63 = none ∧ (inState .run tbFile).canBufCfg (3 : BitVec 2).toNat (63 : BitVec 6).toNat = some buf63
    ∧ buf63.tablet = true ∧ buf63.dir = 1 ∧ (inState .run tbFile).canNormal (3 : BitVec 2).toNat = true
    ∧ ((inState .run tbFile).canPt (3 : BitVec 2).toNat).busOff = false ∧ (List.replicate 64 (0 : Byte)).length = 64 := by
  decide +kernel

set_option maxRecDepth 20000 in
/-- A DATA telegram of the longest payload is taken. -/
theorem witness_TelegramsTakeEffect_data :
    ((tbState .run 0 { st := .opened }).tgVerdict (dgram0 Tg.data (List.replicate 32 1)) sess0 .C).2 = true := by decide +kernel

/-- A session of category 3 in every lane whose key store holds the root of the operator chain. -/
def hsState (n : Nat) (S : SessSt) : State :=
  lanes (tbState .run n { S with store := { S.store with chain0 := rootCert } }) fun L => { L with keys := { L.keys with chain0 := rootCert } }

/-- A session that waits for HS_KEY, and one that waits for HS_FINISH. -/
def waitsKey : State := hsState 63 { st := .handshake, hs := .helloSent, hello := helloPay peerCert }

def waitsFinish : State := hsState 62 { st := .handshake, hs := .finishDue, hello := helloPay peerCert, key := helloPay peerCert }

set_option maxRecDepth 100000 in
/-- HS_HELLO, HS_KEY and HS_FINISH arrive and pass their form and their codes. -/
theorem witness_HandshakesInstallKeys_arrive :
    (hsState 62 { st := .closed }).HsArrives (dgram3 sess62 Tg.hsHello 0 (helloPay peerCert)) sess62 Tg.hsHello
    ∧ waitsKey.HsArrives (dgram3 sess63 Tg.hsKey 0 (keyPay peerCert peerSig)) sess63 Tg.hsKey
    ∧ waitsFinish.HsArrives (dgram3 sess62 Tg.hsFinish 0 peerSig) sess62 Tg.hsFinish
    ∧ tgPayload (dgram3 sess62 Tg.hsHello 0 (helloPay peerCert)).bytes = helloPay peerCert
    ∧ tgPayload (dgram3 sess63 Tg.hsKey 0 (keyPay peerCert peerSig)).bytes = keyPay peerCert peerSig
    ∧ tgPayload (dgram3 sess62 Tg.hsFinish 0 peerSig).bytes = peerSig := by
  unfold State.HsArrives State.Delivers; decide +kernel

set_option maxRecDepth 100000 in
/-- The payloads fit, the certificate passes in both lanes of the pair, another does not. -/
theorem witness_HandshakesInstallKeys_hello :
    helloOk (helloPay peerCert) 100 = true ∧ helloOk (helloPay [9]) 100 = true ∧ helloOk (keyPay peerCert peerSig) 164 = true
    ∧ helloOk (keyPay [9] peerSig) 164 = true
    ∧ tgEpoch (dgram3 sess62 Tg.hsHello 0 (helloPay peerCert)).bytes = 0
    ∧ pairLanes (hsState 62 {}).txPair = some (.A, .B) ∧ (hsState 62 {}).datesCerts = false
    ∧ (hsState 62 {}).classOf (Blk.ofOff Base.tb) 3 = .note
    ∧ (∀ l ∈ [Lane.A, .B], ((hsState 62 {}).checking (LaneVec.all true)).get l = true)
    ∧ (hsState 62 {}).lane.get .B = (hsState 62 {}).lane.get .A
    ∧ (((hsState 62 { st := .closed }).lane.get .A).session 62).st.receives = false
    ∧ ((hsState 62 {}).lane.get .A).certFinds ((hsState 62 {}).lane.get .A).keys false sess62.peer (helloCert (helloPay peerCert)) = true
    ∧ ((hsState 62 {}).lane.get .A).certFinds ((hsState 62 {}).lane.get .A).keys false sess62.peer (helloCert (helloPay [9])) = false := by
  decide +kernel

set_option maxRecDepth 100000 in
/-- HS_KEY is sound, its certificate fails, its signature fails; the same of HS_FINISH. -/
theorem witness_HandshakesInstallKeys_key :
    waitsKey.lane.get .B = waitsKey.lane.get .A ∧ waitsFinish.lane.get .B = waitsFinish.lane.get .A
    ∧ (∀ l ∈ [Lane.A, .B], (waitsKey.checking (LaneVec.all true)).get l = true ∧ (waitsFinish.checking (LaneVec.all true)).get l = true)
    ∧ ((waitsKey.lane.get .A).session 63).hs = .helloSent ∧ ((waitsKey.lane.get .A).session 63).renew = false
    ∧ tgEpoch (dgram3 sess63 Tg.hsKey 0 (keyPay peerCert peerSig)).bytes = ((waitsKey.lane.get .A).session 63).newEpoch
    ∧ (waitsKey.lane.get .A).keyFinds sess63 false (keyPay peerCert peerSig) = 0
    ∧ (waitsKey.lane.get .A).keyFinds sess63 false (keyPay [9] peerSig) = 1
    ∧ (waitsKey.lane.get .A).keyFinds sess63 false (keyPay peerCert (List.replicate 64 3)) = 2
    ∧ ((waitsFinish.lane.get .A).session 62).hs = .finishDue
    ∧ signedBy (helloCert (helloPay peerCert)) (helloPay peerCert ++ helloPay peerCert) peerSig = true
    ∧ signedBy (helloCert (helloPay peerCert)) (helloPay peerCert ++ helloPay peerCert) (List.replicate 64 3) = false := by
  decide +kernel

/-- The rest of what the clauses ask: the configuration, the moment of the cycle, the time-out, a renewal and the limit of a key, each
reached and not. -/
theorem witness_HandshakesInstallKeys :
    sess62.num < 64 ∧ sess63.num < 64 ∧ (tbState .run 62 {}).sessCfg sess62.num = some sess62
    ∧ (tbState .run 63 {}).sessCfg sess63.num = some sess63 ∧ (tbState .run 63 {}).formed.count 63 < 4
    ∧ (∀ l ∈ Lane.list, SMap.wf (fun _ => ({} : SessSt)) ((tbState .run 63 { st := .closed }).lane.get l).sess = true)
    ∧ (tbState .run 63 {}).hasStandby = false ∧ (tbState .run 63 {}).beforeRelease = false ∧ (tbState .run 63 {}).pairTime.isSome = true
    ∧ ({ tbState .run 63 {} with cyc := { step := .frozen } }).beforeRelease = true
    ∧ (63 : BitVec 6).toNat = sess63.num ∧ (62 : BitVec 6).toNat = sess62.num ∧ (tbState .run 63 {}).sending sess63 = true
    ∧ sess63.cat = 3 ∧ sess63.initiator = true
    ∧ 0 + 1000000000 ≤ ((lanes (tbState .run 63 {}) fun L => { L with clock := 1000000000 }).lane.get .A).clock
    ∧ ((lanes (tbState .run 63 {}) fun L => { L with clock := 999999999 }).lane.get .A).clock < 0 + 1000000000
    ∧ ({ st := .opened, sent := 2 ^ 32 - 2 ^ 24 } : SessSt).keyWorn 0 86400000000000 (2 ^ 32 - 2 ^ 24) = true
    ∧ ({ st := .opened } : SessSt).keyWorn 0 86400000000000 (2 ^ 32 - 2 ^ 24) = false
    ∧ ({ st := .opened, sent := 2 ^ 32 - 1 } : SessSt).keyWorn 0 86460000000000 (2 ^ 32 - 1) = true
    ∧ ({ st := .opened } : SessSt).keyWorn 0 86460000000000 (2 ^ 32 - 1) = false
    ∧ (3 : Nat) < 4 ∧ (0 : Nat) ≠ 4 := by decide +kernel

/-- The staged object: 16 bytes for the link key. -/
theorem witness_SessionsAndKeyStore :
    (tbState .run 0 { st := .opened }).sessCfg (0 : BitVec 6).toNat = some sess0
    ∧ ((tbState .run 0 { st := .opened }).lane.get .A |>.session 0).st = .opened
    ∧ 0 + 4 * (sess0.tExp * 1000) * 1000
        ≤ ((lanes (tbState .run 0 { st := .opened }) fun L => { L with clock := 2000000000 }).lane.get .A).clock
    ∧ ((tbState .run 0 { st := .opened }).lane.get .A).clock < 0 + 4 * (sess0.tExp * 1000) * 1000
    ∧ (tbState .run 0 {}).AgreesWb .host Reg.TB_CTRL
    ∧ (∀ e ∈ [(0, sess0), (62, sess62), (63, sess63)], (tbState .run 0 {}).sessCfg (fieldOf (BitVec.ofNat 32 e.1) 0 6) = some e.2
      ∧ (tbState .run 0 {}).receiving e.2 = true ∧ e.2.cat ≠ 0)
    ∧ sess0.cat ≠ 3 ∧ sess62.initiator = false ∧ sess63.initiator = true
    ∧ ((tbState .run 63 { st := .opened }).lane.get .A |>.session 63).st = .opened
    ∧ run.AgreesWb .host Reg.KS_LOAD ∧ run.ksBar (setField 0x107 16 1 0) = 0 ∧ 2 ≤ fieldOf 7 0 4 ∧ fieldOf 7 0 4 ≤ 7 := by
  unfold State.AgreesWb; simp only [all_lanes]; decide +kernel

/-- PREPARE and CONFIRM of tag 1 in RESTART_LOCKED, for a generation 0 published just now. -/
def authPay (step : Byte) : Bytes := [step, 0, 0, 7, 0, 0, 0, 1] ++ List.replicate 24 0

def lockedState : State :=
  { tbState .restartLocked 0 { st := .opened } with
    lockedGens := [(0, 0)], prepare := some { session := 0, tag := 1, gen := 0, challenge := 7, at_ := 0 } }

set_option maxRecDepth 20000 in
theorem witness_RestartAuthorisation :
    (∀ step ∈ [(1 : Byte), 2], lockedState.netSession (dgram0 Tg.restartAuth (authPay step)) = some sess0
      ∧ tgType (dgram0 Tg.restartAuth (authPay step)).bytes = Tg.restartAuth
      ∧ byteAt (tgPayload (dgram0 Tg.restartAuth (authPay step)).bytes) 0 = step.toNat
      ∧ ∀ x ∈ [Lane.A, .B], (lockedState.checking (LaneVec.all true)).get x = true
        ∧ (lockedState.tgVerdict (dgram0 Tg.restartAuth (authPay step)) sess0 x).2 = true)
    ∧ lockedState.mstate.netUp = true ∧ lockedState.receiving sess0 = true
    ∧ lockedState.netSession (stray (dgram0 Tg.restartAuth (authPay 1))) = none
    ∧ lockedState.authResult sess0 (authPay 1) = 0 ∧ lockedState.authResult sess0 (authPay 2) = 0
    ∧ byteAt (authPay 1) 0 = 1 ∧ byteAt (authPay 2) 0 = 2 ∧ run.authResult sess0 (authPay 1) ≠ 0 := by decide +kernel


/-! ### Witnesses: the pair, service, the Cabinet Bus, the Tally Recorder, the network ports -/

/-- What a synchronised standby with three ACTIVE lanes says of itself, in duty for 65,535 h. -/
def beat2 : Beat := ⟨3, 2, 2, true, 0, 0, 0, 65535⟩

/-- A pair's module in a state, with what it knows of the Crossover. -/
def pairState (m : MState) (x : XoSt) : State := { inState m pairFile with xo := x }

/-- The holder of the role with a synchronised standby. -/
def holderState (x : XoSt) : State := pairState .duty { x with role := .holder, hb := true, peer := some beat2 }

/-- In 2-out-of-2 operation. -/
def two (s : State) : State := outB .halted s

theorem witness_PeerLossAndClaims :
    (pairState .safe {}).mstate = .safe ∧ (MState.duty ≠ .off ∧ MState.duty ≠ .safe ∧ MState.duty ≠ .sync)
    ∧ (holderState {}).hasStandby = true ∧ (holderState {}).deg.expired = false ∧ (holderState {}).mstate ≠ .standby ∧ (1 : BitVec 2) ≠ 2
    ∧ (∀ m ∈ [MState.duty, .standby], (pairState m {}).gateOf (orLanes (pairState m {}).xo.hbLost ⟨true, false, false⟩) = false
      ∧ (pairState m {}).gateOf (orLanes (pairState m {}).xo.hbLost ⟨true, true, false⟩) = true
      ∧ (pairState m {}).gateOf (orLanes (pairState m {}).xo.liveLost ⟨true, false, false⟩) = false
      ∧ (pairState m {}).gateOf (orLanes (pairState m {}).xo.liveLost ⟨false, true, true⟩) = true)
    ∧ (two (pairState .standby {})).gateOf ⟨true, true, false⟩ = false ∧ (two (pairState .standby {})).gateOf ⟨true, true, true⟩ = true
    ∧ (let s := pairState .standby { role := .standby, liveLost := ⟨true, true, false⟩ }
       s.mstate = .standby ∧ s.xo.role = .standby ∧ s.xo.peerTok = false
        ∧ s.gateOf (LaneVec.ofFn fun l => (orLanes s.xo.hbLost ⟨true, true, false⟩).get l && s.xo.liveLost.get l) = true
        ∧ s.gateOf (LaneVec.ofFn fun l => (orLanes s.xo.hbLost ⟨false, true, true⟩).get l && s.xo.liveLost.get l) = false)
    ∧ (let s := pairState .standby { role := .standby, hbLost := ⟨true, true, false⟩ }
       s.gateOf (LaneVec.ofFn fun l => s.xo.hbLost.get l && (orLanes s.xo.liveLost ⟨true, true, false⟩).get l) = true
        ∧ s.gateOf (LaneVec.ofFn fun l => s.xo.hbLost.get l && (orLanes s.xo.liveLost ⟨false, true, true⟩).get l) = false)
    ∧ (pairState .standby { role := .standby, peerTok := true }).xo.peerTok = true
    ∧ (pairState .standby { role := .standby, hoTaken := true }).xo.hoTaken = true
    ∧ (pairState .standby { role := .standby, hoTaken := true }).twoOfTwo = false
    ∧ (two (pairState .standby { role := .standby, hoTaken := true })).twoOfTwo = true
    ∧ (pairState .standby { role := .standby, lossClaim := true }).xo.lossClaim = true
    ∧ (pairState .standby { role := .standby }).xo.hoTaken = false ∧ (pairState .standby { role := .standby }).xo.lossClaim = false
    ∧ (pairState .standby { claimAt := some 0 }).xo.claimAt = some 0
    ∧ (at_ 4999 (pairState .standby { claimAt := some 0 })).now < 0 + (if (pairState .standby {}).xo.extended then 10000 else 5000)
    ∧ 0 + (if (pairState .standby {}).xo.extended then 10000 else 5000) ≤ (at_ 5000 (pairState .standby { claimAt := some 0 })).now
    ∧ 0 + (if (pairState .standby { extended := true }).xo.extended then 10000 else 5000)
        ≤ (at_ 10000 (pairState .standby { claimAt := some 0, extended := true })).now
    ∧ (pairState .standby { claimAt := some 0, synced0 := true }).pref = false
    ∧ (pairState .standby { claimAt := some 0, lossClaim := true, synced0 := true }).xo.synced0 = true
    ∧ (pairState .standby { claimAt := some 0, lossClaim := true }).xo.synced0 = false
    ∧ (pairState .standby {}).classOf (Blk.ofOff Base.xo) 6 = .note
    ∧ (pairState .standby {}).role = .central ∧ ({ pairState .standby {} with role := .lineside }).role = .lineside
    ∧ ({ pairState .standby {} with pref := true }).pref = true
    ∧ (at_ 2000000000 (pairState .sync {})).xo.syncAt + 2000000000 ≤ (at_ 2000000000 (pairState .sync {})).now
    ∧ (at_ 1999999999 (pairState .sync {})).now < (at_ 1999999999 (pairState .sync {})).xo.syncAt + 2000000000
    ∧ (pairState .sync {}).file.paired = true ∧ (pairState .sync {}).xo.role = .none ∧ (pairState .sync {}).xo.peerTok = false
    ∧ (pairState .sync {}).xo.hb = false ∧ (pairState .sync {}).xo.claimAt = none
    ∧ 2 ≤ (⟨true, true, false⟩ : LaneSet).count ∧ (⟨true, false, false⟩ : LaneSet).count ≤ 1 := by decide +kernel

/-- A first copy of nothing, and the last one of a catch-up, whose carried digests are those of the lanes. -/
def copyOf0 (pages : List (BitVec 10)) : CopyData :=
  { gen := 7, runId := 1, cycle := 7, t0 := 0, image := [], blocks := [], loc := [], prv := [], inputs := [], sess := [], units := [],
    ann := none, areas := 0, armed := none, edges := [], cmds := 0
    digests := (List.range 64).map (segDigest []) ++ [Config.cellDigest [] [] []], modes := .all 3, pages := pages, change := none }

/-- A standby that takes copies. -/
def copyState : State := pairState .standby { role := .standby, sync := .catchup, pagesGen := 1 }

theorem witness_CopiesAndHandover :
    copyState.mstate = .standby ∧ copyState.xo.sync ≠ .synced ∧ copyState.lead.isSome = true ∧ run.mstate ≠ .standby
    ∧ 1 ≤ copyState.xo.pagesGen
    ∧ (holderState {}).xo.role = .holder ∧ (pairState .duty { role := .handing }).xo.role = .handing
    ∧ (holderState { hoPaused := true, hoCycle := some 5 }).xo.hoPaused = true
    ∧ (holderState { hoPaused := true, hoCycle := some 5 }).xo.hoCycle.isSome = true ∧ (0 : DWord).toNat = (holderState {}).gen
    ∧ ((7 : DWord).toNat < 8 ∧ HeldItem.done 8 0 3 ∈ { holderState {} with held := [.done 7 0 2, .done 8 0 3] }.held)
    ∧ (holderState {}).AgreesWb .host Reg.XO_CTRL ∧ (1 : Word).toNat.testBit 0 = true ∧ (holderState {}).handoverBar = none
    ∧ (holderState { hoCycle := some 5 }).handoverBar = some 0x43
    ∧ (pairState .standby { role := .standby, sync := .synced }).xo.sync = .synced
    ∧ (pairState .standby { role := .standby, sync := .synced }).twoOfTwo = false
    ∧ (at_ 10000 (holderState { hoPaused := true, hoCycle := some 5, hoConf := true })).masterPassed = true
    ∧ (at_ 10000 (holderState { hoPaused := true, hoCycle := some 5, hoConf := true })).xo.confAt + 10000
        ≤ (at_ 10000 (holderState { hoPaused := true, hoCycle := some 5, hoConf := true })).now
    ∧ (at_ 9999 (holderState { hoConf := true })).now < (at_ 9999 (holderState { hoConf := true })).xo.confAt + 10000
    ∧ (pairState .duty { role := .handing }).deg.expired = false
    ∧ { pairState .duty { role := .handing } with deg := { expired := true } }.deg.expired = true
    ∧ (pairState .duty { role := .handing }).gate = false ∧ (pairState .duty { role := .handing }).lead.isSome = true
    ∧ (at_ 300000000000 (holderState { peerSince := some 0 })).revertHeld = true
    ∧ (at_ 299999999999 (holderState { peerSince := some 0 })).revertHeld = false
    ∧ (at_ 300000000000 (holderState { peerSince := some 0 })).testsSince 0 = true
    ∧ (at_ 300000000000 (holderState { peerSince := some 0 })).pref = false
    ∧ (at_ 300000000000 (holderState { peerSince := some 0 })).xo.retryAt ≤ 300000000000
    ∧ (at_ 300000000000 (holderState { peerSince := some 0 })).handoverBar = none
    ∧ (holderState {}).file.swapEn = true ∧ (holderState {}).swapReached = true
    ∧ (holderState {}).xo.retryAt ≤ (holderState {}).now ∧ (holderState { retryAt := 1 }).now < (holderState { retryAt := 1 }).xo.retryAt
    ∧ copyState.xo.gen = 0 ∧ (copyOf0 []).gen.toNat = 6 + 1 ∧ copyState.xo.sync = .catchup
    ∧ (pairState .duty { role := .handing }).mstate ≠ .safe
    ∧ (holderState { hoCycle := some 5 }).handoverBar.isSome = true ∧ (holderState {}).xo.overdue = false
    ∧ (at_ 3600000000000 (holderState { overdue := true })).xo.overdueAt + 3600000000000 ≤ 3600000000000
    ∧ (pairState .duty {}).swapReached = false := by
  unfold State.AgreesWb; simp only [all_lanes]; decide +kernel

/-- A copy with every page: the image it makes carries the standby's file digest and bank, and every lane finds its digests. -/
theorem witness_CopiesAndHandover_copy (pages : List (BitVec 10)) (s : State) (h : s = copyState) :
    (let img := ([] : List (Nat × Byte)).foldl (fun m e => memPut m e.1 e.2) (s.lane.get s.leadLane).image.published
     (copyOf0 pages).image = [] ∧ BitVec.ofNat 32 (memLe img 0x1C 4) = s.fileDigest
       ∧ (memLe img 0x18 4).testBit 10 = ((s.lane.get s.leadLane).logic.bank == 1))
    ∧ ∀ (l : Lane) (L : LaneSt), L.image.published = [] → L.logic.blkMem = [] → L.logic.loc = [] → L.logic.prv = [] →
      s.isActive l = true → L.copyAgrees (copyOf0 pages) = true := by
  refine ⟨⟨rfl, by subst h; decide +kernel⟩, fun l L i b o p _ => ?_⟩
  simp only [LaneSt.copyAgrees, i, b, o, p, copyOf0, Bool.and_eq_true, List.all_eq_true, List.mem_range]
  refine ⟨fun k hk => ?_, ?_⟩
  · simp [List.getElem?_append_left, hk]
  · simp

/-- Element 5 with the identity 0xFFFF, whose channel 31 is an output; the variable 3; area 31 around the element. -/
def svFile : StationFile :=
  { cfgFile with
    elems := [⟨5, 1, 0, 0xFFFF, 0, 32, List.replicate 31 1 ++ [2]⟩], vars := [⟨3, 0, true⟩], areas := [⟨31, [5]⟩] }

/-- Maintenance session 3 with a certificate, which gives CONFIGURE. -/
def svState (m : MState) : State :=
  { inState m svFile with maint := [(3, { isOpen := true, access := .configure, cert := true, certId := 0xABCD })] }

/-- A force of value 1 on channel 31 of element 5 as output, or on variable 3. -/
def forceWord (vital : Bool) : Word := if vital then 0xFFFF + 31 * 2 ^ 16 + 2 ^ 21 + 2 * 2 ^ 22 else 3 + 2 ^ 21

/-- The same with entry 255, the last, holding the force. -/
def forcedState : State := lanes { svState .run with areas := 0x80000000 } fun L =>
  { L with image := { L.image with working := [(Img.force 255, 0xFF), (Img.force 255 + 1, 0xFF), (Img.force 255 + 2, 3),
      (Img.force 255 + 3, 31), (Img.force 255 + 4, 1), (Img.force 255 + 5, 31)] } }

set_option maxRecDepth 20000 in
theorem witness_ForcesAndPossessions :
    (∀ r ∈ [Reg.SV_FORCE, Reg.SV_POSS, Reg.SV_MODE_REQ], (svState .run).AgreesWb (.maint 3) r) ∧ (svState .run).parts.get .C = true
    ∧ ((svState .run).lane.get .C).memWf = true ∧ (forcedState.lane.get .C).memWf = true
    ∧ (svState .run).forceBar ((svState .run).writerOf (.maint 3)) (withOp (forceWord false) 0) = 0
    ∧ ({ svState .run with areas := 0x80000000 }).forceBar ((svState .run).writerOf (.maint 3)) (withOp (forceWord true) 0) = 0
    ∧ ((svState .run).lane.get .C).forcePlace (fcIdent (forceWord false)) 1 0 = none ∧ ((svState .run).lane.get .C).freeForce = some 0
    ∧ (forcedState.lane.get .C).forcePlace (fcIdent (forceWord true)) (fcKind (forceWord true) + 1) (fcBit (forceWord true)) = some 255
    ∧ forcedState.forceBar (forcedState.writerOf (.maint 3)) (withOp (forceWord true) 1) = 0
    ∧ forcedState.forceBar (forcedState.writerOf (.maint 3)) (withOp (forceWord true) 2) = 0
    ∧ (svState .run).forceBar ((svState .run).writerOf (.maint 3)) (withOp 9 0) = 0x4C ∧ (0x4C : Nat) ≠ Reason.role
    ∧ (svState .run).possBar ((svState .run).writerOf (.maint 3)) (setField 31 8 1 1) = 0
    ∧ (svState .run).possBar ((svState .run).writerOf (.maint 3)) (setField 31 8 1 0) = 0
    ∧ (svState .run).modeBar ((svState .run).writerOf (.maint 3)) (setField 0 0 2 1) = 0
    ∧ { svState .run with comm := true }.comm = true ∧ (svState .run).comm = false := by
  unfold State.AgreesWb; simp only [all_lanes]; decide +kernel

/-- The complete package of the blank file: its digest, the default window, its check. -/
def fullPackage : Bytes :=
  let body := toLe 4 0x0D17A003 ++ toLe 4 0x54 ++ List.replicate 32 0 ++ toLe 32 blankFile.digest.toNat ++ List.replicate 8 0
  body ++ toLe 4 (crc32c body)

/-- A change in a state, the given package staged. -/
def chgState (m : MState) (c : ChgSt) (pkg : Bytes) : State :=
  lanes { inState m cfgFile with chg := c } fun L => { L with staging := memPuts [] 0 pkg }

set_option maxRecDepth 20000 in
theorem witness_OnLineChange :
    run.AgreesWb .host Reg.SV_CHANGE ∧ run.changeBar (setField 0 0 4 1) = 0
    ∧ (chgState .run { st := .loading } []).chg.st = .loading
    ∧ (chgState .restartLocked { st := .staged } []).takesFile = true ∧ (inState .sync blankFile).takesFile = true
    ∧ (chgState .run { st := .verified } []).armBar 10001 = 0x4B ∧ (chgState .run { st := .verified } []).armBar 1 = 0x4B
    ∧ fieldOf (BitVec.ofNat 32 (10000 * 256)) 8 24 = 10000
    ∧ (∀ x ∈ [ChgState.swapped, .failed, .verified, .verifying], (chgState .run { st := x } []).chg.st = x)
    ∧ (chgState .restartLocked { st := .staged } []).chg.st = .staged
    ∧ (chgState .restartLocked { st := .staged } []).AgreesWb .host Reg.SV_CHANGE
    ∧ (chgState .run { st := .loading } []).changeBar (setField 0 0 4 1) = 0x49
    ∧ run.isActive .A = true ∧ packageOk ((chgState .run {} []).lane.get .A).package ((chgState .run {} []).lane.get .A).flash.active false = false
    ∧ (chgState .run { st := .armed, revert := true } []).chg.revert = true
    ∧ (chgState .run { st := .swapped, endAt := 10 } []).chg.endAt
        ≤ ((lanes (chgState .run { st := .swapped, endAt := 10 } []) fun L => { L with clock := 10 }).lane.get .A).clock
    ∧ ((chgState .run { endAt := 10 } []).lane.get .A).clock < (chgState .run { endAt := 10 } []).chg.endAt
    ∧ run.twoOfTwo = false ∧ (run.lane.get .C).wf = true
    ∧ run.AgreesWb .host (Reg.LF_SHD_CTRL (15 : BitVec 4).toNat)
    ∧ (chgState .run { st := .loading } []).shdBar (15 : BitVec 4).toNat (setField (BitVec.ofNat 32 (8 * 16 + 256 * 256)) 0 2 1) = 0
    ∧ (let s := lanes run fun L => (L.setReg (Reg.LF_SHD_CTRL 15) 1).setReg (Reg.LF_SHD_ADDR 15) (BitVec.ofNat 32 (2 ^ 18 - 1))
       ∀ l ∈ Lane.list, (s.lane.get l).bit (Reg.LF_SHD_CTRL 15) 0 = true
        ∧ ((s.lane.get l).reg (Reg.LF_SHD_ADDR 15)).toNat < 2 ^ 18) := by
  unfold State.AgreesWb; simp only [all_lanes]; decide +kernel

/-- ARM and REVERT at both ends of the range of targets: no force stands and no area is declared. -/
theorem witness_OnLineChange_arm (s : State) (h : s = chgState .run { st := .verified } [])
    (u : State) (hu : u = lanes (chgState .run { st := .swapped } []) fun L => { L with flash := { L.flash with kept := some blankFile } }) :
    ∀ n ∈ [2, 10000], s.armBar n = 0 ∧ u.revertBar n = 0 := by
  have cs : s.changeConflict = false := by
    have f : s.forces = [] := by subst h; decide +kernel
    have a : s.areas = 0 := by subst h; rfl
    simp [State.changeConflict, f, a]
  have cu : u.changeConflict = false := by
    have f : u.forces = [] := by subst hu; decide +kernel
    have a : u.areas = 0 := by subst hu; rfl
    simp [State.changeConflict, f, a]
  have ks : s.chg.st = .verified ∧ s.twoOfTwo = false ∧ s.armState = true ∧ s.hasStandby = false := by subst h; decide +kernel
  have ku : u.chg.st = .swapped ∧ (u.lane.get u.leadLane).flash.kept.isNone = false ∧ u.armState = true := by subst hu; decide +kernel
  have ts : ∀ n ∈ [2, 10000], s.targetOk n = true ∧ u.targetOk n = true := by subst h; subst hu; decide +kernel
  intro n hn
  simp only [State.armBar, State.revertBar, cs, cu, ks, ku, ts n hn]
  simp

theorem witness_OnLineChange_ports :
    run.TakesWrite .host (Blk.ofOff Reg.SV_DLT_DATA) ∧ run.TakesWrite .host (Blk.ofOff (Reg.LF_SHD_DATA (15 : BitVec 4).toNat)) :=
  ⟨⟨by decide, by decide, fun l => by cases l <;> decide +kernel⟩, by decide, by decide, fun l => by cases l <;> decide +kernel⟩

set_option maxRecDepth 20000 in
/-- A complete package that rebuilds the blank file is good in every lane. -/
theorem witness_OnLineChange_verify (h : Config.rebuild fullPackage blankFile = blankFile) (s : State)
    (hs : s = chgState .restartLocked { st := .verifying } fullPackage) :
    ∀ l : Lane, s.isActive l = true → s.verifyLane (s.lane.get l) true = 0 := by
  intro l _
  have pk : (s.lane.get l).package = fullPackage := by subst hs; cases l <;> decide +kernel
  have ac : (s.lane.get l).flash.active = blankFile := by subst hs; cases l <;> rfl
  have ok : packageOk fullPackage blankFile s.takesFile = true := by subst hs; decide +kernel
  have fu : ofLe (slice fullPackage 8 32) = 0 := by decide +kernel
  have dg : blankFile.digest.toNat = ofLe (slice fullPackage 0x28 32) := by decide +kernel
  have fo : fileOk s blankFile = true := by subst hs; decide +kernel
  have bu : ¬ budgetUs blankFile.tUnits blankFile.pct * 1000 < blankFile.wcet * 10 := by decide +kernel
  simp only [State.verifyLane, pk, ac, h, ok, fu, fo, ← dg, bu]
  simp

/-- Receive buffer 63 and transmit buffer 62 of port 3, and a Tablet transmit buffer. -/
def cbFile : StationFile :=
  { tbFile with
    canPorts := (.all {}, { en := true, auto := true, master := true, trefMs := 10, owner := 0 })
    canBufs := [{ buf63 with tablet := false }, { buf63 with tablet := false, buf := 62, dir := 2, id := 2 }] }

def rxFrame : CanFrame := ⟨false, 1, false, true, true, List.replicate 64 5⟩

def txFrame : CanFrame := ⟨false, 2, false, true, true, List.replicate 64 6⟩

/-- Port 3 owned by lane A, buffer 62 queued. -/
def cbState (q : CanPort) : State :=
  lanes { inState .run cbFile with canPort := [(3, q)] } fun L =>
    { L with can := [(canKey 3 62, { data := List.replicate 64 6, queued := true })] }.setSel .host (Reg.CB_BSEL 3) 63

theorem witness_CabinetBus :
    SMap.wf (fun _ => ({} : CanPort)) (cbState { owner := some .A }).canPort = true
    ∧ (∀ l ∈ Lane.list, SMap.wf (fun _ => ({} : CanBuf)) ((cbState { owner := some .A }).lane.get l).can = true)
    ∧ { rxFrame with rtr := true }.rtr = true ∧ ((cbState { busOff := true }).canPt (3 : BitVec 2).toNat).busOff = true
    ∧ (cbState { owner := some .A }).canNormal (3 : BitVec 2).toNat = true
    ∧ ((cbState { owner := some .A }).canPt (3 : BitVec 2).toNat).busOff = false
    ∧ (cbState {}).canClash 3 rxFrame = false ∧ (cbState {}).canTarget 3 rxFrame = some { buf63 with tablet := false }
    ∧ buf63.port = (3 : BitVec 2).toNat ∧ (cbState {}).canClash 3 txFrame = true
    ∧ (∀ l ∈ Lane.list, ((cbState {}).checking (LaneVec.all true)).get l = true)
    ∧ ((cbState { owner := some .A }).canPt 3).owner = some .A
    ∧ (cbState { owner := some .A }).isActive .A = true ∧ (outB .halted (cbState { owner := some .B })).isActive .B = false
    ∧ ((outB .halted (cbState { owner := some .B })).canPt 3).owner = some .B ∧ canErrPlace .ack = some 24
    ∧ (cbState { owner := some .A }).canMaySend 3 .A (62 : BitVec 6).toNat txFrame = true
    ∧ (cbState { owner := some .A }).canMaySend 3 .A (63 : BitVec 6).toNat txFrame = false
    ∧ (∀ x ∈ Lane.list, ((cbState {}).canBufCfg 3 62).map ((cbState {}).lane.get x).canForm = some txFrame)
    ∧ ((cbState { trefQ := some 0 }).canPt 3).trefQ.isSome = true
    ∧ ((cbState {}).canPortCfg 3).auto = true ∧ (run.canPortCfg 3).auto = false ∧ ((cbState {}).canPortCfg 3).master = true
    ∧ ((cbState { entered := true }).canPt 3).entered = true
    ∧ ((cbState {}).canPt 3).trefDue + ((cbState {}).canPortCfg 3).trefMs.toNat * 1000000 ≤ (at_ 10000000 (cbState {})).now
    ∧ (at_ 9999999 (cbState {})).now < ((cbState {}).canPt 3).trefDue + ((cbState {}).canPortCfg 3).trefMs.toNat * 1000000
    ∧ ((cbState {}).lane.get .B).canSel .host 3 = 63 ∧ (cbState {}).canBufCfg 3 63 = some { buf63 with tablet := false }
    ∧ buf63.dir = 1 ∧ buf63.nd = false ∧ (((cbState {}).lane.get .B).canBuf (canKey 3 63)).lock = none
    ∧ (let s := lanes (cbState {}) fun L =>
        { L with clock := 1000000, can := [(canKey 3 63, { lock := some (.host, 0) })] }.setSel (.maint 3) (Reg.CB_BSEL 3) 63
       ((s.lane.get .B).canBuf (canKey 3 63)).lock = some (.host, 0)
        ∧ (s.lane.get .B).canSel (.maint 3) 3 = (s.lane.get .B).canSel .host 3 ∧ 0 + 1000000 ≤ (s.lane.get .B).clock)
    ∧ ((cbState {}).lane.get .B).clock < 0 + 1000000 := by decide +kernel

/-- Record 5199, changed; slot 16383 marked, its check wrong; slot 0 as written. -/
def tallyState (at0 : Nat) : State := lanes run fun L =>
  { L with clock := 10000000000, tally := [(5199, { dirty := true, writtenAt := some at0 })]
           mram := [(16383, { bytes := memPuts [] 0xFC (toLe 4 tallyMark) })] }

set_option maxRecDepth 20000 in
theorem witness_TallyAndNetworkPorts :
    (tallyState 0).mstate ≠ .off ∧ (tallyGroup (tallyState 0).role (5199 : BitVec 13).toNat).isSome = true
    ∧ (((tallyState 0).lane.get .C).tallyRec (5199 : BitVec 13).toNat).dirty = true
    ∧ (((tallyState 0).lane.get .C).tallyRec 5199).writtenAt = some 0 ∧ 0 + 10000000000 ≤ ((tallyState 0).lane.get .C).clock
    ∧ (run.lane.get .C).tallyRec (5199 : BitVec 13).toNat = {}
    ∧ ((tallyState 0).lane.get .C).slotMarked (16383 : BitVec 14).toNat = true
    ∧ ((tallyState 0).lane.get .C).slotChecks (16383 : BitVec 14).toNat = false
    ∧ ((run.lane.get .C).writeCopy run.role 80).slotValid (2 * 80) = true
    ∧ ((run.lane.get .C).writeCopy run.role 80).lastMarked (2 * 80) = true
    ∧ (let L := ((run.lane.get .C).writeCopy run.role 79).writeCopy run.role 80
       L.slotValid (2 * 79) = true ∧ L.lastMarked (2 * 79) = false)
    ∧ run.AgreesWb .host Reg.TALLY_CLEAR ∧ 80 ∈ tallyRecords run.role 3 ∧ (8 : Word).toNat.testBit 3 = true
    ∧ (run.lane.get .C).wf = true ∧ run.parts.get .C = true
    ∧ run.agreedFld (Reg.NET_STAT (netIdx .net1)) 0 1 = 0
    ∧ (lanes run fun L => L.setReg (Reg.NET_STAT 1) 1).agreedFld (Reg.NET_STAT (netIdx .net2)) 0 1 = 1
    ∧ run.heldAddr .net1 = some 0 ∧ (inState .load cfgFile).heldAddr .net2 = none
    ∧ (run.heldAddr .net1).bind (fun a => netAnswer (run.netCfg .net1).v6 a (.arp 7 0)) = some (.arpReply 0 7)
    ∧ (run.heldAddr .net1).bind (fun a => netAnswer (run.netCfg .net1).v6 a (.arp 7 1)) = none
    ∧ (run.heldAddr .net1).bind (fun a => netAnswer (run.netCfg .net1).v6 a (.solicit 7 0)) = none
    ∧ (run.heldAddr .net2).bind (fun a => netAnswer (run.netCfg .net2).v6 a (.echo false 7 0 [5])) = some (.echoReply false 0 7 [5])
    ∧ asksEcho (.arp 7 0) = false ∧ asksEcho (.echo false 7 0 [5]) = true
    ∧ { run with echo1 := (0, 9) }.echo1 = (run.now / 1000000000, 9) ∧ { run with echo1 := (0, 10) }.echo1 = (run.now / 1000000000, 10)
    ∧ { run with echo2 := (1, 10) }.echo2.1 ≠ run.now / 1000000000 := by
  unfold State.AgreesWb; simp only [all_lanes]; decide +kernel

/-! ### Known answers of the standards that the spec names -/

set_option maxRecDepth 20000 in
/-- AES-128-CMAC of NIST SP 800-38B, examples 1 and 2 (R362). -/
theorem test_cmac : aesCmac 0x2B7E151628AED2A6ABF7158809CF4F3C [] = toBe 16 0xBB1D6929E95937287FA37D129B756746
    ∧ aesCmac 0x2B7E151628AED2A6ABF7158809CF4F3C (toBe 16 0x6BC1BEE22E409F96E93D7E117393172A)
      = toBe 16 0x070A16B46B4D4144F79BDD9DD04A287C := by decide +kernel

set_option maxRecDepth 20000 in
/-- SHA-256 of FIPS 180-4's message abc (R365), HKDF of RFC 5869, test case 1, its first 40 bytes (R367). -/
theorem test_sha256_and_hkdf : sha256 [0x61, 0x62, 0x63] = toBe 32 0xBA7816BF8F01CFEA414140DE5DAE2223B00361A396177A9CB410FF61F20015AD
    ∧ hkdf (toBe 13 0x000102030405060708090A0B0C) (List.replicate 22 0x0B) (toBe 10 0xF0F1F2F3F4F5F6F7F8F9) 40
      = toBe 40 0x3CB25F25FAACD57A90434F64D0362F2A2D2D0A90CF1A5A4C5DB02D56ECC4C5BF34007208D5B88718 := by decide +kernel

/-! ### The checks of `Instr.wf`: a command with an ill-formed operand is refused, beside one that is not -/

theorem test_wf_cell_opcode : (Instr.cNop cell255 0x3F 0).wf = true ∧ (Instr.cNop cell255 0x01 0).wf = false
    ∧ (Instr.cNop cell255 0x20 (BitVec.allOnes 26)).wf = true ∧ (Instr.cNop cell255 0x20 0).wf = false := by decide

theorem test_wf_lanes_and_links : (Instr.outEdgeMissing .A .A).wf = false ∧ (Instr.lxTransfer .ab .C true).wf = false
    ∧ (Instr.lxTransfer .bc .A true).wf = false ∧ (Instr.lxTransfer .ca .B true).wf = false ∧ (Instr.lxTransfer .ca .C true).wf = true
    ∧ (Instr.stepWindowMissed .ab .C).wf = false ∧ (Instr.stepWindowMissed .bc .A).wf = false
    ∧ (Instr.stepWindowMissed .ca .B).wf = false := by decide

/-- Block 0xFFF of region 15 does not stand; the Crossover does, and its detector 31 does not. -/
def noBlk : Blk := ⟨15, 0xFFF⟩

theorem test_wf_blocks : (Instr.faultReport .A (Blk.ofOff Base.xo) 31 0 false []).wf = false
    ∧ (Instr.faultReport .A (Blk.ofOff Base.xo) 0 0 false []).wf = true
    ∧ (Instr.faultReport .A (Blk.ofOff Base.xo) 0 0 false [⟨noBlk, 0, 0, false⟩]).wf = false ∧ (Instr.hsTimeout .A noBlk (Blk.ofOff Base.vote)).wf = false
    ∧ (Instr.hsTimeout .A (Blk.ofOff Base.vote) noBlk).wf = false ∧ (Instr.blockEnable .broadcast noBlk .host 0).wf = false
    ∧ (Instr.blockReset .broadcast noBlk .host 0).wf = false ∧ (Instr.indiv .broadcast noBlk .host 0).wf = false
    ∧ (Instr.blkErrClear .broadcast noBlk .host 0).wf = false ∧ (Instr.blkErrEnWrite noBlk .host 0).wf = false
    ∧ (Instr.blkClassWrite noBlk .host 0).wf = false ∧ (Instr.injection noBlk .host 0).wf = false
    ∧ (Instr.injectionCancel noBlk .host 0).wf = false ∧ (Instr.injectionExpiry noBlk).wf = false ∧ (Instr.injEnd noBlk).wf = false
    ∧ (Instr.tokenIssue noBlk .host).wf = false := by decide +kernel

theorem test_wf_ranges : (Instr.railTest .A 6 none).wf = false ∧ (Instr.railTest .A 5 none).wf = true
    ∧ (Instr.scrubLate .A 6).wf = false
    ∧ (Instr.switchTest 0 6 (.all ⟨0, 0, ⟨0, 0, 0⟩, false, 0, ⟨0, 0, 0⟩⟩)).wf = false
    ∧ (Instr.prepare ⟨.net1, 0, 0, true, 0, 0, [], .all true⟩ 0).wf = false
    ∧ (Instr.canFrame 0 ⟨false, 0, false, false, false, List.replicate 9 0⟩ .other .none (.all true)).wf = false
    ∧ (Instr.canFrame 0 ⟨false, 0, false, true, false, List.replicate 65 0⟩ .other .none (.all true)).wf = false := by decide

end Sys2Proof.Tests
end

section
/-! BOOT (R1, R469, R589): what the operations that BOOT is made of leave of the state, and the statement about it. -/

namespace Sys2Proof.Machine

/-- What every step of a fold keeps, the fold keeps. -/
theorem foldl_keeps {σ α β : Type} (f : σ → β) (g : σ → α → σ) (h : ∀ s a, f (g s a) = f s) :
    ∀ (xs : List α) (s : σ), f (xs.foldl g s) = f s
  | [], _ => rfl
  | x :: xs, s => (foldl_keeps f g h xs (g s x)).trans (h s x)

/-! ### The entry into SAFE (R433, R434, R464) -/

@[simp] theorem State.updAll_drv (s : State) (f : Lane → LaneSt → LaneSt) : (s.updAll f).drv = s.drv := rfl

@[simp] theorem State.abandonChange_drv (s : State) : s.abandonChange.drv = s.drv := by
  unfold State.abandonChange
  by_cases h : s.chg.st = .loading ∨ s.chg.st = .verifying
  · rw [if_pos h, State.updAll_drv]
  · rw [if_neg h]

theorem State.foldl_setBank_drv (g : Nat → BankSt → BankSt) (bs : List Nat) (s : State) :
    (bs.foldl (fun s b => s.setBank b (g b)) s).drv = s.drv :=
  foldl_keeps State.drv (fun s b => s.setBank b (g b)) (fun _ _ => rfl) bs s

/-- With the gate still open, the entry into SAFE ends in two changes of the lanes after the gate has latched, the second of which
writes `FC_LAST_SAFE` (R464). -/
theorem State.enterSafe_stages (s : State) (cause who : Nat) (req : LaneSet) (tag : Option Byte) (hg : s.gate = false) :
    ∃ (u : State) (f : Lane → LaneSt → LaneSt) (seq : Lane → Nat),
      (u.mstate = .safe ∧ u.gate = true ∧ u.vdrv = false)
      ∧ s.enterSafe cause who req tag = (u.updAll f).updAll fun l L =>
          L.setReg Reg.FC_LAST_SAFE (BitVec.ofNat 32 (cause + who * 256 + seq l % 65536 * 65536)) := by
  unfold State.enterSafe
  rw [hg, if_neg Bool.false_ne_true]
  extract_lets _ _ _ _ latched opened done _ _ seq
  refine ⟨done, _, seq, ?_, rfl⟩
  have hd : done.drv = latched.drv :=
    calc done.drv = opened.drv := opened.abandonChange_drv
      _ = latched.drv := State.foldl_setBank_drv _ _ latched
  rw [State.mstate, State.gate, State.vdrv, hd]
  exact ⟨rfl, rfl, rfl⟩

/-- With the gate still open, the entry into SAFE latches it and stops the vital drive. -/
theorem State.enterSafe_drive (s : State) (cause who : Nat) (req : LaneSet) (tag : Option Byte) (hg : s.gate = false) :
    (s.enterSafe cause who req tag).mstate = .safe ∧ (s.enterSafe cause who req tag).gate = true
      ∧ (s.enterSafe cause who req tag).vdrv = false := by
  obtain ⟨u, f, seq, hu, ht⟩ := s.enterSafe_stages cause who req tag hg
  rw [ht]
  exact hu

/-- With the gate still open, the entry into SAFE leaves the cause and the requesting lane in `FC_LAST_SAFE` of every lane. -/
theorem State.enterSafe_lastSafe (s : State) (cause who : Nat) (req : LaneSet) (tag : Option Byte) (l : Lane)
    (hg : s.gate = false) (h0 : 0 < cause) (hc : cause < 256) (hw : who < 4) :
    fieldOf (((s.enterSafe cause who req tag).lane.get l).reg Reg.FC_LAST_SAFE) 0 8 = cause
      ∧ fieldOf (((s.enterSafe cause who req tag).lane.get l).reg Reg.FC_LAST_SAFE) 8 2 = who := by
  obtain ⟨u, f, seq, -, ht⟩ := s.enterSafe_stages cause who req tag hg
  have hn : (BitVec.ofNat 32 (cause + who * 256 + seq l % 65536 * 65536)).toNat = cause + who * 256 + seq l % 65536 * 65536 := by
    rw [BitVec.toNat_ofNat]
    omega
  have hd : BitVec.ofNat 32 (cause + who * 256 + seq l % 65536 * 65536) ≠ Sys2Proof.Machine.resetOf Reg.FC_LAST_SAFE := by
    intro he
    have h := congrArg BitVec.toNat he
    rw [hn, show (Sys2Proof.Machine.resetOf Reg.FC_LAST_SAFE).toNat = 0 by decide] at h
    omega
  rw [ht, State.updAll_lane, LaneSt.reg_setReg_of_ne_default _ _ _ hd]
  simp only [fieldOf, hn]
  omega

/-! ### What every lane does first in BOOT (R227, R469, R559, R581) -/

/-- Loading the tally records leaves the clock and the key store. -/
theorem LaneSt.loadTally_clock_keys (L : LaneSt) : L.loadTally.clock = L.clock ∧ L.loadTally.keys = L.keys :=
  Prod.mk.inj <| foldl_keeps (fun L : LaneSt => (L.clock, L.keys)) _
    (fun L r => by cases L.newestSlot r <;> rfl) _ { L with tally := [] }

/-- A lane at the start of a start-up: its clock is the seed, its keys are the same but for what the check found. -/
theorem LaneSt.bootLane_clock_keys (L : LaneSt) (l : Lane) (seed took : Nat) (keyOk : Bool) :
    (L.bootLane l seed took keyOk).clock = seed
      ∧ (L.bootLane l seed took keyOk).keys = { L.keys with hasKey := keyOk } := by
  simp only [LaneSt.bootLane, LaneSt.loadTally_clock_keys, LaneSt.record_clock, LaneSt.record_keys, LaneSt.setReg, and_self]

/-- An entry in the books leaves the clock and the key store of every lane. -/
theorem State.event_clock_keys (s : State) (base n data : Nat) (l : Lane) :
    ((s.event base n data).lane.get l).clock = (s.lane.get l).clock
      ∧ ((s.event base n data).lane.get l).keys = (s.lane.get l).keys := by
  rw [State.event, State.recordIn, State.updIn_lane]
  split
  · exact ⟨LaneSt.record_clock .., LaneSt.record_keys ..⟩
  · exact ⟨rfl, rfl⟩

/-- The clock and the key store of every lane after what it does first in BOOT. -/
theorem State.bootLanes_clock_keys (s : State) (o : LaneVec BootObs) (holdup : Byte) (l : Lane) :
    ((s.bootLanes o holdup).lane.get l).clock = (if s.power.clkValid then s.power.backupClock else 0)
      ∧ ((s.bootLanes o holdup).lane.get l).keys = { (s.lane.get l).keys with hasKey := (o.get l).keyOk } := by
  unfold State.bootLanes
  extract_lets seed booted noted _ u
  have hu : u.lane.get l = (s.lane.get l).bootLane l seed (s.now - s.startAt) (o.get l).keyOk := State.updAll_lane ..
  have h : (u.lane.get l).clock = seed ∧ (u.lane.get l).keys = { (s.lane.get l).keys with hasKey := (o.get l).keyOk } := by
    rw [hu]
    exact LaneSt.bootLane_clock_keys ..
  split
  · rwa [(State.event_clock_keys ..).1, (State.event_clock_keys ..).2]
  · exact h

/-- Outside the lanes and their power registers, their first work in BOOT leaves the measurement of the hold-up store (R574) and
that of the cell. -/
theorem State.bootLanes_eq (s : State) (o : LaneVec BootObs) (holdup : Byte) :
    ∃ lane mregs, s.bootLanes o holdup = { s with
      lane := lane, mregs := mregs
      power := { s.power with holdLow := decide (holdup.toNat < 100), measured := s.now, cellOk := !s.power.cellLow } } := by
  unfold State.bootLanes
  extract_lets seed booted noted _ u
  have hb : ∃ lane, booted = { s with lane := lane } := ⟨_, rfl⟩
  clear_value booted
  obtain ⟨lane, rfl⟩ := hb
  split
  · exact ⟨_, _, rfl⟩
  · exact ⟨_, _, rfl⟩

/-- What the first work in BOOT leaves of the module, and the hold-up store as it was measured. -/
theorem State.bootLanes_frame (s : State) (o : LaneVec BootObs) (holdup : Byte) :
    (s.bootLanes o holdup).drv = s.drv ∧ (s.bootLanes o holdup).role = s.role ∧ (s.bootLanes o holdup).pref = s.pref
      ∧ (s.bootLanes o holdup).ctl = s.ctl ∧ (s.bootLanes o holdup).file = s.file
      ∧ (s.bootLanes o holdup).power.strapped = s.power.strapped
      ∧ (s.bootLanes o holdup).power.holdLow = decide (holdup.toNat < 100) := by
  obtain ⟨lane, mregs, h⟩ := s.bootLanes_eq o holdup
  rw [h]
  exact ⟨rfl, rfl, rfl, rfl, rfl, rfl, rfl⟩

/-! ### Lanes that fail in the start-up -/

/-- A lane that fails takes only itself and the maintenance sessions with it. -/
theorem State.failLane_frame (s : State) (l : Lane) (det : Option Det) :
    ∃ lane ctl maint, s.failLane l det = { s with lane := lane, ctl := ctl, maint := maint } := by
  unfold State.failLane
  extract_lets conducts reported failed
  have hf : ∃ lane ctl, failed = { s with lane := lane, ctl := ctl } := by
    cases det with
    | none => exact ⟨_, _, rfl⟩
    | some d => exact ⟨_, _, rfl⟩
  clear_value failed
  obtain ⟨lane, ctl, rfl⟩ := hf
  split
  · exact ⟨_, _, _, rfl⟩
  · exact ⟨_, _, _, rfl⟩

/-- Lanes that fail leave the drive, the role with PREF and the power supply. -/
theorem State.failLanes_frame (s : State) (bad : LaneVec (Option (Option Det))) :
    (s.failLanes bad).drv = s.drv ∧ (s.failLanes bad).role = s.role ∧ (s.failLanes bad).pref = s.pref
      ∧ (s.failLanes bad).power = s.power := by
  have h : (fun t : State => (t.drv, t.role, t.pref, t.power)) (s.failLanes bad) = (s.drv, s.role, s.pref, s.power) := by
    refine foldl_keeps (fun t : State => (t.drv, t.role, t.pref, t.power)) _ (fun u l => ?_) Lane.list s
    split
    · next d _ =>
      split
      · obtain ⟨lane, ctl, maint, hu⟩ := u.failLane_frame l d
        rw [hu]
      · rfl
    · rfl
  simpa only [Prod.mk.injEq] using h

/-- Where no lane fails, nothing changes. -/
theorem State.failLanes_of_none (s : State) (bad : LaneVec (Option (Option Det))) (h : ∀ l, bad.get l = none) :
    s.failLanes bad = s := by
  simp only [State.failLanes, h, List.foldl_fixed]

/-! ### BOOT: what is checked, and how it goes on -/

/-- The lanes whose code or key BOOT finds bad; the checks of BOOT have no detector (log 134). -/
def bootFailed (o : LaneVec BootObs) : LaneVec (Option (Option Det)) :=
  o.map fun _ b => if b.romOk && b.keyOk then none else some none

/-- The state after the checks of BOOT, before the straps are read: the lanes whose code or key fails are out. -/
def State.bootChecked (s : State) (o : LaneVec BootObs) (holdup : Byte) : State :=
  (s.bootLanes o holdup).failLanes (bootFailed o)

/-- With every lane sound no lane is lost. -/
theorem State.bootChecked_of_sound (s : State) (o : LaneVec BootObs) (holdup : Byte)
    (h : ∀ l, (o.get l).romOk = true ∧ (o.get l).keyOk = true) : s.bootChecked o holdup = s.bootLanes o holdup :=
  State.failLanes_of_none _ _ fun l => by simp [bootFailed, h l]

/-- The drive and what the straps rest on stand as before the checks. -/
theorem State.bootChecked_frame (s : State) (o : LaneVec BootObs) (holdup : Byte) :
    (s.bootChecked o holdup).drv = s.drv ∧ (s.bootChecked o holdup).role = s.role ∧ (s.bootChecked o holdup).pref = s.pref
      ∧ (s.bootChecked o holdup).power.strapped = s.power.strapped := by
  obtain ⟨hd, hr, hp, -, -, hs, -⟩ := s.bootLanes_frame o holdup
  obtain ⟨hd', hr', hp', hw⟩ := (s.bootLanes o holdup).failLanes_frame (bootFailed o)
  exact ⟨hd'.trans hd, hr'.trans hr, hp'.trans hp, (congrArg PowerSt.strapped hw).trans hs⟩

/-- The checks do not change what the straps are read as. -/
theorem State.readStraps_bootChecked (s : State) (o : LaneVec BootObs) (holdup : Byte) :
    (s.bootChecked o holdup).readStraps o = s.readStraps o := by
  obtain ⟨-, hr, hp, hs⟩ := s.bootChecked_frame o holdup
  simp only [State.readStraps, hr, hp, hs]

/-- Straps sampled before are kept (R1). -/
theorem State.readStraps_of_strapped (s : State) (o : LaneVec BootObs) (h : s.power.strapped = true) :
    s.readStraps o = some (s.role, s.pref) := if_pos h

/-- Straps that every lane reads alike, in the first BOOT since power came (R589). -/
theorem State.readStraps_of_alike (s : State) (o : LaneVec BootObs) (lineside pref : Bool) (h : s.power.strapped = false)
    (hr : strapOf o BootObs.role = some lineside) (hp : strapOf o BootObs.pref = some pref) :
    s.readStraps o = some (if lineside then .lineside else .central, pref) := by
  simp only [State.readStraps, h, hr, hp, Bool.false_eq_true, if_false]

/-- A strap that the lanes do not read alike, in the first BOOT since power came (R458). -/
theorem State.readStraps_of_unlike (s : State) (o : LaneVec BootObs) (h : s.power.strapped = false)
    (hu : strapOf o BootObs.role = none ∨ strapOf o BootObs.pref = none) : s.readStraps o = none := by
  unfold State.readStraps
  rw [h, if_neg Bool.false_ne_true]
  split
  · next r p hr hp =>
    rcases hu with hu | hu
    · cases hu.symm.trans hr
    · cases hu.symm.trans hp
  · rfl

/-- BOOT without a reading of the straps enters SAFE, cause STRAP. -/
theorem execBoot_of_no_straps (s : State) (o : LaneVec BootObs) (holdup : Byte) (hb : s.mstate = .boot)
    (hr : s.readStraps o = none) :
    execBoot o holdup s = .next (((s.bootChecked o holdup).event Base.sv 0x103 0).enterSafe 0x0B 3
      (s.bootChecked o holdup).starting) := by
  unfold execBoot
  rw [if_neg (not_not.2 hb)]
  extract_lets _ u
  have h : u.readStraps o = none := (s.readStraps_bootChecked o holdup).trans hr
  split
  · next q hq => cases h.symm.trans hq
  · rfl

/-- The module loads, with the role and PREF of the straps and the links of the Lane Exchange between the lanes that take part. -/
def State.bootLoads (u : State) (role : Role) (pref : Bool) : State :=
  { u with
    role := role, pref := pref, power := { u.power with strapped := true }, drv := { u.drv with mstate := .load }
    lx := { ab := u.starting.get .A && u.starting.get .B, bc := u.starting.get .B && u.starting.get .C,
            ca := u.starting.get .C && u.starting.get .A } }

theorem State.bootLoads_frame (u : State) (role : Role) (pref : Bool) :
    (u.bootLoads role pref).gate = u.gate ∧ (u.bootLoads role pref).vdrv = u.vdrv ∧ (u.bootLoads role pref).ctl = u.ctl
      ∧ (u.bootLoads role pref).file = u.file ∧ (u.bootLoads role pref).lane = u.lane
      ∧ (u.bootLoads role pref).power.holdLow = u.power.holdLow := ⟨rfl, rfl, rfl, rfl, rfl, rfl⟩

/-- BOOT with the straps read and two lanes or more goes on to LOAD. -/
theorem execBoot_of_straps (s : State) (o : LaneVec BootObs) (holdup : Byte) (role : Role) (pref : Bool) (hb : s.mstate = .boot)
    (hr : s.readStraps o = some (role, pref)) (hc : 2 ≤ (s.bootChecked o holdup).starting.count) :
    execBoot o holdup s = .next ((s.bootChecked o holdup).bootLoads role pref) := by
  unfold execBoot
  rw [if_neg (not_not.2 hb)]
  extract_lets _ u
  have h : u.readStraps o = some (role, pref) := (s.readStraps_bootChecked o holdup).trans hr
  split
  · next q hq =>
    obtain rfl : (role, pref) = q := Option.some.inj (h.symm.trans hq)
    exact if_neg (Nat.not_lt.2 hc)
  · next hq => cases h.symm.trans hq

/-- With no lane HALTED every lane takes part in the start-up. -/
theorem State.starting_of_no_halted (s : State) (h : ∀ l, s.mode l ≠ .halted) : s.starting = .all true := by
  simp [State.starting, LaneVec.ofFn, LaneVec.all, h]

/-- Settles O16: the checks of BOOT leave the straps and the drive as they were, so the module goes on as the straps read. -/
theorem bootTakesTheStraps : Obligations.BootTakesTheStraps := by
  intro s o holdup hb
  refine ⟨s.readStraps_of_strapped o, s.readStraps_of_alike o, ?loads, ?unlike⟩
  case loads =>
    intro role pref hr hl
    have hu := s.bootChecked_of_sound o holdup fun l => ⟨(hl l).1, (hl l).2.1⟩
    obtain ⟨hd, -, -, hctl, hfile, -, hlow⟩ := s.bootLanes_frame o holdup
    have hst : (s.bootLanes o holdup).starting = .all true :=
      State.starting_of_no_halted _ fun l => by rw [State.mode, hctl]; exact (hl l).2.2
    have ht := execBoot_of_straps s o holdup role pref hb hr (by rw [hu, hst]; decide)
    rw [hu] at ht
    have link (x y : Lane) : ((s.bootLanes o holdup).starting.get x && (s.bootLanes o holdup).starting.get y) = true := by
      simp only [hst, LaneVec.get_all, Bool.and_self]
    obtain ⟨hg, hv, hc, hf, hn, hw⟩ := (s.bootLanes o holdup).bootLoads_frame role pref
    refine ⟨_, ht, rfl, rfl, rfl, rfl, link .A .B, link .B .C, link .C .A, hw.trans hlow, hg.trans (congrArg DriveSt.gate hd),
      hv.trans (congrArg DriveSt.vdrv hd), hc.trans hctl, hf.trans hfile, fun l => ?_⟩
    obtain ⟨hclock, hkeys⟩ := s.bootLanes_clock_keys o holdup l
    rw [hn, hclock, hkeys, (hl l).2.1]
    exact ⟨rfl, rfl⟩
  case unlike =>
    intro hs hu hg
    have ht := execBoot_of_no_straps s o holdup hb (s.readStraps_of_unlike o hs hu)
    have hgate : ((s.bootChecked o holdup).event Base.sv 0x103 0).gate = false :=
      (congrArg DriveSt.gate (s.bootChecked_frame o holdup).1).trans hg
    obtain ⟨hm, hl, hv⟩ := State.enterSafe_drive _ 0x0B 3 (s.bootChecked o holdup).starting none hgate
    exact ⟨_, ht, hm, hl, hv, fun l => (State.enterSafe_lastSafe _ 0x0B 3 _ none l hgate (by omega) (by omega) (by omega)).1⟩

end Sys2Proof.Machine
end

section
/-! The Booking Office (R205 to R216): what one record, decided alone, leaves of a lane and answers, and the statement about it. -/

namespace Sys2Proof.Machine

/-! ### Bytes of the working buffer: reading after writing -/

@[simp] theorem length_toLe (w n : Nat) : (toLe w n).length = w := by
  induction w generalizing n with
  | zero => rfl
  | succ w ih => simp [toLe, ih]

theorem ofLe_toLe (w n : Nat) : ofLe (toLe w n) = n % 256 ^ w := by
  induction w generalizing n with
  | zero => simp [toLe, ofLe, Nat.mod_one]
  | succ w ih =>
    have h : (byteOf n).toNat = n % 256 := BitVec.toNat_ofNat ..
    rw [toLe, ofLe, ih, h, pow_succ', Nat.mod_mul]

/-- The first of the bytes stored, in a memory of canonical form. -/
theorem memGet_memPuts_head (m : List Host.Cell) (a : Nat) (x : Byte) (xs : Bytes) (h : SMap.wf zeroByte m = true) :
    memGet (memPuts m a (x :: xs)) a = x := by
  rw [memPuts, memGet_memPuts_outside _ _ _ _ (.inl (Nat.lt_succ_self a)), memGet_memPut_self _ _ _ h]

/-- The bytes stored read back, in a memory of canonical form. -/
theorem memBytes_memPuts (bs : Bytes) (m : List Host.Cell) (a : Nat) (h : SMap.wf zeroByte m = true) :
    memBytes (memPuts m a bs) a bs.length = bs := by
  induction bs generalizing m a with
  | nil => rfl
  | cons x xs ih =>
    have tail := ih (memPut m a x) (a + 1) (memPut_wf m a x h)
    simp only [memBytes, Nat.add_right_comm a 1, Nat.add_assoc a _ 1] at tail
    rw [memBytes, List.length_cons, List.range_succ_eq_map, List.map_cons, List.map_map, Nat.add_zero,
      memGet_memPuts_head m a x xs h]
    exact congrArg (x :: ·) tail

/-- A write leaves every byte outside it alone. -/
theorem LaneSt.imgByte_imgPut_of_outside (L : LaneSt) (a : Nat) (bs : Bytes) {b : Nat} (h : b < a ∨ a + bs.length ≤ b) :
    (L.imgPut a bs).imgByte b = L.imgByte b := congrArg BitVec.toNat (memGet_memPuts_outside bs _ a b h)

theorem LaneSt.imgByte_imgPutLe_of_outside (L : LaneSt) (a n x : Nat) {b : Nat} (h : b < a ∨ a + n ≤ b) :
    (L.imgPutLe a n x).imgByte b = L.imgByte b := L.imgByte_imgPut_of_outside a _ (by rwa [length_toLe])

theorem LaneSt.imgByte_imgPut_head (L : LaneSt) (a : Nat) (x : Byte) (xs : Bytes)
    (h : SMap.wf zeroByte L.image.working = true) : (L.imgPut a (x :: xs)).imgByte a = x.toNat :=
  congrArg BitVec.toNat (memGet_memPuts_head _ a x xs h)

theorem LaneSt.imgByte_imgPutLe_self (L : LaneSt) (a x : Nat) (h : SMap.wf zeroByte L.image.working = true) :
    (L.imgPutLe a 1 x).imgByte a = x % 256 := (L.imgByte_imgPut_head a _ _ h).trans (BitVec.toNat_ofNat ..)

theorem LaneSt.imgLe_imgPutLe_of_outside (L : LaneSt) (a n x : Nat) {b w : Nat} (h : b + w ≤ a ∨ a + n ≤ b) :
    (L.imgPutLe a n x).imgLe b w = L.imgLe b w := by
  refine congrArg ofLe (List.map_congr_left fun i hi => memGet_memPuts_outside _ _ _ _ ?_)
  have := List.mem_range.1 hi
  rw [length_toLe]
  omega

theorem LaneSt.imgLe_imgPutLe_self (L : LaneSt) (a n x : Nat) (h : SMap.wf zeroByte L.image.working = true) :
    (L.imgPutLe a n x).imgLe a n = x % 256 ^ n := by
  have hb := memBytes_memPuts (toLe n x) L.image.working a h
  rw [length_toLe] at hb
  exact (congrArg ofLe hb).trans (ofLe_toLe n x)

theorem LaneSt.imgPutLe_wf (L : LaneSt) (a n x : Nat) (h : SMap.wf zeroByte L.image.working = true) :
    SMap.wf zeroByte (L.imgPutLe a n x).image.working = true := L.imgPut_wf a _ h

theorem LaneSt.memWf_working {L : LaneSt} (h : L.memWf = true) : SMap.wf zeroByte L.image.working = true := by
  simp only [LaneSt.memWf, Bool.and_eq_true] at h
  obtain ⟨⟨⟨hw, -⟩, -⟩, -⟩ := h
  exact hw

/-! ### What a decision leaves of a lane -/

/-- A record taken for decision: counted, and the count shown in `BO_CYCLE` (R208). -/
def LaneSt.countRecord (L : LaneSt) : LaneSt :=
  let L := { L with logic := { L.logic with decided := L.logic.decided + 1 } }
  (L.setFld Reg.BO_CYCLE 0 7 L.logic.decided).maxFld Reg.BO_CYCLE 16 7 L.logic.decided

/-- A refusal leaves the image and the answers (R210, R221). -/
theorem LaneSt.bookRefuse_frame (L : LaneSt) (l : Lane) (code session ident cycle : Nat) :
    (L.bookRefuse l code session ident cycle).image = L.image
      ∧ (L.bookRefuse l code session ident cycle).logic.answers = L.logic.answers := by
  unfold LaneSt.bookRefuse
  extract_lets noted k recorded
  have hi : recorded.image = L.image := noted.record_image ..
  have ha : recorded.logic.answers = L.logic.answers := congrArg LogicSt.answers (noted.record_logic ..)
  split
  · exact ⟨hi, ha⟩
  · exact ⟨hi, ha⟩

/-- A route that nothing bars has an EMPTY slot to take (R209 steps 7 to 10). -/
theorem LaneSt.emptySlot_of_setBar_eq_zero {L : LaneSt} {r : Nat} (h : L.setBar r = 0) : ∃ n, L.emptySlot = some n := by
  cases he : L.emptySlot with
  | some n => exact ⟨n, rfl⟩
  | none =>
    unfold LaneSt.setBar at h
    rw [he] at h
    split_ifs at h
    next _ _ _ hsome => exact absurd rfl hsome

theorem LaneSt.emptySlot_lt {L : LaneSt} {n : Nat} (h : L.emptySlot = some n) : n < 512 := by
  rw [LaneSt.emptySlot] at h
  exact List.mem_range.1 (List.mem_of_find?_eq_some h)

/-! ### An accepted SET -/

theorem LaneSt.imgByte_congr {L M : LaneSt} (h : L.image = M.image) (b : Nat) : L.imgByte b = M.imgByte b := by
  rw [LaneSt.imgByte, h, LaneSt.imgByte]

theorem LaneSt.imgLe_congr {L M : LaneSt} (h : L.image = M.image) (b n : Nat) : L.imgLe b n = M.imgLe b n := by
  rw [LaneSt.imgLe, h, LaneSt.imgLe]

section
variable (L : LaneSt) (s : State) (rc : RouteCfg) (slot origin session tag : Nat)

/-- The writes of an accepted SET: the slot's record, then the route's (R216). -/
theorem LaneSt.admitRoute_image : ∃ (slotRec : Bytes) (cflags : Nat),
    (L.admitRoute s rc slot origin session tag).image
      = ((((((L.imgPut (Img.slot slot) (byteOf Route.requested :: slotRec)).imgPutLe (Img.route rc.num) 1 Route.requested).imgPutLe
          (Img.route rc.num + 1) 1 0).imgPutLe (Img.route rc.num + 3) 1 cflags).imgPutLe (Img.route rc.num + 4) 2 slot).imgPutLe
          (Img.route rc.num + 12) 4 (s.cyc.t0 / 1000)).image := ⟨_, _, rfl⟩

/-- After an accepted SET the slot mirrors the route, which is REQUESTED and names the slot. -/
theorem LaneSt.admitRoute_record (hw : SMap.wf zeroByte L.image.working = true) (hr : rc.num < 16384) (hn : slot < 512) :
    (L.admitRoute s rc slot origin session tag).slotState slot = Route.requested
      ∧ (L.admitRoute s rc slot origin session tag).routeState rc.num = Route.requested
      ∧ (L.admitRoute s rc slot origin session tag).routeSlot rc.num = slot := by
  obtain ⟨slotRec, cflags, hi⟩ := L.admitRoute_image s rc slot origin session tag
  simp only [LaneSt.slotState, LaneSt.routeState, LaneSt.routeSlot, LaneSt.imgByte_congr hi, LaneSt.imgLe_congr hi,
    Img.slot, Img.route]
  refine ⟨?_, ?_, ?_⟩
  · simp (disch := omega) only [LaneSt.imgByte_imgPutLe_of_outside]
    exact L.imgByte_imgPut_head _ _ _ hw
  · simp (disch := omega) only [LaneSt.imgByte_imgPutLe_of_outside]
    exact LaneSt.imgByte_imgPutLe_self _ _ _ (L.imgPut_wf _ _ hw)
  · rw [LaneSt.imgLe_imgPutLe_of_outside _ _ _ _ (by omega)]
    refine (LaneSt.imgLe_imgPutLe_self _ _ _ _ ?_).trans (Nat.mod_eq_of_lt (by omega))
    exact LaneSt.imgPutLe_wf _ _ _ _ <| LaneSt.imgPutLe_wf _ _ _ _ <| LaneSt.imgPutLe_wf _ _ _ _ <| L.imgPut_wf _ _ hw

end

/-! ### An accepted CANCEL -/

/-- What the Booking Office keeps with a route is neither its state nor its outcome (R204, R214). -/
theorem LaneSt.routeMoved_frame (L : LaneSt) (s : State) (r st : Nat) (hr : r < 16384) :
    (L.routeMoved s r st).routeState r = L.routeState r ∧ (L.routeMoved s r st).routeOutcome r = L.routeOutcome r := by
  have keeps {b : Nat} (hb : b = Img.route r ∨ b = Img.route r + 1) : (L.routeMoved s r st).imgByte b = L.imgByte b := by
    simp only [LaneSt.routeMoved, Img.route, Img.slot] at hb ⊢
    split_ifs <;> simp (disch := omega) only [LaneSt.imgByte_imgPutLe_of_outside]
  exact ⟨keeps (.inl rfl), keeps (.inr rfl)⟩

/-- The tag of an accepted CANCEL goes into the slot that the route names, if it names one (R215). -/
def LaneSt.noteCancelTag (L : LaneSt) (r tag : Nat) : LaneSt :=
  if (L.routeCflags r).testBit 2 then L.imgPutLe (Img.slot (L.routeSlot r) + 12) 4 tag else L

theorem LaneSt.noteCancelTag_wf (L : LaneSt) (r tag : Nat) (hw : SMap.wf zeroByte L.image.working = true) :
    SMap.wf zeroByte (L.noteCancelTag r tag).image.working = true := by
  unfold LaneSt.noteCancelTag
  split
  · exact L.imgPutLe_wf _ _ _ hw
  · exact hw

/-- A CANCEL of a REQUESTED route frees it at once (R214). -/
theorem LaneSt.acceptCancel_of_requested {L : LaneSt} (s : State) {r : Nat} (tag : Nat) (hs : L.routeState r = Route.requested) :
    L.acceptCancel s r tag = (((L.noteCancelTag r tag).imgPutLe (Img.route r) 1 Route.idle).imgPutLe
      (Img.route r + 1) 1 Booking.cancelled).routeMoved s r Route.idle := by
  simp only [LaneSt.acceptCancel, hs]
  rfl

/-- The record of a REQUESTED route after its CANCEL. -/
theorem LaneSt.acceptCancel_record (L : LaneSt) (s : State) (r tag : Nat) (hw : SMap.wf zeroByte L.image.working = true)
    (hr : r < 16384) (hs : L.routeState r = Route.requested) :
    (L.acceptCancel s r tag).routeState r = Route.idle ∧ (L.acceptCancel s r tag).routeOutcome r = Booking.cancelled := by
  have hn := L.noteCancelTag_wf r tag hw
  have hm := LaneSt.imgPutLe_wf _ (Img.route r) 1 Route.idle hn
  obtain ⟨hst, hout⟩ := LaneSt.routeMoved_frame (((L.noteCancelTag r tag).imgPutLe (Img.route r) 1 Route.idle).imgPutLe
    (Img.route r + 1) 1 Booking.cancelled) s r Route.idle hr
  rw [LaneSt.acceptCancel_of_requested s tag hs, hst, hout]
  constructor
  · exact (LaneSt.imgByte_imgPutLe_of_outside _ _ _ _ (.inl (Nat.lt_succ_self _))).trans (LaneSt.imgByte_imgPutLe_self _ _ _ hn)
  · exact LaneSt.imgByte_imgPutLe_self _ _ _ hm

/-! ### Decisions (R209 to R211, R214) -/

section
variable {L : LaneSt} {l : Lane} {s : State} {session : Nat} {r : ReqRec} {rc : RouteCfg}

theorem LaneSt.decideSet_of_unknown (hrun : s.mstate.running = true) (hrc : s.routeById r.routeId.toNat = none) :
    L.decideSet l s session r = L.decline l s Booking.unknownRoute session r.routeId.toNat 0 := by
  simp [LaneSt.decideSet, hrun, hrc]

theorem LaneSt.decideSet_of_unauthorised (hrun : s.mstate.running = true) (hrc : s.routeById r.routeId.toNat = some rc)
    (hby : rc.setBy.contains session = false) :
    L.decideSet l s session r = L.decline l s Booking.notAuthorised session r.routeId.toNat (L.routeState rc.num) := by
  simp only [LaneSt.decideSet, hrun, hrc, hby, Bool.not_true, Bool.not_false, Bool.false_eq_true, if_false, if_true]

theorem LaneSt.decideSet_of_repeated {n : Nat} (hrun : s.mstate.running = true) (hrc : s.routeById r.routeId.toNat = some rc)
    (hby : rc.setBy.contains session = true) (ht : L.tagSlot r.routeId.toNat r.tag.toNat 8 (some session) = some n) :
    L.decideSet l s session r = ⟨L, 0, n, L.routeState rc.num⟩ := by
  simp only [LaneSt.decideSet, hrun, hrc, hby, ht, Bool.not_true, Bool.false_eq_true, if_false]

theorem LaneSt.decideSet_of_barred (hrun : s.mstate.running = true) (hrc : s.routeById r.routeId.toNat = some rc)
    (hby : rc.setBy.contains session = true) (ht : L.tagSlot r.routeId.toNat r.tag.toNat 8 (some session) = none)
    (hb : L.setBar rc.num ≠ 0) :
    L.decideSet l s session r = L.decline l s (L.setBar rc.num) session r.routeId.toNat (L.routeState rc.num) := by
  simp only [LaneSt.decideSet, hrun, hrc, hby, ht, Bool.not_true, Bool.false_eq_true, if_false]
  exact if_pos hb

theorem LaneSt.decideSet_of_free {n : Nat} (hrun : s.mstate.running = true) (hrc : s.routeById r.routeId.toNat = some rc)
    (hby : rc.setBy.contains session = true) (ht : L.tagSlot r.routeId.toNat r.tag.toNat 8 (some session) = none)
    (hb : L.setBar rc.num = 0) (he : L.emptySlot = some n) :
    L.decideSet l s session r = ⟨L.admitRoute s rc n 1 session r.tag.toNat, 0, n, Route.requested⟩ := by
  simp only [LaneSt.decideSet, hrun, hrc, hby, ht, he, Bool.not_true, Bool.false_eq_true, if_false]
  exact if_neg (not_not.2 hb)

/-- A CANCEL by a session that may cancel, of a tag that no slot holds, goes by the route's state. -/
theorem LaneSt.decideCancel_of_new (hrun : s.mstate.running = true) (hrc : s.routeById r.routeId.toNat = some rc)
    (hby : rc.cancBy.contains session = true) (ht : L.tagSlot r.routeId.toNat r.tag.toNat 12 none = none) :
    (L.routeState rc.num = Route.idle →
        L.decideCancel l s session r = L.decline l s Booking.notSet session r.routeId.toNat Route.idle)
      ∧ (L.routeState rc.num = Route.occupied →
        L.decideCancel l s session r = L.decline l s Booking.trainInRoute session r.routeId.toNat Route.occupied)
      ∧ (L.routeState rc.num = Route.requested →
        (L.decideCancel l s session r).lane = L.acceptCancel s rc.num r.tag.toNat) := by
  simp only [LaneSt.decideCancel, hrun, hrc, hby, ht, Bool.not_true, Bool.false_eq_true, if_false]
  refine ⟨?_, ?_, ?_⟩
  all_goals
    intro h
    rw [h]
    rfl

theorem LaneSt.decideQuery_of_known (hrc : s.routeById r.routeId.toNat = some rc) :
    L.decideQuery l s session r = ⟨L, 0, L.answerSlot rc.num, L.routeState rc.num⟩ := by
  rw [LaneSt.decideQuery, hrc]

theorem not_badRec (h1 : r.rsv = 0) (h2 : r.rsv2 = 0) (ht : r.tag ≠ 0) (withTag : Bool) : ¬ badRec r withTag = true := by
  simpa [badRec, h1, h2] using fun _ => ht

/-- A well-formed SET within the limit of a cycle is counted and decided (R208, R209); so are CANCEL and QUERY. -/
theorem LaneSt.decideOp_of_set (hd : L.logic.decided < 64) (h1 : r.rsv = 0) (h2 : r.rsv2 = 0) (ht : r.tag ≠ 0) :
    L.decideOp l s session { r with op := 1 } = L.countRecord.decideSet l s session { r with op := 1 } :=
  (if_neg (Nat.not_le.2 hd)).trans (if_neg (not_badRec h1 h2 ht true))

theorem LaneSt.decideOp_of_cancel (hd : L.logic.decided < 64) (h1 : r.rsv = 0) (h2 : r.rsv2 = 0) (ht : r.tag ≠ 0) :
    L.decideOp l s session { r with op := 2 } = L.countRecord.decideCancel l s session { r with op := 2 } :=
  (if_neg (Nat.not_le.2 hd)).trans (if_neg (not_badRec h1 h2 ht true))

theorem LaneSt.decideOp_of_query (hd : L.logic.decided < 64) (h1 : r.rsv = 0) (h2 : r.rsv2 = 0) (ht : r.tag ≠ 0) :
    L.decideOp l s session { r with op := 3 } = L.countRecord.decideQuery l s session { r with op := 3 } :=
  (if_neg (Nat.not_le.2 hd)).trans (if_neg (not_badRec h1 h2 ht false))

/-- The 65th record of a cycle (R208). -/
theorem LaneSt.decideOp_of_busy (hd : 64 ≤ L.logic.decided) (hrc : s.routeById r.routeId.toNat = some rc) :
    L.decideOp l s session r = L.decline l s Booking.busy session r.routeId.toNat (L.routeState rc.num) := by
  simp only [LaneSt.decideOp, if_pos hd, hrc]

/-! ### One record decided and answered (R206) -/

/-- A record other than padding leaves the image of its decision. -/
theorem LaneSt.bookOne_image (hop : r.op ≠ 0) : (L.bookOne l s session r).image = (L.decideOp l s session r).lane.image := by
  rw [LaneSt.bookOne, if_neg hop]

/-- A record other than padding is answered with its decision. -/
theorem LaneSt.bookOne_answers (hop : r.op ≠ 0) {d : Decision} (hd : L.decideOp l s session r = d)
    (ha : d.lane.logic.answers = L.logic.answers) :
    (L.bookOne l s session r).logic.answers = L.logic.answers
      ++ [(session, answerRecord r.op.toNat d.result r.routeId.toNat r.tag.toNat d.slot d.state s.nextGen)] := by
  rw [LaneSt.bookOne, if_neg hop, hd, ← ha]

/-- A record whose decision keeps the image and is `result`, naming a slot and a state, is answered so and changes no byte. -/
theorem LaneSt.bookOne_of_kept (hop : r.op ≠ 0) {M : LaneSt} {result slot state : Nat}
    (hd : L.decideOp l s session r = ⟨M, result, slot, state⟩) (hi : M.image = L.image)
    (ha : M.logic.answers = L.logic.answers) :
    (L.bookOne l s session r).image = L.image ∧ (L.bookOne l s session r).logic.answers = L.logic.answers
      ++ [(session, answerRecord r.op.toNat result r.routeId.toNat r.tag.toNat slot state s.nextGen)] :=
  ⟨(LaneSt.bookOne_image hop).trans (hd ▸ hi), LaneSt.bookOne_answers hop hd ha⟩

/-- A refused record changes no byte of the image and is answered with its code (R210). -/
theorem LaneSt.bookOne_of_declined (hop : r.op ≠ 0) {M : LaneSt} {code state : Nat}
    (hd : L.decideOp l s session r = M.decline l s code session r.routeId.toNat state) (hi : M.image = L.image)
    (ha : M.logic.answers = L.logic.answers) :
    (L.bookOne l s session r).image = L.image ∧ (L.bookOne l s session r).logic.answers = L.logic.answers
      ++ [(session, answerRecord r.op.toNat code r.routeId.toNat r.tag.toNat 0xFFFF state s.nextGen)] := by
  obtain ⟨hi', ha'⟩ := M.bookRefuse_frame l code session r.routeId.toNat s.cyc.num
  exact LaneSt.bookOne_of_kept hop hd (hi'.trans hi) (ha'.trans ha)

/-- A SET of a route that nothing bars: it is REQUESTED, in the lowest EMPTY slot (R209, R216). -/
theorem LaneSt.bookOne_of_admitted (hrun : s.mstate.running = true) (hrc : s.routeById r.routeId.toNat = some rc)
    (hnum : rc.num < 16384) (hw : L.memWf = true) (hop : r.op ≠ 0)
    (hd : L.decideOp l s session r = L.countRecord.decideSet l s session r) (hby : rc.setBy.contains session = true)
    (ht : L.tagSlot r.routeId.toNat r.tag.toNat 8 (some session) = none) (hb : L.setBar rc.num = 0) :
    ∃ n : Nat, L.emptySlot = some n ∧ (L.bookOne l s session r).slotState n = Route.requested
      ∧ (L.bookOne l s session r).routeState rc.num = Route.requested ∧ (L.bookOne l s session r).routeSlot rc.num = n
      ∧ (L.bookOne l s session r).logic.answers = L.logic.answers
          ++ [(session, answerRecord r.op.toNat 0 r.routeId.toNat r.tag.toNat n Route.requested s.nextGen)] := by
  obtain ⟨n, hn⟩ := LaneSt.emptySlot_of_setBar_eq_zero hb
  have hdec := hd.trans (LaneSt.decideSet_of_free hrun hrc hby ht hb hn)
  have hi := LaneSt.bookOne_image (L := L) (l := l) (s := s) (session := session) hop
  rw [hdec] at hi
  obtain ⟨hslot, hroute, hnamed⟩ := L.countRecord.admitRoute_record s rc n 1 session r.tag.toNat (LaneSt.memWf_working hw) hnum
    (LaneSt.emptySlot_lt hn)
  exact ⟨n, hn, (LaneSt.imgByte_congr hi _).trans hslot, (LaneSt.imgByte_congr hi _).trans hroute,
    (LaneSt.imgLe_congr hi _ _).trans hnamed, LaneSt.bookOne_answers hop hdec rfl⟩

/-- A record whose decision accepts a CANCEL of a REQUESTED route frees it with outcome CANCELLED (R214). -/
theorem LaneSt.bookOne_of_cancelled (hnum : rc.num < 16384) (hw : L.memWf = true) (hop : r.op ≠ 0)
    (hd : (L.decideOp l s session r).lane = L.countRecord.acceptCancel s rc.num r.tag.toNat)
    (hs : L.routeState rc.num = Route.requested) :
    (L.bookOne l s session r).routeState rc.num = Route.idle
      ∧ (L.bookOne l s session r).routeOutcome rc.num = Booking.cancelled := by
  have hi := LaneSt.bookOne_image (L := L) (l := l) (s := s) (session := session) hop
  rw [hd] at hi
  obtain ⟨hfree, hout⟩ := L.countRecord.acceptCancel_record s rc.num r.tag.toNat (LaneSt.memWf_working hw) hnum hs
  exact ⟨(LaneSt.imgByte_congr hi _).trans hfree, (LaneSt.imgByte_congr hi _).trans hout⟩

end

/-! ### The commands -/

theorem MState.decides_of_run_or_duty {m : MState} (h : m = .run ∨ m = .duty) : m.running = true ∧ m.evaluates = true := by
  rcases h with rfl | rfl
  · exact ⟨rfl, rfl⟩
  · exact ⟨rfl, rfl⟩

/-- LINESIDE role has no route (R19). -/
theorem State.routeById_of_lineside {s : State} (h : s.role = .lineside) (id : Nat) : s.routeById id = none := by
  rw [State.routeById, State.routes, h]
  rfl

/-- A record decided alone leaves the drive, the states of the lanes and the queue. -/
theorem State.bookRecord_steady (s : State) (session : Nat) (r : ReqRec) : s.Steady (s.bookRecord session r) := by
  unfold State.bookRecord
  split <;> exact ⟨rfl, rfl, rfl⟩

/-- Every lane that evaluates decides the record by itself. -/
theorem State.bookRecord_lane {s : State} (session : Nat) (r : ReqRec) {l : Lane} (he : s.mstate.evaluates = true)
    (hl : s.inStep.get l = true) : (s.bookRecord session r).lane.get l = (s.lane.get l).bookOne l s session r := by
  rw [State.bookRecord, if_pos he, State.updIn_lane, if_pos hl]

/-- A slot that has been CLOSED for four generations becomes EMPTY; one that is not CLOSED stays (R216). -/
theorem execSlotEmptied_next (s : State) (n : BitVec 9) :
    ∃ t, execSlotEmptied n s = .next t ∧ s.Steady t ∧ ∀ l : Lane, s.inStep.get l = true →
      ((s.lane.get l).memWf = true → (s.lane.get l).slotState n.toNat = 0xF →
        4 ≤ ((s.lane.get l).logic.closedAt.lookup n.toNat).getD 0 → (t.lane.get l).slotState n.toNat = 0)
      ∧ ((s.lane.get l).slotState n.toNat ≠ 0xF → t.lane.get l = s.lane.get l) := by
  refine ⟨_, rfl, ⟨rfl, rfl, rfl⟩, fun l hl => ?_⟩
  rw [State.updIn_lane, if_pos hl]
  constructor
  · intro hw hc h4
    rw [if_pos ⟨hc, h4⟩]
    exact (LaneSt.imgByte_imgPutLe_of_outside _ _ _ _ (.inl (by omega))).trans
      (LaneSt.imgByte_imgPutLe_self _ _ _ (LaneSt.memWf_working hw))
  · intro hc
    exact if_neg fun h => hc h.1

/-- Settles O44: each clause is one case of the decision of a record, which every lane that evaluates takes alone. -/
theorem routeRecords : Obligations.RouteRecords := by
  intro s session r hm
  obtain ⟨hrun, he⟩ := MState.decides_of_run_or_duty hm
  refine ⟨fun h => s.routeById_of_lineside h _, ?unknown, fun rc hrc hnum h1 h2 ht =>
    ⟨?set, ?cancel, ?query, execSlotEmptied_next s⟩⟩
  case unknown =>
    intro hrc h1 h2 ht
    refine ⟨_, rfl, s.bookRecord_steady .., fun l hl hd => ?_⟩
    rw [State.bookRecord_lane _ _ he hl]
    exact LaneSt.bookOne_of_declined (by decide : (1 : Byte) ≠ 0)
      ((LaneSt.decideOp_of_set hd h1 h2 ht).trans (LaneSt.decideSet_of_unknown hrun hrc)) rfl rfl
  case set =>
    refine ⟨_, rfl, s.bookRecord_steady .., fun l hl hd hw => ?_⟩
    rw [State.bookRecord_lane _ _ he hl]
    have h0 : (1 : Byte) ≠ 0 := by decide
    have hop := LaneSt.decideOp_of_set (l := l) (s := s) (session := session.toNat) hd h1 h2 ht
    refine ⟨LaneSt.bookOne_of_admitted (r := { r with op := 1 }) hrun hrc hnum hw h0 hop, fun n hby htag => ?_, ?_⟩
    · exact LaneSt.bookOne_of_kept h0 (hop.trans (LaneSt.decideSet_of_repeated hrun hrc hby htag)) rfl rfl
    · rintro code (⟨hby, rfl⟩ | ⟨hby, htag, rfl, hbar⟩)
      · exact LaneSt.bookOne_of_declined h0 (hop.trans (LaneSt.decideSet_of_unauthorised hrun hrc hby)) rfl rfl
      · exact LaneSt.bookOne_of_declined h0 (hop.trans (LaneSt.decideSet_of_barred hrun hrc hby htag hbar)) rfl rfl
  case cancel =>
    refine ⟨_, rfl, s.bookRecord_steady .., fun l hl hd hw hby htag => ?_⟩
    rw [State.bookRecord_lane _ _ he hl]
    have h0 : (2 : Byte) ≠ 0 := by decide
    have hop := LaneSt.decideOp_of_cancel (l := l) (s := s) (session := session.toNat) hd h1 h2 ht
    obtain ⟨hidle, hoccupied, hrequested⟩ := LaneSt.decideCancel_of_new (L := (s.lane.get l).countRecord) (l := l)
      (r := { r with op := 2 }) hrun hrc hby htag
    exact ⟨fun hs => LaneSt.bookOne_of_cancelled hnum hw h0 ((congrArg Decision.lane hop).trans (hrequested hs)) hs,
      fun hs => LaneSt.bookOne_of_declined h0 (hop.trans (hidle hs)) rfl rfl,
      fun hs => LaneSt.bookOne_of_declined h0 (hop.trans (hoccupied hs)) rfl rfl⟩
  case query =>
    refine ⟨_, rfl, s.bookRecord_steady .., fun l hl => ?_⟩
    rw [State.bookRecord_lane _ _ he hl]
    have h0 : (3 : Byte) ≠ 0 := by decide
    rcases Nat.lt_or_ge (s.lane.get l).logic.decided 64 with hd | hd
    · obtain ⟨hi, ha⟩ := LaneSt.bookOne_of_kept (l := l) (s := s) (session := session.toNat) (r := { r with op := 3 }) h0
        ((LaneSt.decideOp_of_query hd h1 h2 ht).trans (LaneSt.decideQuery_of_known hrc)) rfl rfl
      exact ⟨hi, fun _ => ha, fun hb => absurd hd (Nat.not_lt.2 hb)⟩
    · obtain ⟨hi, ha⟩ := LaneSt.bookOne_of_declined (l := l) (s := s) (session := session.toNat) (r := { r with op := 3 }) h0
        (LaneSt.decideOp_of_busy hd hrc) rfl rfl
      exact ⟨hi, fun hb => absurd hb (Nat.not_lt.2 hd), fun _ => ha⟩

end Sys2Proof.Machine
end

section
/-! Lanes and voting: RESET's fail-safe state, and the two statements of this family that do not hold as they are written. -/

namespace Sys2Proof.Machine

/-- Settles O3: the gate is open in BOOT, and VITAL_DRV stands still. -/
theorem resetIsFailSafe : Obligations.ResetIsFailSafe :=
  ⟨⟨fun h => absurd h (by decide), fun _ => rfl⟩, rfl⟩

/-- A frame of the pair AB at the transmitter of NET 1. -/
def waitingFrame : TxFrame := ⟨.net1, [1, 2], 0, none⟩

/-- A duty module of three ACTIVE lanes under policy HANDOVER (`VOTE_CFG` bit 8, R56), whose standby can take the role; one frame
waits at NET 1. -/
def handoverPolicyState : State :=
  { State.reset with
    drv := { State.reset.drv with mstate := .duty }, txq := [waitingFrame]
    lane := .all (LaneSt.reset.setReg Reg.VOTE_CFG 0x148)
    xo := { role := .holder, hb := true
            peer := some { mstate := 8, role := 2, sync := 2, lanes3 := true, gen := 0, digest := 0, chg := 0, hours := 0 } } }

/-- The frames at the transmitters after a command. -/
def framesAfter (c : Instr) (s : State) : Nat :=
  match exec c s with
  | .next u => u.txq.length
  | _ => 0

/-- The third lane differs and leaves the vote: the module is in 2-out-of-2 operation, starts a planned handover (R56) and puts its
offer at XH (R410). -/
theorem framesAfter_handoverPolicyState :
    framesAfter (.txFrameStart .net1 ⟨[1], [1], [2]⟩) handoverPolicyState = 1 := by decide +kernel

/-- Refutes O27: of a duty module under policy HANDOVER, a third lane that differs leaves the vote, and the entry to 2-out-of-2
operation offers the role to the standby at once (R56, R410). The offer is a frame for lane XH, so the queue that TX_FRAME_START
leaves is not the rest of the queue. -/
theorem not_pairedTransmitters : ¬ Obligations.PairedTransmitters := by
  intro h
  obtain ⟨hstart, -⟩ := h handoverPolicyState .net1 waitingFrame [] (by decide)
  obtain ⟨hpair, -⟩ := hstart .A .B ⟨[1], [1], [2]⟩ (by decide +kernel) rfl
  obtain ⟨-, hthird, -⟩ := hpair (by decide) (by decide)
  obtain ⟨u, hu, -, hq⟩ := hthird .C (by decide) (by decide) (by decide)
  have hn := framesAfter_handoverPolicyState
  rw [framesAfter, hu] at hn
  have hl : u.txq.length = 1 := hn
  rw [hq] at hl
  cases hl

/-- RUN after the digest vote: output channel 3 is commanded ON by every lane and is listed twice among the channels, first in service
with a date, then failed. -/
def twiceListedState : State :=
  { State.reset with
    drv := { State.reset.drv with mstate := .run }, cyc := { step := .voted }, file := { blankFile with chans := [(3, { mode := 2 })] }
    fld := { chan := [(3, { onFrom := 1 }), (3, { failed := true })] }
    lane := .all { LaneSt.reset with logic := { LogicSt.reset with out := [(0, 8)] } } }

/-- A channel that lane A commands ON after a command is out of service. -/
def drivesOos (c : Instr) (n : Nat) (s : State) : Bool :=
  match exec c s with
  | .next u => chanBit (u.lane.get .A).field.cmd n && u.chanOos n
  | _ => false

/-- Turning ON puts the date of channel 3 at its default, so its first entry leaves the list, and the second shows. -/
theorem drivesOos_twiceListedState : drivesOos .outputInstant 3 twiceListedState = true := by decide +kernel

/-- Refutes O24: the statement ranges over states whose sparse map of channels is not in its canonical form. With channel 3 listed twice,
first in service, then failed, OUTPUT_INSTANT closes its switches, and its new date, the default, takes the first entry out of the map:
the channel that is commanded reads out of service. -/
theorem not_outputAndRelease : ¬ Obligations.OutputAndRelease := by
  intro h
  obtain ⟨hout, -⟩ := h twiceListedState (by decide)
  obtain ⟨t, ht, -, -, -, -, -, -, hcmd, -⟩ := hout (.inl rfl)
  have hd := drivesOos_twiceListedState
  simp only [drivesOos, ht, Bool.and_eq_true] at hd
  obtain ⟨-, hserved⟩ := hcmd rfl .A rfl
  exact absurd hd.2 (by rw [(hserved 3 hd.1).2]; decide)

end Sys2Proof.Machine
end

section
/-! Reactions (R420 to R447): what every report, exclusion and entry into SAFE keeps of the module, said once as a relation between
the states before and after. -/

namespace Sys2Proof.Machine

/-! ### What a reaction keeps of a lane -/

/-- `BLK_ERR` registers reset to 0 (R78). -/
theorem resetOf_blkErr {off : Nat} (h : off % 0x1000 = 0x10) : Sys2Proof.Machine.resetOf off = 0 := by
  have hrow (p : Page) (i : Nat) : pageRow p i 0x10 = (commonRows p i)[4]? := rfl
  unfold Sys2Proof.Machine.resetOf
  rw [h]
  cases pageOf off with
  | none => rfl
  | some q =>
    obtain ⟨p, i⟩ := q
    cases p <;> rfl

/-- A lane's image and cell bits stand, a switch driver that commands nothing goes on so, and no `BLK_ERR` bit is cleared. -/
structure LaneSt.Keeps (L M : LaneSt) : Prop where
  image  : M.image = L.image
  blkMem : M.logic.blkMem = L.logic.blkMem
  loc    : M.logic.loc = L.logic.loc
  prv    : M.logic.prv = L.logic.prv
  cmd    : L.field.cmd = 0 → M.field.cmd = 0
  err    : ∀ off n, off % 0x1000 = 0x10 → L.bit off n = true → M.bit off n = true

namespace LaneSt.Keeps

theorem refl (L : LaneSt) : L.Keeps L := ⟨rfl, rfl, rfl, rfl, id, fun _ _ _ => id⟩

theorem trans {L M N : LaneSt} (h : L.Keeps M) (k : M.Keeps N) : L.Keeps N :=
  ⟨k.image.trans h.image, k.blkMem.trans h.blkMem, k.loc.trans h.loc, k.prv.trans h.prv, k.cmd ∘ h.cmd,
    fun off n ho hb => k.err off n ho (h.err off n ho hb)⟩

/-- A change that leaves registers, image and cell bits alone and commands no switch. -/
theorem of_regs {L M : LaneSt} (hr : M.regs = L.regs) (hi : M.image = L.image) (hb : M.logic.blkMem = L.logic.blkMem)
    (hl : M.logic.loc = L.logic.loc) (hp : M.logic.prv = L.logic.prv) (hc : L.field.cmd = 0 → M.field.cmd = 0) : L.Keeps M :=
  ⟨hi, hb, hl, hp, hc, fun off n _ h => by rwa [LaneSt.bit, LaneSt.reg, hr]⟩

theorem setReg (L : LaneSt) {off : Nat} (v : Word) (h : off % 0x1000 ≠ 0x10) : L.Keeps (L.setReg off v) :=
  ⟨rfl, rfl, rfl, rfl, id, fun o n ho hb => by
    have hne : o ≠ off := by rintro rfl; exact h ho
    rwa [LaneSt.bit, LaneSt.reg_setReg_of_ne _ _ hne]⟩

theorem setFld (L : LaneSt) {off : Nat} (lo w x : Nat) (h : off % 0x1000 ≠ 0x10) : L.Keeps (L.setFld off lo w x) := setReg L _ h

theorem addFld (L : LaneSt) {off : Nat} (lo w n : Nat) (h : off % 0x1000 ≠ 0x10) : L.Keeps (L.addFld off lo w n) := setReg L _ h

theorem clearBits (L : LaneSt) {off : Nat} (m : Nat) (h : off % 0x1000 ≠ 0x10) : L.Keeps (L.clearBits off m) := setReg L _ h

end LaneSt.Keeps

/-- A bit is set that was set, or that is among the bits set now. -/
theorem LaneSt.bit_setBits_self (L : LaneSt) {off m n : Nat} (ho : off % 0x1000 = 0x10) (hn : n < 32)
    (h : L.bit off n = true ∨ m.testBit n = true) : (L.setBits off m).bit off n = true := by
  have hbit : (L.reg off ||| BitVec.ofNat 32 m).toNat.testBit n = true := by
    rw [BitVec.toNat_or, Nat.testBit_or, BitVec.toNat_ofNat, Nat.testBit_mod_two_pow]
    rcases h with h | h
    · rw [show (L.reg off).toNat.testBit n = true from h, Bool.true_or]
    · rw [h, decide_eq_true hn, Bool.true_and, Bool.or_true]
  have hne : L.reg off ||| BitVec.ofNat 32 m ≠ Sys2Proof.Machine.resetOf off := by
    rw [resetOf_blkErr ho]
    intro e
    rw [e] at hbit
    exact absurd hbit (by simp)
  rw [LaneSt.bit, LaneSt.setBits, LaneSt.reg_setReg_of_ne_default _ _ _ hne]
  exact hbit

theorem LaneSt.Keeps.setBits (L : LaneSt) (off m : Nat) : L.Keeps (L.setBits off m) :=
  ⟨rfl, rfl, rfl, rfl, id, fun o n ho hb => by
    by_cases e : o = off
    · subst e
      by_cases hn : n < 32
      · exact L.bit_setBits_self ho hn (.inl hb)
      · have hlt : (L.reg o).toNat < 2 ^ n := (L.reg o).isLt.trans_le (Nat.pow_le_pow_right (by omega) (by omega))
        rw [LaneSt.bit, Nat.testBit_lt_two_pow hlt] at hb
        cases hb
    · rwa [LaneSt.bit, LaneSt.setBits, LaneSt.reg_setReg_of_ne _ _ e]⟩

theorem LaneSt.Keeps.record (L : LaneSt) (path : Word) (code : Half) (cls flags cycle : Nat) (data : BitVec 48) :
    L.Keeps (L.record path code cls flags cycle data) :=
  ⟨L.record_image .., congrArg LogicSt.blkMem (L.record_logic ..), congrArg LogicSt.loc (L.record_logic ..),
    congrArg LogicSt.prv (L.record_logic ..), by rw [L.record_field]; exact id,
    fun off n ho hb => by
      rwa [LaneSt.bit, L.reg_record_of_ne _ _ _ _ _ _ (fun e => absurd (e ▸ ho) (by decide))]⟩

/-- What every change of a fold keeps, the fold keeps. -/
theorem LaneSt.Keeps.foldl {α : Type} {f : LaneSt → α → LaneSt} (h : ∀ (L : LaneSt) (a : α), L.Keeps (f L a)) :
    ∀ (xs : List α) (L : LaneSt), L.Keeps (xs.foldl f L)
  | [], L => .refl L
  | x :: xs, L => (h L x).trans (LaneSt.Keeps.foldl h xs (f L x))

theorem LaneSt.Keeps.closeShadow (L : LaneSt) (b : Nat) :
    L.Keeps ((L.setReg (Reg.LF_SHD_STAT b) 0).clearBits (Reg.LF_SHD_CTRL b) 1) :=
  (Keeps.setReg L 0 (by unfold Reg.LF_SHD_STAT; omega)).trans (Keeps.clearBits _ 1 (by unfold Reg.LF_SHD_CTRL; omega))

theorem LaneSt.Keeps.closeShadows (L : LaneSt) : L.Keeps L.closeShadows :=
  Keeps.foldl (fun L b => by
    by_cases h : L.bit (Reg.LF_SHD_CTRL b) 0 = true
    · rw [if_pos h]
      exact Keeps.closeShadow L b
    · rw [if_neg h]
      exact .refl L) _ L

theorem LaneSt.Keeps.emptyShadow (L : LaneSt) : L.Keeps L.emptyShadow := by
  unfold LaneSt.emptyShadow
  extract_lets _ M
  have hM : L.Keeps M := .of_regs rfl rfl rfl rfl rfl id
  exact hM.trans (Keeps.foldl Keeps.closeShadow _ _)

theorem LaneSt.Keeps.startReset (L : LaneSt) (now : Nat) (scope : RScope) (k : Blk) (tag : Option Byte) :
    L.Keeps (L.startReset now scope k tag) := by
  unfold LaneSt.startReset
  extract_lets r
  split
  · exact .refl L
  · exact .of_regs rfl rfl rfl rfl rfl id

theorem LaneSt.Keeps.leaveVote (L : LaneSt) (cause : Nat) (cls : FClass) (det : Option Det) : L.Keeps (L.leaveVote cause cls det) := by
  unfold LaneSt.leaveVote
  extract_lets place _ _ M
  have hM : L.Keeps M := .of_regs rfl rfl rfl rfl rfl fun _ => rfl
  exact hM.trans ((Keeps.setReg M _ (by decide)).trans (Keeps.setBits _ _ _))

theorem LaneSt.leaveVote_cmd (L : LaneSt) (cause : Nat) (cls : FClass) (det : Option Det) : (L.leaveVote cause cls det).field.cmd = 0 :=
  rfl

theorem LaneSt.Keeps.noteFirst (L : LaneSt) (k : Blk) : L.Keeps (L.noteFirst k) := by
  unfold LaneSt.noteFirst
  extract_lets r
  split
  · exact .refl L
  · exact .setFld L _ _ _ (by unfold Reg.RC_STAT; omega)

theorem LaneSt.Keeps.takeReport (L : LaneSt) (l : Lane) (k : Blk) (bit : Nat) (cls : FClass) (flags cycle data : Nat) :
    L.Keeps (L.takeReport l k bit cls flags cycle data) := by
  unfold LaneSt.takeReport
  extract_lets cell R C
  have hC : L.Keeps C := (Keeps.record ..).trans (.addFld _ _ _ _ (by unfold Blk.base; omega))
  refine hC.trans ?_
  cases cls with
  | note => exact .addFld _ _ _ _ (by decide)
  | corrected => exact (Keeps.addFld _ _ _ _ (by decide)).trans (.setBits _ _ _)
  | laneRecover => exact .addFld _ _ _ _ (by decide)
  | laneHalt => exact .addFld _ _ _ _ (by decide)
  | moduleSafe => exact .refl _

theorem LaneSt.Keeps.recordOnce (L : LaneSt) (l : Lane) (d : Det) (code : Half) (cycle data : Nat) :
    L.Keeps (L.recordOnce l d code cycle data) := by
  unfold LaneSt.recordOnce
  split
  · exact .refl L
  · exact (Keeps.record ..).trans (.of_regs rfl rfl rfl rfl rfl id)

end Sys2Proof.Machine
end

section
/-! Reactions (R420 to R447) of the module: the entry into SAFE, the exclusion of a lane, a report. -/

namespace Sys2Proof.Machine

/-- The part of the module that no reaction changes: the state with everything that one may change put back to its reset value. -/
def State.unmoved (s : State) : State :=
  { s with
    drv := State.reset.drv, ctl := State.reset.ctl, lane := State.reset.lane, gateActive := .all false, auths := [], prepare := none
    confirmed := false, fld := {}, txq := [], held := [], formWait := [], maint := [], canPort := [], chg := {}, inj := none
    link := { s.link with node := .off }
    xo := { s.xo with
      role := .none, sync := .none, hoCycle := none, hoPaused := false, hoConf := false, hoTaken := false, claimAt := none
      peerSince := none, retryAt := 0, out := {} } }

/-- A lane that does not vote: EXCLUDED or HALTED. -/
def State.isOut (s : State) (l : Lane) : Prop := s.mode l = .excluded ∨ s.mode l = .halted

/-- What a reaction may do to the module, the lanes of `X` among those that may leave the vote by it: it enters SAFE or goes on; a
lane outside the vote stays out, one without a permit gets none; what a lane keeps is kept; a module in SAFE stays stopped. -/
structure State.Reacts (X : Lane → Prop) (s t : State) : Prop where
  unmoved : t.unmoved = s.unmoved
  mstate  : t.mstate = s.mstate ∨ t.mstate = .safe
  stays   : ∀ l, ¬ X l → s.mode l ≠ .resync → t.mode l = s.mode l
  out     : ∀ l, s.isOut l → t.isOut l
  permit  : ∀ l, (s.ctl.get l).permit = false → (t.ctl.get l).permit = false
  lane    : ∀ l, (s.lane.get l).Keeps (t.lane.get l)
  stopped : s.Stopped → t.Stopped
  claim   : s.xo.claimAt = none → t.xo.claimAt = none
  retry   : t.xo.retryAt = s.xo.retryAt ∨ t.xo.retryAt = s.now + 10000000000

namespace State.Reacts

variable {X : Lane → Prop} {s t u : State}

theorem refl (X : Lane → Prop) (s : State) : s.Reacts X s :=
  ⟨rfl, .inl rfl, fun _ _ _ => rfl, fun _ => id, fun _ => id, fun _ => .refl _, id, id, .inl rfl⟩

theorem now (h : s.Reacts X t) : t.now = s.now := by
  have e := congrArg State.now h.unmoved
  exact e

theorem trans (h : s.Reacts X t) (k : t.Reacts X u) : s.Reacts X u where
  unmoved := k.unmoved.trans h.unmoved
  mstate := k.mstate.elim (fun e => h.mstate.imp e.trans e.trans) .inr
  stays l hX hr :=
    have e := h.stays l hX hr
    (k.stays l hX (e ▸ hr)).trans e
  out l := k.out l ∘ h.out l
  permit l := k.permit l ∘ h.permit l
  lane l := (h.lane l).trans (k.lane l)
  stopped := k.stopped ∘ h.stopped
  claim := k.claim ∘ h.claim
  retry :=
    k.retry.elim (fun r => h.retry.imp r.trans r.trans) fun r => .inr (r.trans (by rw [h.now]))

/-- What every step of a fold does, the fold does. -/
theorem foldl {α : Type} {g : State → α → State} (h : ∀ (s : State) (a : α), s.Reacts X (g s a)) :
    ∀ (xs : List α) (s : State), s.Reacts X (xs.foldl g s)
  | [], s => refl X s
  | x :: xs, s => (h s x).trans (foldl h xs (g s x))

theorem ite {c : Prop} [Decidable c] {a b : State} (ha : c → s.Reacts X a) (hb : ¬ c → s.Reacts X b) :
    s.Reacts X (if c then a else b) := by
  by_cases h : c
  · rw [if_pos h]; exact ha h
  · rw [if_neg h]; exact hb h

/-- A change that leaves the drive and the lanes' states as they are, and queues nothing. -/
theorem of_steady (X : Lane → Prop) {s t : State} (hu : t.unmoved = s.unmoved) (hd : t.drv = s.drv) (hc : t.ctl = s.ctl)
    (hq : s.txq = [] → t.txq = []) (hh : s.held = [] → t.held = []) (hl : ∀ l, (s.lane.get l).Keeps (t.lane.get l))
    (hx : s.xo.claimAt = none → t.xo.claimAt = none) (hr : t.xo.retryAt = s.xo.retryAt) : s.Reacts X t where
  unmoved := hu
  mstate := .inl (congrArg DriveSt.mstate hd)
  stays l _ _ := by rw [State.mode, hc, State.mode]
  out l := by rw [State.isOut, State.isOut, State.mode, State.mode, hc]; exact id
  permit l := by rw [hc]; exact id
  lane := hl
  stopped := by
    rintro ⟨hm, hg, hv, hqs, hhs, hcs⟩
    have hd' : t.mstate = s.mstate ∧ t.gate = s.gate ∧ t.vdrv = s.vdrv := by
      simp only [State.mstate, State.gate, State.vdrv, hd, and_self]
    exact ⟨hd'.1.trans hm, hd'.2.1.trans hg, hd'.2.2.trans hv, hq hqs, hh hhs, fun l => ⟨hc ▸ (hcs l).1, (hl l).cmd (hcs l).2⟩⟩
  claim := hx
  retry := .inl hr

/-- A change outside the drive, the lanes and their states, and the queues. -/
theorem of_quiet (X : Lane → Prop) {s t : State} (hu : t.unmoved = s.unmoved) (hd : t.drv = s.drv) (hc : t.ctl = s.ctl)
    (hq : t.txq = s.txq) (hh : t.held = s.held) (hl : t.lane = s.lane) (hx : t.xo.claimAt = s.xo.claimAt)
    (hr : t.xo.retryAt = s.xo.retryAt) : s.Reacts X t :=
  of_steady X hu hd hc hq.trans hh.trans (fun _ => hl ▸ .refl _) hx.trans hr

theorem of_lanes (X : Lane → Prop) (s : State) (lane : LaneVec LaneSt) (h : ∀ l, (s.lane.get l).Keeps (lane.get l)) :
    s.Reacts X { s with lane := lane } :=
  of_steady X rfl rfl rfl id id h id rfl

theorem updIn (X : Lane → Prop) (s : State) (ls : LaneSet) {f : Lane → LaneSt → LaneSt} (h : ∀ (l : Lane) (L : LaneSt), L.Keeps (f l L)) :
    s.Reacts X (s.updIn ls f) :=
  of_lanes X s _ fun l => by
    rw [LaneVec.get_map]
    split
    · exact h l _
    · exact .refl _

theorem updAll (X : Lane → Prop) (s : State) {f : Lane → LaneSt → LaneSt} (h : ∀ (l : Lane) (L : LaneSt), L.Keeps (f l L)) :
    s.Reacts X (s.updAll f) := updIn X s _ h

theorem upd (X : Lane → Prop) (s : State) (l : Lane) {f : LaneSt → LaneSt} (h : (s.lane.get l).Keeps (f (s.lane.get l))) :
    s.Reacts X (s.upd l f) :=
  of_lanes X s _ fun m => by
    by_cases e : m = l
    · rw [e, LaneVec.get_set_self]; exact h
    · rw [LaneVec.get_set_of_ne _ _ e]; exact .refl _

/-! ### The books, counts and interrupts -/

theorem recordIn (X : Lane → Prop) (s : State) (ls : LaneSet) (k : Blk) (code : Half) (cls : FClass) (data flags : Nat) :
    s.Reacts X (s.recordIn ls k code cls data flags) := updIn X s _ fun _ _ => .record ..

theorem event (X : Lane → Prop) (s : State) (base n data : Nat) : s.Reacts X (s.event base n data) := recordIn ..

theorem eventIn (X : Lane → Prop) (s : State) (l : Lane) (base n data : Nat) : s.Reacts X (s.eventIn l base n data) := recordIn ..

theorem count (X : Lane → Prop) (s : State) {off : Nat} (lo w n : Nat) (h : off % 0x1000 ≠ 0x10) : s.Reacts X (s.count off lo w n) :=
  updIn X s _ fun _ L => .addFld L lo w n h

theorem irq (X : Lane → Prop) (s : State) (base m : Nat) : s.Reacts X (s.irq base m) := updIn X s _ fun _ L => .setBits L _ _

theorem echo (X : Lane → Prop) (s : State) (l : Lane) (base n data : Nat) : s.Reacts X (s.echo l base n data) :=
  upd X s l (.recordOnce ..)

/-! ### Channels, banks and tests -/

theorem setBank (X : Lane → Prop) (s : State) (b : Nat) (f : BankSt → BankSt) : s.Reacts X (s.setBank b f) :=
  of_quiet X rfl rfl rfl rfl rfl rfl rfl rfl

theorem refreshIsolators (X : Lane → Prop) (s : State) : s.Reacts X s.refreshIsolators := foldl (fun s b => setBank X s b _) _ s

theorem settleTest (X : Lane → Prop) (s : State) (b : Nat) : s.Reacts X (s.settleTest b) := by
  unfold State.settleTest
  split
  · exact ite (fun _ => of_quiet X rfl rfl rfl rfl rfl rfl rfl rfl) fun _ => refl X s
  · exact refl X s

theorem abortTest (X : Lane → Prop) (s : State) (b : Nat) : s.Reacts X (s.abortTest b) := by
  unfold State.abortTest
  split
  · exact (setBank X s b _).trans (count X _ 0 16 1 (by decide))
  · exact refl X s

theorem abortTests (X : Lane → Prop) (s : State) (pick : RunTest → Bool) : s.Reacts X (s.abortTests pick) := by
  refine (foldl (settleTest X) _ s).trans (foldl (fun s b => ?_) _ _)
  split
  · exact ite (fun _ => abortTest X s b) fun _ => refl X s
  · exact refl X s

/-! ### What entry to 2-out-of-2 operation ends (R59) -/

theorem abandonChange (X : Lane → Prop) (s : State) : s.Reacts X s.abandonChange := by
  refine ite (fun _ => ?_) fun _ => refl X s
  have h : s.Reacts X { s with chg := {} } := of_quiet X rfl rfl rfl rfl rfl rfl rfl rfl
  refine h.trans (updAll X _ fun _ L => ?_)
  have hL := LaneSt.Keeps.emptyShadow L
  generalize L.emptyShadow = M at hL ⊢
  exact hL.trans (.of_regs rfl rfl rfl rfl rfl id)

theorem disarm (X : Lane → Prop) (s : State) : s.Reacts X s.disarm := by
  refine ite (fun _ => ?_) fun _ => refl X s
  have h : s.Reacts X { s with chg := { s.chg with st := .verified, target := 0 } } := of_quiet X rfl rfl rfl rfl rfl rfl rfl rfl
  exact h.trans (event X _ _ _ _)

/-! ### Planned handover (R409), which no module in SAFE starts -/

theorem startHandover (X : Lane → Prop) (s : State) (h : s.mstate ≠ .safe) : s.Reacts X s.startHandover :=
  ⟨rfl, .inl rfl, fun _ _ _ => rfl, fun _ => id, fun _ => id, fun _ => .refl _, fun hs => absurd hs.1 h, id, .inl rfl⟩

theorem barHandover (X : Lane → Prop) (s : State) (r : Nat) : s.Reacts X (s.barHandover r) := by
  have h : s.Reacts X { s with xo := { s.xo with retryAt := s.now + 10000000000 } } :=
    ⟨rfl, .inl rfl, fun _ _ _ => rfl, fun _ => id, fun _ => id, fun _ => .refl _, fun hs => hs, id, .inr rfl⟩
  exact h.trans (recordIn X _ _ _ _ _ _ _)

theorem autoHandover (X : Lane → Prop) (s : State) (h : s.mstate ≠ .safe) : s.Reacts X s.autoHandover := by
  refine ite (fun _ => refl X s) fun _ => ?_
  split
  · exact startHandover X s h
  · exact barHandover X s _

theorem degHandover (X : Lane → Prop) (s : State) : s.Reacts X s.degHandover :=
  ite (fun h => autoHandover X s (by rw [h.1]; decide)) fun _ => refl X s

theorem enterTwoOfTwo (X : Lane → Prop) (s : State) : s.Reacts X s.enterTwoOfTwo := by
  unfold State.enterTwoOfTwo
  extract_lets _ u v w
  have hu : s.Reacts X u := of_quiet X rfl rfl rfl rfl rfl rfl rfl rfl
  have hv : u.Reacts X v := (disarm X u).trans (abandonChange X _)
  have hw : v.Reacts X w := updAll X v fun _ L => LaneSt.Keeps.closeShadows L
  exact hu.trans (hv.trans (hw.trans (degHandover X w)))

/-! ### The entry into SAFE (R433) -/

theorem leaveStandby (X : Lane → Prop) (s : State) : s.Reacts X s.leaveStandby :=
  ite (fun _ => updAll X s fun _ _ => .of_regs rfl rfl rfl rfl rfl id) fun _ => refl X s

/-- The module latches its gate: it is in SAFE, the drive stands still, nothing waits to be sent and no lane has a permit. -/
theorem latch (X : Lane → Prop) {s t : State} (hu : t.unmoved = s.unmoved) (hm : t.mstate = .safe) (hg : t.gate = true)
    (hv : t.vdrv = false) (hc : t.ctl = s.ctl.map fun _ (c : LaneCtl) => { c with permit := false }) (hq : t.txq = [])
    (hh : t.held = []) (hl : t.lane = s.lane) (hx : t.xo.claimAt = none) (hr : t.xo.retryAt = s.xo.retryAt) : s.Reacts X t where
  unmoved := hu
  mstate := .inr hm
  stays l _ _ := by rw [State.mode, State.mode, hc, LaneVec.get_map]
  out l := by rw [State.isOut, State.isOut, State.mode, State.mode, hc, LaneVec.get_map]; exact id
  permit l _ := by rw [hc, LaneVec.get_map]
  lane l := hl ▸ .refl _
  stopped := fun ⟨_, _, _, _, _, hcs⟩ => ⟨hm, hg, hv, hq, hh, fun l => ⟨by rw [hc, LaneVec.get_map], hl ▸ (hcs l).2⟩⟩
  claim _ := hx
  retry := .inl hr

end State.Reacts

/-- The module on its way into SAFE, before its gate latches: it has left STANDBY and given up its role. -/
def State.giveUpRole (s : State) : State := if s.xo.role = .none then s.leaveStandby else s.leaveStandby.irq Base.xo 1

/-- The gate latches, the vital drive stops, and nothing that waits is kept (R433); `act` are the lanes that were ACTIVE. -/
def State.latchGate (s : State) (act : LaneSet) : State :=
  { s with
    drv := { mstate := .safe, gate := true, vdrv := false, offAt := s.driveOffAt, live := .all false }, gateActive := act
    txq := [], held := [], formWait := [], auths := [], prepare := none, confirmed := false
    ctl := s.ctl.map fun _ (c : LaneCtl) => { c with permit := false }
    xo := { s.xo with
      role := .none, sync := .none, hoCycle := none, hoPaused := false, claimAt := none, peerSince := none, out := {} }
    link := { s.link with node := .off } }

/-- Every bank isolator opens and no test runs on. -/
def State.openBanks (s : State) : State :=
  (List.range 16).foldl (fun s b => s.setBank b fun q => { q with closed := false, running := none, retry := [] }) s

/-- What a lane does in the entry into SAFE: its switches open, it evaluates no further. -/
def LaneSt.stop (L : LaneSt) (req : Bool) : LaneSt :=
  { L.closeShadows with
    safeReq := L.safeReq || req, liveOk := .all false, explained := []
    field := { L.field with cmd := 0, want := 0, iso := 0 }, logic := { L.logic with evaluating := false } }

/-- A lane that has stopped tells it in its book. -/
def LaneSt.tellSafe (L : LaneSt) (l : Lane) (req : Bool) (cause who : Nat) (tag : Option Byte) (cycle : Nat) : LaneSt :=
  ((L.stop req).setBits (Base.fc + 0x18) 2).record (obPath l 5 0 0x1F) (obCode 5 (0xF + cause * 16)) 4 (tagFlag tag) cycle
    (obData (who + tagData tag))

/-- The module with its gate latched and its lanes stopped, before `FC_LAST_SAFE` tells why. -/
def State.stopAll (s : State) (cause who : Nat) (req : LaneSet) (tag : Option Byte) : State :=
  let u := ((s.giveUpRole.latchGate s.active).openBanks).abandonChange
  u.updAll fun l L => L.tellSafe l (req.get l) cause who tag u.cyc.num

/-- The entry into SAFE with the gate still open. -/
theorem State.enterSafe_of_open (s : State) (cause who : Nat) (req : LaneSet) (tag : Option Byte) (hg : s.gate = false) :
    ∃ seq : Lane → Nat, s.enterSafe cause who req tag = (s.stopAll cause who req tag).updAll fun l L =>
      L.setReg Reg.FC_LAST_SAFE (BitVec.ofNat 32 (cause + who * 256 + seq l % 65536 * 65536)) := by
  unfold State.enterSafe
  rw [hg, if_neg Bool.false_ne_true]
  exact ⟨_, rfl⟩

theorem LaneSt.Keeps.stop (L : LaneSt) (req : Bool) : L.Keeps (L.stop req) := by
  have hc := LaneSt.Keeps.closeShadows L
  unfold LaneSt.stop
  generalize L.closeShadows = M at hc ⊢
  exact ⟨hc.image, rfl, rfl, rfl, fun _ => rfl, hc.err⟩

theorem LaneSt.Keeps.tellSafe (L : LaneSt) (l : Lane) (req : Bool) (cause who : Nat) (tag : Option Byte) (cycle : Nat) :
    L.Keeps (L.tellSafe l req cause who tag cycle) := ((Keeps.stop L req).trans (.setBits _ _ _)).trans (.record ..)

namespace State.Reacts

variable {X : Lane → Prop} {s t u : State}

theorem giveUpRole (X : Lane → Prop) (s : State) : s.Reacts X s.giveUpRole :=
  ite (fun _ => leaveStandby X s) fun _ => (leaveStandby X s).trans (irq X _ _ _)

theorem latchGate (X : Lane → Prop) (s : State) (act : LaneSet) : s.Reacts X (s.latchGate act) :=
  latch X rfl rfl rfl rfl rfl rfl rfl rfl rfl rfl

theorem openBanks (X : Lane → Prop) (s : State) : s.Reacts X s.openBanks := foldl (fun s b => setBank X s b _) _ s

theorem stopAll (X : Lane → Prop) (s : State) (cause who : Nat) (req : LaneSet) (tag : Option Byte) :
    s.Reacts X (s.stopAll cause who req tag) :=
  ((((giveUpRole X s).trans (latchGate X _ _)).trans (openBanks X _)).trans (abandonChange X _)).trans
    (updAll X _ fun _ _ => .tellSafe ..)

theorem enterSafe (X : Lane → Prop) (s : State) (cause who : Nat) (req : LaneSet) (tag : Option Byte) :
    s.Reacts X (s.enterSafe cause who req tag) := by
  by_cases hg : s.gate = true
  · rw [State.enterSafe, if_pos hg]
    exact updIn X s _ fun _ _ => .of_regs rfl rfl rfl rfl rfl id
  · obtain ⟨seq, h⟩ := s.enterSafe_of_open cause who req tag (Bool.eq_false_iff.2 hg)
    rw [h]
    exact (stopAll X s cause who req tag).trans (updAll X _ fun _ L => .setReg L _ (by decide))

theorem safeByLane (X : Lane → Prop) (s : State) (l : Lane) (cause : Nat) (tag : Option Byte) : s.Reacts X (s.safeByLane l cause tag) :=
  ite (fun _ => enterSafe X s _ _ _ _) fun _ => refl X s

theorem safeByAll (X : Lane → Prop) (s : State) (cause : Nat) : s.Reacts X (s.safeByAll cause) := by
  unfold State.safeByAll
  split
  · exact enterSafe X s _ _ _ _
  · exact refl X s

theorem checkLast (X : Lane → Prop) (s : State) : s.Reacts X s.checkLast := ite (fun _ => safeByAll X s _) fun _ => refl X s

theorem degExpire (X : Lane → Prop) (s : State) : s.Reacts X s.degExpire := by
  refine ite (fun _ => safeByAll X s _) fun h => ?_
  have hm : s.mstate ≠ .safe := by rw [not_not.1 h]; decide
  split
  · exact startHandover X s hm
  · exact autoHandover X s hm
  · exact refl X s
  · exact ite (fun _ => refl X s) fun _ => safeByAll X s _

/-! ### The exclusion of a lane (R44, R45, R51) -/

theorem laneEntry (X : Lane → Prop) (s : State) (ls : LaneSet) (x : Lane) (m : LaneMode) (cause : Nat) (cls : FClass)
    (tag : Option Byte) : s.Reacts X (s.laneEntry ls x m cause cls tag) := recordIn ..

theorem noteExclusion (X : Lane → Prop) (s : State) (x : Lane) (cls : FClass) (cause : Nat) (third : Bool) (tag : Option Byte) :
    s.Reacts X (s.noteExclusion x cls cause third tag) := by
  unfold State.noteExclusion
  extract_lets books t
  have ht : s.Reacts X t := laneEntry ..
  exact ht.trans (ite (fun _ => laneEntry ..) fun _ => ite (fun _ => laneEntry ..) fun _ => refl X t)

/-- A change of the state of one lane: its mode stands, unless the lane may leave or resynchronises, and it gets no permit. -/
theorem setCtl (X : Lane → Prop) (s : State) (x : Lane) {f : LaneCtl → LaneCtl}
    (hm : (f (s.ctl.get x)).mode = s.mode x ∨ X x ∨ s.mode x = .resync)
    (ho : s.isOut x → (f (s.ctl.get x)).mode = .excluded ∨ (f (s.ctl.get x)).mode = .halted)
    (hp : (s.ctl.get x).permit = false → (f (s.ctl.get x)).permit = false) : s.Reacts X (s.setCtl x f) where
  unmoved := rfl
  mstate := .inl rfl
  stays l hX hr := by
    by_cases e : l = x
    · subst e
      rw [State.mode, State.setCtl, LaneVec.get_set_self]
      exact (hm.resolve_right (not_or.2 ⟨hX, hr⟩))
    · rw [State.mode, State.setCtl, LaneVec.get_set_of_ne _ _ e, State.mode]
  out l h := by
    by_cases e : l = x
    · subst e
      rw [State.isOut, State.mode, State.setCtl, LaneVec.get_set_self]
      exact ho h
    · rwa [State.isOut, State.mode, State.setCtl, LaneVec.get_set_of_ne _ _ e]
  permit := permit_setCtl hp
  lane _ := .refl _
  stopped := fun ⟨h1, h2, h3, h4, h5, hcs⟩ => ⟨h1, h2, h3, h4, h5, fun l => ⟨permit_setCtl hp l (hcs l).1, (hcs l).2⟩⟩
  claim := id
  retry := .inl rfl
where
  permit_setCtl (hp : (s.ctl.get x).permit = false → (f (s.ctl.get x)).permit = false) (l : Lane)
      (h : (s.ctl.get l).permit = false) : ((s.setCtl x f).ctl.get l).permit = false := by
    by_cases e : l = x
    · subst e
      rw [State.setCtl, LaneVec.get_set_self]
      exact hp h
    · rwa [State.setCtl, LaneVec.get_set_of_ne _ _ e]

theorem abandonResync (X : Lane → Prop) (s : State) (x : Lane) : s.Reacts X (s.abandonResync x) :=
  foldl (fun s y => ite (fun h => setCtl X s y (.inr (.inr h.2)) (fun _ => .inl rfl) id) fun _ => refl X s) _ s

theorem closeSessions (X : Lane → Prop) (s : State) : s.Reacts X s.closeSessions := by
  have h : s.Reacts X (s.updAll fun _ L => { L with tlsKeys := [] }) := updAll X s fun _ _ => .of_regs rfl rfl rfl rfl rfl id
  exact h.trans (of_quiet X rfl rfl rfl rfl rfl rfl rfl rfl)

theorem disownCan (X : Lane → Prop) (s : State) (x : Lane) : s.Reacts X (s.disownCan x) := by
  unfold State.disownCan
  refine foldl (fun s p => ?_) _ s
  exact ite (fun _ => of_quiet X rfl rfl rfl rfl rfl rfl rfl rfl) fun _ => refl X s

/-- The drive follows the LIVE signals; a latched gate keeps it still. -/
theorem refreshDrive (X : Lane → Prop) (s : State) : s.Reacts X s.refreshDrive :=
  ⟨rfl, .inl rfl, fun _ _ _ => rfl, fun _ => id, fun _ => id, fun _ => .refl _,
    fun ⟨h1, h2, _, h4, h5, hcs⟩ => ⟨h1, h2, by simp [State.vdrv, State.refreshDrive, h2], h4, h5, hcs⟩, id, .inl rfl⟩

theorem setPermit_false (X : Lane → Prop) (s : State) (x : Lane) : s.Reacts X (s.setPermit x false) := by
  unfold State.setPermit
  extract_lets t u _ v
  have ht : s.Reacts X t := setCtl X s x (.inl rfl) id fun _ => rfl
  have hu : t.Reacts X u := refl X t
  have hv : u.Reacts X v :=
    ⟨rfl, .inl rfl, fun _ _ _ => rfl, fun _ => id, fun _ => id, fun _ => .refl _, fun h => h, id, .inl rfl⟩
  refine ht.trans (hu.trans (hv.trans (trans ?_ (refreshDrive X _))))
  exact updAll X v fun _ _ => .of_regs rfl rfl rfl rfl rfl id

end State.Reacts

/-- The class that decides how a lane leaves: a third exclusion within 24 h is of class LANE_HALT (R51). -/
def State.outClass (s : State) (x : Lane) (cls : FClass) : FClass :=
  if cls == .laneRecover && decide (3 ≤ (s.entries24 x).length) then .laneHalt else cls

/-- A lane is EXCLUDED or HALTED, with what its books tell of it. -/
def State.markOut (s : State) (x : Lane) (cls : FClass) (cause : Nat) (det : Option Det) (tag : Option Byte) : State :=
  (s.noteExclusion x cls cause (cls == .laneRecover && decide (3 ≤ (s.entries24 x).length)) tag).setCtl x fun c => { c with
    mode := if 3 ≤ (s.outClass x cls).code then .halted else .excluded, cls := s.outClass x cls, watch := det.toList
    agreed := 0, pages := [], marked := [], retry := [] }

/-- A lane outside the vote loses its permit and opens its switches; tests in progress end where it was ACTIVE. -/
def State.openSwitches (s : State) (x : Lane) (was : Bool) (cls : FClass) (cause : Nat) (det : Option Det) : State :=
  let s := s.setPermit x false
  let s := if was then s.abortTests fun _ => true else s
  (s.updAll fun _ L => L.newReaction).upd x fun L => L.leaveVote cause cls det

/-- What the loss of a lane changes for the others. -/
def State.afterLeaving (s : State) (x : Lane) (was conducts two : Bool) : State :=
  let s := s.refreshIsolators
  let s := if was then s.abandonResync x else s
  let s := if conducts then s.closeSessions else s
  let s := s.disownCan x
  if two then s.enterTwoOfTwo else s

theorem State.leave_stages (s : State) (x : Lane) (cls : FClass) (cause : Nat) (det : Option Det) (tag : Option Byte) :
    ∃ was conducts two : Bool, s.leave x cls cause det tag
      = ((s.markOut x cls cause det tag).openSwitches x was (s.outClass x cls) cause det).afterLeaving x was conducts two :=
  ⟨_, _, _, rfl⟩

namespace State.Reacts

variable {X : Lane → Prop} {s t u : State}

theorem markOut (s : State) {x : Lane} (hX : X x) (cls : FClass) (cause : Nat) (det : Option Det) (tag : Option Byte) :
    s.Reacts X (s.markOut x cls cause det tag) := by
  refine (noteExclusion X s x cls cause _ tag).trans (setCtl X _ x (.inr (.inl hX)) (fun _ => ?_) id)
  split
  · exact .inr rfl
  · exact .inl rfl

theorem openSwitches (X : Lane → Prop) (s : State) (x : Lane) (was : Bool) (cls : FClass) (cause : Nat) (det : Option Det) :
    s.Reacts X (s.openSwitches x was cls cause det) := by
  unfold State.openSwitches
  extract_lets t u
  have ht : s.Reacts X t := setPermit_false X s x
  have hu : t.Reacts X u := ite (fun _ => abortTests X t _) fun _ => refl X t
  have hv : u.Reacts X (u.updAll fun _ L => L.newReaction) := updAll X u fun _ _ => .of_regs rfl rfl rfl rfl rfl id
  exact ht.trans (hu.trans (hv.trans (upd X _ x (.leaveVote ..))))

theorem afterLeaving (X : Lane → Prop) (s : State) (x : Lane) (was conducts two : Bool) :
    s.Reacts X (s.afterLeaving x was conducts two) := by
  unfold State.afterLeaving
  extract_lets t u v w
  have ht : s.Reacts X t := refreshIsolators X s
  have hu : t.Reacts X u := ite (fun _ => abandonResync X t x) fun _ => refl X t
  have hv : u.Reacts X v := ite (fun _ => closeSessions X u) fun _ => refl X u
  have hw : v.Reacts X w := disownCan X v x
  exact ht.trans (hu.trans (hv.trans (hw.trans (ite (fun _ => enterTwoOfTwo X w) fun _ => refl X w))))

theorem leave (s : State) {x : Lane} (hX : X x) (cls : FClass) (cause : Nat) (det : Option Det) (tag : Option Byte) :
    s.Reacts X (s.leave x cls cause det tag) := by
  obtain ⟨was, conducts, two, h⟩ := s.leave_stages x cls cause det tag
  rw [h]
  exact (markOut s hX ..).trans ((openSwitches X ..).trans (afterLeaving X ..))

theorem exclude (s : State) {x : Lane} (hX : X x) (cls : FClass) (cause : Nat) (det : Option Det) (tag : Option Byte) :
    s.Reacts X (s.exclude x cls cause det tag) := ite (fun _ => safeByLane X s _ _ _) fun _ => leave s hX ..

theorem minority (s : State) {x : Lane} (hX : X x) (cause : Nat) : s.Reacts X (s.minority x cause) :=
  (count X s _ 8 1 (by decide)).trans (exclude _ hX ..)

/-! ### Resets and reports (R420 to R437) -/

theorem reactReset (X : Lane → Prop) (s : State) (l : Lane) (r : Report) (tag : Option Byte) : s.Reacts X (s.reactReset l r tag) := by
  have start (s : State) (scope : RScope) (k : Blk) : s.Reacts X (s.upd l fun L => L.startReset s.now scope k tag) :=
    upd X s l (.startReset ..)
  unfold State.reactReset
  extract_lets page t
  refine ite (fun _ => start s _ _) fun _ => ite (fun _ => start s _ _) fun _ => ite (fun _ => refl X s) fun _ => ?_
  exact (start s _ _).trans (ite (fun _ => start t _ _) fun _ => refl X t)

theorem resetFor (X : Lane → Prop) (s : State) (l : Lane) (rs : List Report) (tag : Option Byte) : s.Reacts X (s.resetFor l rs tag) :=
  (setCtl X s l (.inl rfl) id id).trans (foldl (fun s r => reactReset X s l r tag) _ _)

theorem haltFor (s : State) {l : Lane} (hX : X l) (cls : FClass) (tag : Option Byte) : s.Reacts X (s.haltFor l cls tag) :=
  (laneEntry X s ..).trans (setCtl X _ l (.inr (.inl hX)) (fun _ => .inr rfl) id)

theorem react (s : State) {l : Lane} (hX : X l) (cls : FClass) (r : Report) (rs : List Report) (tag : Option Byte) :
    s.Reacts X (s.react l cls r rs tag) := by
  refine ite (fun _ => refl X s) fun _ => ?_
  cases cls with
  | note => exact refl X s
  | corrected => exact refl X s
  | laneRecover =>
    dsimp only
    split
    · exact refl X s
    · exact resetFor X s _ _ _
    · exact (exclude s hX ..).trans (ite (fun _ => refl X _) fun _ => resetFor X _ _ _ _)
  | laneHalt =>
    dsimp only
    split
    · exact refl X s
    · exact haltFor s hX _ _
    · exact exclude s hX ..
  | moduleSafe =>
    dsimp only
    split
    · exact safeByLane X s _ _ _
    · exact refl X s
    · exact haltFor s hX _ _
    · exact exclude s hX ..

theorem raise (X : Lane → Prop) (s : State) (l : Lane) (r : Report) : s.Reacts X (s.raise l r) := by
  refine upd X s l ?_
  split
  · exact .setBits _ _ _
  · exact (LaneSt.Keeps.noteFirst ..).trans (.setBits _ _ _)

theorem takeIn (X : Lane → Prop) (s : State) (l : Lane) (r : Report) : s.Reacts X (s.takeIn l r).1 := by
  unfold State.takeIn
  split
  · dsimp only
    exact upd X s l (.recordOnce ..)
  · extract_lets coin tag t c cls flags
    have ht : s.Reacts X t := by
      refine ite (fun _ => ?_) fun _ => refl X s
      have h : s.Reacts X { s with inj := s.inj.map InjSt.unforce } := of_quiet X rfl rfl rfl rfl rfl rfl rfl rfl
      exact h.trans (event X _ _ _ _)
    dsimp only
    exact ht.trans (upd X t l (.takeReport ..))

theorem takeEach (X : Lane → Prop) (s : State) (l : Lane) (rs : List Report) : s.Reacts X (s.takeEach l rs).1 := by
  induction rs generalizing s with
  | nil => exact refl X s
  | cons r rs ih =>
    unfold State.takeEach
    exact (takeIn X s l r).trans (ih _)

theorem reactTo (s : State) {l : Lane} (hX : X l) (rs : List (Report × FClass)) : s.Reacts X (s.reactTo l rs) := by
  unfold State.reactTo
  split
  · exact refl X s
  · exact react s hX ..

theorem reports (s : State) {l : Lane} (hX : X l) (rs : List Report) : s.Reacts X (s.reports l rs) :=
  (foldl (fun s r => raise X s l r) _ s).trans ((takeEach X _ l _).trans (reactTo _ hX _))

theorem report (s : State) {l : Lane} (hX : X l) (k : Blk) (bit data : Nat) : s.Reacts X (s.report l k bit data) := reports s hX _

theorem reportAll (s : State) (hX : ∀ l, X l) (base bit data : Nat) : s.Reacts X (s.reportAll base bit data) :=
  foldl (fun s l => ite (fun _ => report s (hX l) ..) fun _ => refl X s) _ s

end State.Reacts

end Sys2Proof.Machine
end

section
/-! What is found after a reaction: lanes out of the vote, a module stopped, `BLK_ERR` bits set. -/

namespace Sys2Proof.Machine

namespace State.Reacts

variable {X : Lane → Prop} {s t : State}

/-! ### What no reaction changes -/

theorem pending (h : s.Reacts X t) : t.pending = s.pending := by
  have e := congrArg State.pending h.unmoved
  exact e

theorem cyc (h : s.Reacts X t) : t.cyc = s.cyc := by
  have e := congrArg State.cyc h.unmoved
  exact e

theorem lx (h : s.Reacts X t) : t.lx = s.lx := by
  have e := congrArg State.lx h.unmoved
  exact e

theorem deg (h : s.Reacts X t) : t.deg = s.deg := by
  have e := congrArg State.deg h.unmoved
  exact e

/-! ### What a reaction leaves as it finds it -/

theorem leftVote (h : s.Reacts X t) {l : Lane} (hl : s.LeftVote l) : t.LeftVote l :=
  ⟨h.out l hl.1, h.permit l hl.2.1, (h.lane l).cmd hl.2.2⟩

theorem errSet (h : s.Reacts X t) {l : Lane} {k : Blk} {bit : Nat} (he : s.ErrSet l k bit) : t.ErrSet l k bit :=
  (h.lane l).err _ bit (by unfold Blk.base; omega) he

/-- A lane that takes part in what the lanes agree goes on so, where it may not leave. -/
theorem parts (h : s.Reacts X t) {l : Lane} (hX : ¬ X l) (hp : s.parts.get l = true) : t.parts.get l = true := by
  rcases h.mstate with hm | hm
  · unfold State.parts at hp ⊢
    rw [hm]
    split
    · next hv =>
      rw [if_pos hv] at hp
      simp only [State.inStep, LaneVec.get_ofFn, Bool.or_eq_true, beq_iff_eq] at hp ⊢
      have hr : s.mode l ≠ .resync := by rcases hp with e | e <;> rw [e] <;> decide
      rwa [h.stays l hX hr]
    · simp
  · simp [State.parts, hm, MState.voting]

end State.Reacts

/-! ### A lane that has left the vote -/

/-- The mode of a lane that has left the vote for a class. -/
theorem State.mode_markOut (s : State) (x : Lane) (cls : FClass) (cause : Nat) (det : Option Det) (tag : Option Byte) :
    (s.markOut x cls cause det tag).mode x = if 3 ≤ (s.outClass x cls).code then .halted else .excluded := by
  rw [State.mode, State.markOut, State.setCtl, LaneVec.get_set_self]

theorem State.mode_leave (s : State) (x : Lane) (cls : FClass) (cause : Nat) (det : Option Det) (tag : Option Byte) :
    (s.leave x cls cause det tag).mode x = if 3 ≤ (s.outClass x cls).code then .halted else .excluded := by
  obtain ⟨was, conducts, two, h⟩ := s.leave_stages x cls cause det tag
  rw [h, ← s.mode_markOut x cls cause det tag]
  have hr := (Reacts.openSwitches (fun _ => False) (s.markOut x cls cause det tag) x was (s.outClass x cls) cause det).trans
    (Reacts.afterLeaving _ _ x was conducts two)
  refine hr.stays x id ?_
  rw [s.mode_markOut]
  split <;> decide

/-- A lane HALTED by a class of LANE_HALT or above. -/
theorem State.mode_leave_halted (s : State) (x : Lane) {cls : FClass} (cause : Nat) (det : Option Det) (tag : Option Byte)
    (h : 3 ≤ cls.code) : (s.leave x cls cause det tag).mode x = .halted := by
  rw [s.mode_leave]
  refine if_pos ?_
  unfold State.outClass
  split
  · decide
  · exact h

theorem State.permit_setPermit (s : State) (x : Lane) (p : Bool) : ((s.setPermit x p).ctl.get x).permit = p := by
  have h : (s.setPermit x p).ctl = (s.setCtl x fun c => { c with permit := p, liveAt := if p then s.now else c.liveAt }).ctl := by
    cases p <;> rfl
  rw [h, State.setCtl, LaneVec.get_set_self]

theorem State.permit_openSwitches (s : State) (x : Lane) (was : Bool) (cls : FClass) (cause : Nat) (det : Option Det) :
    ((s.openSwitches x was cls cause det).ctl.get x).permit = false := by
  have h : (s.setPermit x false).Reacts (fun _ => False)
      (if was then (s.setPermit x false).abortTests fun _ => true else s.setPermit x false) :=
    Reacts.ite (fun _ => .abortTests ..) fun _ => .refl ..
  exact h.permit x (s.permit_setPermit x false)

theorem State.cmd_openSwitches (s : State) (x : Lane) (was : Bool) (cls : FClass) (cause : Nat) (det : Option Det) :
    ((s.openSwitches x was cls cause det).lane.get x).field.cmd = 0 := by
  rw [State.openSwitches, State.upd_lane_self, LaneSt.leaveVote_cmd]

theorem State.leave_leftVote (s : State) (x : Lane) (cls : FClass) (cause : Nat) (det : Option Det) (tag : Option Byte) :
    (s.leave x cls cause det tag).LeftVote x := by
  have hout : (s.leave x cls cause det tag).isOut x := by
    rw [State.isOut, s.mode_leave]
    split
    · exact .inr rfl
    · exact .inl rfl
  obtain ⟨was, conducts, two, h⟩ := s.leave_stages x cls cause det tag
  have hr := Reacts.afterLeaving (fun _ => False)
    ((s.markOut x cls cause det tag).openSwitches x was (s.outClass x cls) cause det) x was conducts two
  rw [← h] at hr
  exact ⟨hout, hr.permit x (State.permit_openSwitches ..), (hr.lane x).cmd (State.cmd_openSwitches ..)⟩

/-- A lane that is not the last ACTIVE one leaves the vote when it is excluded. -/
theorem State.exclude_of_others (s : State) (x : Lane) (cls : FClass) (cause : Nat) (det : Option Det) (tag : Option Byte)
    (h : s.activeCount ≠ 1 ∨ s.isActive x = false) : s.exclude x cls cause det tag = s.leave x cls cause det tag :=
  if_neg fun ⟨_, ha, h1⟩ => h.elim (fun hn => hn h1) fun hf => by rw [hf] at ha; cases ha

theorem State.minority_leftVote (s : State) (x : Lane) (cause : Nat) (h : s.activeCount ≠ 1 ∨ s.isActive x = false) :
    (s.minority x cause).LeftVote x := by
  have he := (s.count Reg.MINORITY_CNT (8 * x.code) 8 1).exclude_of_others x .laneRecover cause none none h
  rw [State.minority, he]
  exact State.leave_leftVote ..

/-! ### A module that has entered SAFE -/

theorem State.openBanks_frame (s : State) : ∃ fld, s.openBanks = { s with fld := fld } := by
  unfold State.openBanks
  generalize List.range 16 = bs
  induction bs generalizing s with
  | nil => exact ⟨s.fld, rfl⟩
  | cons b bs ih => exact ih _

theorem State.abandonChange_frame (s : State) : ∃ lane chg, s.abandonChange = { s with lane := lane, chg := chg } := by
  unfold State.abandonChange
  split
  · exact ⟨_, _, rfl⟩
  · exact ⟨s.lane, s.chg, rfl⟩

theorem LaneSt.tellSafe_cmd (L : LaneSt) (l : Lane) (req : Bool) (cause who : Nat) (tag : Option Byte) (cycle : Nat) :
    (L.tellSafe l req cause who tag cycle).field.cmd = 0 := by
  rw [LaneSt.tellSafe, LaneSt.record_field]
  rfl

/-- The entry into SAFE with the gate still open stops the module. -/
theorem State.enterSafe_stopped (s : State) (cause who : Nat) (req : LaneSet) (tag : Option Byte) (hg : s.gate = false) :
    (s.enterSafe cause who req tag).Stopped := by
  obtain ⟨seq, h⟩ := s.enterSafe_of_open cause who req tag hg
  rw [h]
  refine (Reacts.updAll (fun _ => False) _ fun _ L => .setReg L _ (by decide)).stopped ?_
  obtain ⟨fld, hb⟩ := (s.giveUpRole.latchGate s.active).openBanks_frame
  obtain ⟨lane, chg, hc⟩ := (s.giveUpRole.latchGate s.active).openBanks.abandonChange_frame
  rw [State.stopAll, hc, hb]
  refine ⟨rfl, rfl, rfl, rfl, rfl, fun l => ⟨?_, ?_⟩⟩
  · exact congrArg LaneCtl.permit (LaneVec.get_map _ _ l)
  · rw [State.updAll_lane, LaneSt.tellSafe_cmd]

theorem State.safeByAll_stopped (s : State) (cause : Nat) (hl : s.lead.isSome = true) (hg : s.gate = false) :
    (s.safeByAll cause).Stopped := by
  obtain ⟨l, h⟩ := Option.isSome_iff_exists.1 hl
  rw [State.safeByAll, h]
  exact s.enterSafe_stopped _ _ _ _ hg

/-- An ACTIVE lane stands for what the lanes agree. -/
theorem State.lead_isSome {s : State} {l : Lane} (h : s.isActive l = true) : s.lead.isSome = true := by
  rw [State.lead, firstOf, List.find?_isSome]
  exact ⟨l, by cases l <;> simp [Lane.list], by rwa [State.active, LaneVec.get_ofFn]⟩

/-- The requesting lane shows its SAFE_REQ. -/
theorem State.enterSafe_safeReq (s : State) (cause who : Nat) (req : LaneSet) (tag : Option Byte) (l : Lane) (hr : req.get l = true) :
    ((s.enterSafe cause who req tag).lane.get l).safeReq = true := by
  by_cases hg : s.gate = true
  · rw [State.enterSafe, if_pos hg, State.updIn_lane, if_pos hr]
  · obtain ⟨seq, h⟩ := s.enterSafe_of_open cause who req tag (Bool.eq_false_iff.2 hg)
    rw [h, State.updAll_lane]
    change (((s.stopAll cause who req tag).lane.get l).safeReq) = true
    rw [State.stopAll, State.updAll_lane, LaneSt.tellSafe, (LaneSt.record_frame ..).1, hr]
    exact Bool.or_true _

/-! ### `BLK_ERR` bits (R429) -/

theorem State.raise_errSet (s : State) (l : Lane) (r : Report) (hb : r.bit < 32) : (s.raise l r).ErrSet l r.blk r.bit := by
  rw [State.ErrSet, State.raise, State.upd_lane_self]
  exact LaneSt.bit_setBits_self _ (by unfold Blk.base; omega) hb (.inr (Nat.testBit_two_pow_self))

/-- A report that is raised sets its `BLK_ERR` bit, whatever becomes of it (R429). -/
theorem State.report_errSet (s : State) (l : Lane) (k : Blk) {bit : Nat} (data : Nat) (hn : s.notRaised l k bit data = false)
    (hb : bit < 32) : (s.report l k bit data).ErrSet l k bit := by
  have hup : (inOrder [{ blk := k, bit, data }]).filter (fun r => !s.notRaised l r.blk r.bit r.data) = [{ blk := k, bit, data }] :=
    List.filter_eq_self.2 fun r hr => by
      obtain rfl := List.mem_singleton.1 hr
      rw [hn]; rfl
  rw [State.report, State.reports, hup]
  exact ((Reacts.takeEach (fun _ => True) _ l _).trans (Reacts.reactTo _ trivial _)).errSet (s.raise_errSet l { blk := k, bit, data } hb)

/-- A detector that the lanes in step find alike sets its `BLK_ERR` bit in each of them, where nothing suppresses it. -/
theorem State.reportAll_errSet (s : State) (base data : Nat) {bit : Nat} (hb : bit < 32)
    (hn : ∀ (s : State) (l : Lane), s.notRaised l (Blk.ofOff base) bit data = false) (l : Lane) (hp : s.parts.get l = true) :
    (s.reportAll base bit data).ErrSet l (Blk.ofOff base) bit := by
  have hall : ∀ (xs : List Lane) (s : State), l ∈ xs → s.parts.get l = true →
      (xs.foldl (fun s l => if s.parts.get l then s.report l (Blk.ofOff base) bit data else s) s).ErrSet l (Blk.ofOff base) bit := by
    intro xs
    induction xs with
    | nil => intro s hm; cases hm
    | cons x xs ih =>
      intro s hm hp
      by_cases e : x = l
      · subst e
        have hrest := Reacts.foldl (X := fun _ => True) (g := fun s l => if s.parts.get l then s.report l (Blk.ofOff base) bit data else s)
          (fun s l => .ite (fun _ => .report s trivial ..) fun _ => .refl ..) xs
          (if s.parts.get x then s.report x (Blk.ofOff base) bit data else s)
        refine hrest.errSet ?_
        rw [if_pos hp]
        exact s.report_errSet x _ data (hn s x) hb
      · refine ih _ ((List.mem_cons.1 hm).resolve_left fun h => e h.symm) ?_
        have hstep : s.Reacts (fun y => y = x) (if s.parts.get x then s.report x (Blk.ofOff base) bit data else s) :=
          .ite (fun _ => .report (X := fun y => y = x) s rfl ..) fun _ => .refl ..
        exact hstep.parts (fun h => e h.symm) hp
  exact hall Lane.list s (by cases l <;> simp [Lane.list]) hp

end Sys2Proof.Machine
end

section
/-! The limit of 2-out-of-2 operation (R53 to R55, R409). -/

namespace Sys2Proof.Machine

/-- The module at its limit of 2-out-of-2 operation, before it acts on it. -/
def State.atDegLimit (s : State) : State := { s with deg := { s.deg with expired := true } }

theorem execDegExpired_of_limit (s : State) (hv : s.mstate.voting = true) (hl : s.degLimit ≤ s.deg.ns) :
    exec .degExpired s = .next s.atDegLimit.degExpire := by
  refine if_neg ?_
  rw [hv]
  rintro (h | h)
  · cases h
  · omega

theorem execDegExpired_of_below (s : State) (hl : s.deg.ns < s.degLimit) : exec .degExpired s = .next s := if_pos (.inr hl)

/-- At its limit a module outside DUTY, or one in DUTY whose standby cannot take the role, stops. -/
theorem State.degExpire_stops (s : State) (hl : s.lead.isSome = true) (hg : s.gate = false) (he : s.atDegLimit.degExpire = s.atDegLimit.safeByAll 0x04) :
    s.atDegLimit.degExpire.Stopped ∧ s.atDegLimit.degExpire.deg.expired = true := by
  rw [he]
  exact ⟨s.atDegLimit.safeByAll_stopped 0x04 hl hg, congrArg DegSt.expired (Reacts.safeByAll (fun _ => False) s.atDegLimit 0x04).deg⟩

/-- At its limit a module in DUTY whose standby may take the role names its last cycle. -/
theorem State.degExpire_of_noBar (s : State) (hd : s.mstate = .duty) (hb : s.handoverBar = none) :
    s.atDegLimit.degExpire = s.atDegLimit.startHandover := by
  have hb' : s.atDegLimit.handoverBar = none := hb
  rw [State.degExpire, if_neg (show ¬ s.atDegLimit.mstate ≠ .duty from not_not.2 hd), hb']

/-- At its limit a module in DUTY that an armed change bars from handing over tries again later. -/
theorem State.degExpire_of_armed (s : State) (hd : s.mstate = .duty) (hb : s.handoverBar = some 0x42) :
    s.atDegLimit.degExpire = s.atDegLimit.autoHandover := by
  have hb' : s.atDegLimit.handoverBar = some 0x42 := hb
  rw [State.degExpire, if_neg (show ¬ s.atDegLimit.mstate ≠ .duty from not_not.2 hd), hb']
  rfl

/-- At its limit a module in DUTY without a synchronised standby enters SAFE. -/
theorem State.degExpire_of_noStandby (s : State) (hd : s.mstate = .duty) (hb : s.handoverBar = some 0x40 ∨ s.handoverBar = some 0x41)
    (hh : s.xo.hoCycle = none) : s.atDegLimit.degExpire = s.atDegLimit.safeByAll 0x04 := by
  have hh' : ¬ s.atDegLimit.xo.hoCycle.isSome = true := by
    rw [show s.atDegLimit.xo.hoCycle = none from hh]
    exact Bool.false_ne_true
  rcases hb with hb | hb
  · have hb' : s.atDegLimit.handoverBar = some 0x40 := hb
    rw [State.degExpire, if_neg (show ¬ s.atDegLimit.mstate ≠ .duty from not_not.2 hd), hb']
    exact if_neg hh'
  · have hb' : s.atDegLimit.handoverBar = some 0x41 := hb
    rw [State.degExpire, if_neg (show ¬ s.atDegLimit.mstate ≠ .duty from not_not.2 hd), hb']
    exact if_neg hh'

/-- A handover that starts by itself changes neither the drive, the lanes' states nor what is pending. -/
theorem State.autoHandover_steady (s : State) : s.Steady s.autoHandover := by
  unfold State.autoHandover
  split
  · exact ⟨rfl, rfl, rfl⟩
  · split <;> exact ⟨rfl, rfl, rfl⟩

theorem State.autoHandover_deg (s : State) : s.autoHandover.deg = s.deg := by
  unfold State.autoHandover
  split
  · rfl
  · split <;> rfl

/-- Settles O29. -/
theorem degradedLimit : Obligations.DegradedLimit := by
  intro s hv
  have hdeg : s.degLimit = fieldOf (s.agreedReg Reg.VOTE_CFG) 0 8 * 3600000000000 := rfl
  rw [← hdeg]
  refine ⟨fun hw hl => ⟨_, if_neg ?_, rfl, rfl, rfl, rfl⟩, fun h => if_pos h, fun h3 hc => if_pos ⟨h3, hc⟩, fun h => if_neg ?_,
    fun hl => ?_, execDegExpired_of_below s⟩
  · rw [hw]
    rintro (h | h)
    · cases h
    · omega
  · rintro ⟨h3, hc⟩
    exact h.elim (fun hn => hn h3) fun hn => by omega
  · have hex := execDegExpired_of_limit s hv hl
    refine ⟨fun hd hlead hg => ?_, fun hd hb => ?_, fun hd hb hh hlead hg => ?_, fun hd hb => ?_⟩
    · exact ⟨_, hex, s.degExpire_stops hlead hg (if_pos hd)⟩
    · refine ⟨_, hex, ?_⟩
      rw [s.degExpire_of_noBar hd hb]
      exact ⟨rfl, rfl, rfl, rfl, rfl⟩
    · exact ⟨_, hex, s.degExpire_stops hlead hg (s.degExpire_of_noStandby hd hb hh)⟩
    · refine ⟨_, hex, ?_⟩
      rw [s.degExpire_of_armed hd hb]
      exact ⟨congrArg DegSt.expired s.atDegLimit.autoHandover_deg, s.atDegLimit.autoHandover_steady⟩

end Sys2Proof.Machine
end

section
/-! DIGEST_VOTE (R41 to R44, R52). -/

namespace Sys2Proof.Machine

/-- The module at its digest vote: the exchange of the cycle is over. -/
def State.openVote (s : State) : State :=
  { s with cyc := { s.cyc with step := .voted }, lx := { s.lx with retry := [], missed := [] } }

/-- What follows the vote on the digests: probation, assertions, and the check for a last lane. -/
def State.afterVote (s : State) : State :=
  let s := Lane.list.foldl (fun s l => s.judgeProbation l) s
  let s := if s.worksImage then s.assertions else s
  s.checkLast

theorem execDigestVote_of_agreed (s : State) (hv : s.mstate.voting = true) (ha : s.cyc.step = .agreed) :
    exec .digestVote s = .next s.openVote.overruns.voteDigests.afterVote := by
  refine if_neg ?_
  rw [hv, ha]
  rintro (h | h)
  · cases h
  · exact h rfl

/-- Where every lane has ended its evaluation none overruns. -/
theorem State.overruns_of_ended {s : State} (h : ∀ l : Lane, s.inStep.get l = true → (s.lane.get l).logic.ended = true) : s.overruns = s := by
  have hlate (l : Lane) : (s.inStep.get l && !(s.lane.get l).logic.ended) = false := by
    cases e : s.inStep.get l with
    | false => rfl
    | true => rw [h l e]; rfl
  unfold State.overruns
  split
  · simp [Lane.list, LaneVec.get_ofFn, hlate]
  · rfl

namespace State.Reacts

theorem judgeProbation (s : State) (l : Lane) : s.Reacts (fun _ => True) (s.judgeProbation l) :=
  ite (fun _ => .refl ..) fun _ => ite (fun _ => setCtl _ s l (.inl rfl) id id) fun _ => exclude s trivial ..

theorem assertReact (X : Lane → Prop) (s : State) (l : Lane) (a : AssertRec) : s.Reacts X (s.assertReact l a) := by
  have hoff : Reg.LF_ASSERT a.block % 0x1000 ≠ 0x10 := by unfold Reg.LF_ASSERT; omega
  unfold State.assertReact
  refine ite (fun _ => safeByLane X s l _ _) fun _ => ite (fun _ => refl X s) fun _ => ite (fun _ => ?_) fun _ => ?_
  · exact (upd X s l ((LaneSt.Keeps.addFld _ _ _ _ hoff).trans (.setBits _ _ _))).trans (eventIn ..)
  · exact (upd X s l (LaneSt.Keeps.addFld _ _ _ _ hoff)).trans (eventIn ..)

theorem assertions (X : Lane → Prop) (s : State) : s.Reacts X s.assertions :=
  foldl (fun s l => ite (fun _ => foldl (fun s a => assertReact X s l a) _ s) fun _ => refl X s) _ s

theorem voteDigests (s : State) : s.Reacts (fun _ => True) s.voteDigests := by
  have two (s : State) : s.Reacts (fun _ => True) ((s.count Reg.MINORITY_CNT 24 8 1).safeByAll 0x03) :=
    (count _ s _ _ _ (by decide)).trans (safeByAll ..)
  unfold State.voteDigests
  split
  · split
    · exact refl _ s
    · exact minority s trivial _
    · exact (count _ s _ _ _ (by decide)).trans (safeByAll ..)
  · exact ite (fun _ => refl _ s) fun _ => two s
  · exact ite (fun _ => refl _ s) fun _ => two s
  · exact ite (fun _ => refl _ s) fun _ => two s
  · exact refl _ s

theorem afterVote (s : State) : s.Reacts (fun _ => True) s.afterVote := by
  unfold State.afterVote
  extract_lets t u
  have ht : s.Reacts _ t := foldl judgeProbation _ s
  have hu : t.Reacts (fun _ => True) u := ite (fun _ => assertions _ t) fun _ => refl _ t
  exact ht.trans (hu.trans (checkLast _ u))

end State.Reacts

theorem State.activeCount_of_all {s : State} (h : ∀ x : Lane, s.isActive x = true) : s.activeCount = 3 := by
  have hcount : s.activeCount = (s.isActive .A).toNat + (s.isActive .B).toNat + (s.isActive .C).toNat := rfl
  rw [hcount, h .A, h .B, h .C]
  rfl

theorem State.voteDigests_of_minority {s : State} {l : Lane} (h : ∀ x : Lane, s.isActive x = true) (hv : s.digestVerdict = .minority l) :
    s.voteDigests = s.minority l 0x02 := by
  have ha : s.active.a = true := h .A
  have hb : s.active.b = true := h .B
  have hc : s.active.c = true := h .C
  rw [State.voteDigests, ha, hb, hc, hv]

theorem State.voteDigests_of_noMajority {s : State} (h : ∀ x : Lane, s.isActive x = true) (hv : s.digestVerdict = .noMajority) :
    s.voteDigests = (s.count Reg.MINORITY_CNT 24 8 1).safeByAll 0x02 := by
  have ha : s.active.a = true := h .A
  have hb : s.active.b = true := h .B
  have hc : s.active.c = true := h .C
  rw [State.voteDigests, ha, hb, hc, hv]

/-- Two ACTIVE lanes whose digests differ, whichever of them is compared with the other, take the module to SAFE. -/
theorem State.voteDigests_of_two {s : State} {x y : Lane} (hx : s.isActive x = true) (hy : s.isActive y = true) (h2 : s.activeCount = 2)
    (hd : s.segsDiffer x y ≠ []) (hd' : s.segsDiffer y x ≠ []) (hne : x ≠ y) :
    s.voteDigests = (s.count Reg.MINORITY_CNT 24 8 1).safeByAll 0x03 := by
  have hcount : s.activeCount = (s.isActive .A).toNat + (s.isActive .B).toNat + (s.isActive .C).toNat := rfl
  have ha : s.active.a = s.isActive .A := rfl
  have hb : s.active.b = s.isActive .B := rfl
  have hc : s.active.c = s.isActive .C := rfl
  rw [hcount] at h2
  rw [State.voteDigests, ha, hb, hc]
  cases x <;> cases y <;> simp_all

/-- Settles O23. -/
theorem digestVoteDecides : Obligations.DigestVoteDecides := by
  intro s hv hstep hended
  have hex := execDigestVote_of_agreed s hv hstep
  rw [State.overruns_of_ended (s := s.openVote) hended] at hex
  have hafter := State.Reacts.afterVote s.openVote.voteDigests
  refine ⟨?_, fun l h3 hl => ?_, fun h3 hn hg => ?_, fun x y hx hy h2 hd hd' hne hg => ?_⟩
  · have h := (State.Reacts.voteDigests s.openVote).trans hafter
    exact ⟨_, hex, h.cyc, h.pending⟩
  · refine ⟨_, hex, hafter.leftVote ?_⟩
    have hvd : s.openVote.digestVerdict = .minority l := hl
    have h3' : s.openVote.activeCount = 3 := State.activeCount_of_all h3
    rw [State.voteDigests_of_minority (s := s.openVote) h3 hvd]
    exact s.openVote.minority_leftVote l 0x02 (.inl (by omega))
  · refine ⟨_, hex, hafter.stopped ?_⟩
    have hvd : s.openVote.digestVerdict = .noMajority := hn
    rw [State.voteDigests_of_noMajority (s := s.openVote) h3 hvd]
    exact State.safeByAll_stopped _ 0x02 (s.lead_isSome (h3 .A)) hg
  · refine ⟨_, hex, hafter.stopped ?_⟩
    rw [State.voteDigests_of_two (s := s.openVote) hx hy h2 hd hd' hne]
    exact State.safeByAll_stopped _ 0x03 (s.lead_isSome hx) hg

end Sys2Proof.Machine
end

section
/-! The Lane Exchange (R28, R47, R48, R50, R61): transfers, windows, edges and pages of a resynchronisation. -/

namespace Sys2Proof.Machine

/-- A lane in step exchanges with the others: it is neither out of the vote nor resynchronised. -/
theorem State.inStep_mode {s : State} {l : Lane} (h : s.inStep.get l = true) :
    ¬ (s.mode l = .excluded ∨ s.mode l = .resync ∨ s.mode l = .halted) := by
  rw [State.inStep, LaneVec.get_ofFn, Bool.or_eq_true, beq_iff_eq, beq_iff_eq] at h
  rcases h with h | h <;> rw [h] <;> decide

theorem State.twoOfTwo_of_three {s : State} (h : s.activeCount = 3) : s.twoOfTwo = false := by
  rw [State.twoOfTwo, State.voteMode, if_pos h]
  split <;> rfl

namespace State.Reacts

/-- A failed link takes a lane out of the vote or stops the module. -/
theorem linkFailed (s : State) (k : LxLink) : s.Reacts (fun _ => True) (s.linkFailed k) :=
  ite (fun _ => exclude s trivial ..) fun _ => ite (fun _ => exclude s trivial ..) fun _ =>
    ite (fun _ => safeByAll ..) fun _ => exclude s trivial ..

/-- A repetition is noted as asked (R28), counted and told. -/
theorem askAgain (X : Lane → Prop) (s : State) (k : LxLink) (rcv : Lane) :
    { s with lx := { s.lx with retry := s.lx.retry ++ [(k, rcv)] } }.Reacts X (s.askAgain k rcv) :=
  (upd X _ rcv (.addFld _ _ _ _ (by decide))).trans (eventIn ..)

end State.Reacts

/-- A failed transfer asks for a repetition at most, as far as the exchange itself goes. -/
theorem State.transferFailed_lx (s : State) (k : LxLink) (rcv : Lane) :
    ∃ r, (s.transferFailed k rcv).lx = { s.lx with retry := r } ∧ (s.transferFailed k rcv).pending = s.pending
      ∧ ((k, rcv) ∉ s.lx.retry → r = s.lx.retry ++ [(k, rcv)]) := by
  unfold State.transferFailed
  by_cases hc : s.lx.retry.contains (k, rcv) = true
  · rw [if_pos hc]
    have h := Reacts.linkFailed s k
    exact ⟨s.lx.retry, h.lx, h.pending, fun hn => absurd (List.contains_iff_mem.1 hc) hn⟩
  · rw [if_neg hc]
    have h := Reacts.askAgain (fun _ => True) s k rcv
    exact ⟨_, h.lx, h.pending, fun _ => rfl⟩

/-- A transfer that arrives ends what its lane had missed of the link. -/
def State.sentOn (s : State) (k : LxLink) (rcv : Lane) : State :=
  { s with lx := { s.lx with missed := s.lx.missed.filter fun e => e != (k, farEnd rcv k) } }

/-- A transfer that fails is counted and reported by the lane that receives it. -/
def State.failedOn (s : State) (k : LxLink) (rcv : Lane) (n : Nat) : State :=
  ((s.sentOn k rcv).upd rcv fun L => L.addFld (if n = 0 then Reg.LX_L1_ERR else Reg.LX_L2_ERR) 0 16 1).report rcv (Blk.ofOff Base.lx) n 0

theorem State.Reacts.failedOn (s : State) (k : LxLink) (rcv : Lane) (n : Nat) :
    (s.sentOn k rcv).Reacts (fun _ => True) (s.failedOn k rcv n) :=
  (upd _ _ rcv (.addFld _ _ _ _ (by split <;> decide))).trans (report _ trivial ..)

theorem execLxTransfer_good (s : State) (k : LxLink) (rcv : Lane) {n : Nat} (hn : linkAt rcv k = some n) (hv : s.mstate.voting = true)
    (hr : s.exchanges rcv = true) (hf : s.exchanges (farEnd rcv k) = true) : exec (.lxTransfer k rcv true) s = .next { s with
      lx := { s.lx.train k with
        retry := s.lx.retry.filter fun e => e != (k, rcv), missed := s.lx.missed.filter fun e => e != (k, farEnd rcv k) } } := by
  change execLxTransfer k rcv true s = _
  unfold execLxTransfer
  rw [hn, hv, hr, hf]
  cases k <;> rfl

theorem execLxTransfer_bad (s : State) (k : LxLink) (rcv : Lane) {n : Nat} (hn : linkAt rcv k = some n) (hv : s.mstate.voting = true)
    (hr : s.exchanges rcv = true) (hf : s.exchanges (farEnd rcv k) = true) :
    exec (.lxTransfer k rcv false) s = .next ((s.failedOn k rcv n).transferFailed k rcv).checkLast := by
  change execLxTransfer k rcv false s = _
  unfold execLxTransfer
  rw [hn, hv, hr, hf]
  rfl

theorem lxTransfer_bad_asks (s : State) (k : LxLink) (rcv : Lane) {n : Nat} (hn : linkAt rcv k = some n) (hv : s.mstate.voting = true)
    (hr : s.exchanges rcv = true) (hf : s.exchanges (farEnd rcv k) = true) (hask : (k, rcv) ∉ s.lx.retry) :
    ∃ t, exec (.lxTransfer k rcv false) s = .next t
      ∧ t.lx = { s.lx with retry := s.lx.retry ++ [(k, rcv)], missed := s.lx.missed.filter fun e => e != (k, farEnd rcv k) }
      ∧ t.pending = s.pending := by
  refine ⟨_, execLxTransfer_bad s k rcv hn hv hr hf, ?_⟩
  have hrep := State.Reacts.failedOn s k rcv n
  generalize s.failedOn k rcv n = u at hrep ⊢
  obtain ⟨r, hlx, hp, hr⟩ := u.transferFailed_lx k rcv
  have hlast := State.Reacts.checkLast (fun _ => True) (u.transferFailed k rcv)
  have hretry : u.lx.retry = (s.sentOn k rcv).lx.retry := congrArg LxSt.retry hrep.lx
  replace hretry : u.lx.retry = s.lx.retry := hretry
  refine ⟨?_, hlast.pending.trans (hp.trans hrep.pending)⟩
  rw [hlast.lx, hlx, hr (hretry ▸ hask), hretry, hrep.lx]
  rfl

/-! ### A window missed (R61) -/

/-- A window missed is counted by the lane at the other end, where that exchanges. -/
def State.noteWindow (s : State) (rcv : Lane) (n : Nat) : State :=
  if s.exchanges rcv then s.upd rcv fun L => L.addFld (if n = 0 then Reg.LX_L1_ERR else Reg.LX_L2_ERR) 16 16 1 else s

theorem State.Reacts.noteWindow (X : Lane → Prop) (s : State) (rcv : Lane) (n : Nat) : s.Reacts X (s.noteWindow rcv n) :=
  ite (fun _ => upd X s rcv (.addFld _ _ _ _ (by split <;> decide))) fun _ => refl X s

theorem State.noteWindow_lx (s : State) (rcv : Lane) (n : Nat) : (s.noteWindow rcv n).lx = s.lx := by
  unfold State.noteWindow
  split <;> rfl

theorem State.noteWindow_ctl (s : State) (rcv : Lane) (n : Nat) : (s.noteWindow rcv n).ctl = s.ctl := by
  unfold State.noteWindow
  split <;> rfl

section Window

variable {s : State} {k : LxLink} {x : Lane} {m n : Nat} (hm : linkAt x k = some m) (hn : linkAt (farEnd x k) k = some n)
  (hv : s.mstate.voting = true) (hx : s.inStep.get x = true)

include hm hn hv hx

/-- A window missed on one link is noted; the transfer in it has failed. -/
theorem execStepWindowMissed_first (hmiss : (otherLink x k, x) ∉ s.lx.missed) :
    exec (.stepWindowMissed k x) s = .next (
      let u := s.noteWindow (farEnd x k) n
      let v := { u with lx := { u.lx with missed := u.lx.missed ++ [(k, x)] } }
      if s.exchanges (farEnd x k) then (v.transferFailed k (farEnd x k)).checkLast else v) := by
  have hc : ¬ (s.noteWindow (farEnd x k) n).lx.missed.contains (otherLink x k, x) = true := by
    rw [s.noteWindow_lx]
    exact fun h => hmiss (List.contains_iff_mem.1 h)
  have hne : ¬ (!s.mstate.voting) = true := by rw [hv]; decide
  change execStepWindowMissed k x s = _
  unfold execStepWindowMissed
  simp only [hm, hn]
  rw [if_neg hne, if_neg (State.inStep_mode hx)]
  exact if_neg hc

/-- A lane missed on both its links is silent. -/
theorem execStepWindowMissed_second (hmiss : (otherLink x k, x) ∈ s.lx.missed) :
    ∃ u : State, u.ctl = s.ctl ∧ exec (.stepWindowMissed k x) s = .next (u.excludeSilent x).checkLast := by
  have hc : (s.noteWindow (farEnd x k) n).lx.missed.contains (otherLink x k, x) = true := by
    rw [s.noteWindow_lx]
    exact List.contains_iff_mem.2 hmiss
  have hne : ¬ (!s.mstate.voting) = true := by rw [hv]; decide
  change ∃ u : State, u.ctl = s.ctl ∧ execStepWindowMissed k x s = _
  unfold execStepWindowMissed
  simp only [hm, hn]
  rw [if_neg hne, if_neg (State.inStep_mode hx)]
  refine ⟨if s.exchanges (farEnd x k) && !(s.noteWindow (farEnd x k) n).lx.retry.contains (k, farEnd x k)
    then (s.noteWindow (farEnd x k) n).askAgain k (farEnd x k) else s.noteWindow (farEnd x k) n, ?_, if_pos hc⟩
  split
  · exact s.noteWindow_ctl _ n
  · exact s.noteWindow_ctl _ n

theorem stepWindowMissed_noted (hmiss : (otherLink x k, x) ∉ s.lx.missed) :
    ∃ t, exec (.stepWindowMissed k x) s = .next t ∧ t.lx.missed = s.lx.missed ++ [(k, x)] ∧ t.pending = s.pending := by
  refine ⟨_, execStepWindowMissed_first hm hn hv hx hmiss, ?_⟩
  have hnote := State.Reacts.noteWindow (fun _ => True) s (farEnd x k) n
  dsimp only
  split
  · obtain ⟨r, hlx, hp, -⟩ := State.transferFailed_lx { s.noteWindow (farEnd x k) n with
      lx := { (s.noteWindow (farEnd x k) n).lx with missed := (s.noteWindow (farEnd x k) n).lx.missed ++ [(k, x)] } } k (farEnd x k)
    have hlast := State.Reacts.checkLast (fun _ => True) (State.transferFailed { s.noteWindow (farEnd x k) n with
      lx := { (s.noteWindow (farEnd x k) n).lx with missed := (s.noteWindow (farEnd x k) n).lx.missed ++ [(k, x)] } } k (farEnd x k))
    refine ⟨?_, hlast.pending.trans (hp.trans hnote.pending)⟩
    rw [hlast.lx, hlx, s.noteWindow_lx]
  · exact ⟨by rw [s.noteWindow_lx], hnote.pending⟩

theorem stepWindowMissed_silent (hmiss : (otherLink x k, x) ∈ s.lx.missed) (h2 : 2 ≤ s.activeCount) :
    ∃ t, exec (.stepWindowMissed k x) s = .next t ∧ (t.mode x = .excluded ∨ t.mode x = .halted) ∧ (t.ctl.get x).permit = false := by
  obtain ⟨u, hctl, hex⟩ := execStepWindowMissed_second hm hn hv hx hmiss
  have hcount : u.activeCount = s.activeCount := by
    unfold State.activeCount State.active State.isActive State.mode
    rw [hctl]
  have hexc : u.exclude x .laneRecover 0x06 none = u.leave x .laneRecover 0x06 none none := u.exclude_of_others x _ _ _ _ (.inl (by omega))
  have hleft : (u.exclude x .laneRecover 0x06 none).LeftVote x := hexc ▸ u.leave_leftVote ..
  have hlast := State.Reacts.checkLast (fun _ => True) (u.excludeSilent x)
  exact ⟨_, hex, hlast.out x hleft.1, hlast.permit x hleft.2.1⟩

end Window

/-! ### A missing edge (R124) -/

theorem outEdgeMissing_leftVote {s : State} {l x : Lane} (hv : s.mstate.voting = true) (hl : s.inStep.get l = true)
    (h3 : s.activeCount = 3) (hx : s.isActive x = true) : ∃ t, exec (.outEdgeMissing l x) s = .next t ∧ t.LeftVote x := by
  let u := s.upd l fun L => L.addFld Reg.CYC_EVENTS 16 8 1
  have hux : u.isActive x = true := hx
  have hu3 : u.activeCount = 3 := h3
  have hex : exec (.outEdgeMissing l x) s = .next (((u.minority x 0x07).report l (Blk.ofOff Base.cyc) 1 0).checkLast) := by
    change execOutEdgeMissing l x s = _
    unfold execOutEdgeMissing
    rw [hv, hl, State.twoOfTwo_of_three h3]
    dsimp only
    rw [if_pos hux]
    rfl
  have hr := (State.Reacts.report (X := fun _ => True) (l := l) (u.minority x 0x07) trivial (Blk.ofOff Base.cyc) 1 0).trans (.checkLast ..)
  exact ⟨_, hex, hr.leftVote (u.minority_leftVote x 0x07 (.inl (by omega)))⟩

/-! ### Pages of a resynchronisation (R47, R48) -/

section Page

variable {s : State} {l : Lane} {page : BitVec 20} (hr : s.mode l = .resync) (ho : s.othersActive l = true)
  (hp : page.toNat < resyncPages)

/-- A page that arrives is counted by the lanes that find it alike. -/
def State.countPage (s : State) (l : Lane) (p : Nat) (same : Bool) : State :=
  s.updAll fun x L =>
    if x == l && !same then L
    else
      let L := L.addFld Reg.LX_RESYNC 0 16 1
      if (s.ctl.get l).marked.contains p then L.addFld Reg.LX_RESYNC 16 16 1 else L

include hr ho hp

theorem execResyncPage_of_resync (same : Bool) : exec (.resyncPage l page same) s =
    if same then .next ((s.countPage l page.toNat same).setCtl l fun c => { c with
      pages := insertNat page.toNat c.pages, marked := c.marked.filter fun q => q != page.toNat
      retry := c.retry.filter fun q => q != page.toNat })
    else if (s.ctl.get l).retry.contains page.toNat then .next ((s.countPage l page.toNat same).exclude l .laneHalt 0x0A none)
    else .next ((s.countPage l page.toNat same).setCtl l fun c => { c with
      pages := c.pages.filter fun q => q != page.toNat, retry := insertNat page.toNat c.retry }) := by
  refine if_neg ?_
  rw [hr, ho]
  rintro (h | h | h)
  · exact h rfl
  · cases h
  · omega

theorem resyncPage_alike : ∃ t, exec (.resyncPage l page true) s = .next t ∧ (t.ctl.get l).mode = .resync
    ∧ (t.ctl.get l).pages = insertNat page.toNat (s.ctl.get l).pages ∧ page.toNat ∉ (t.ctl.get l).retry
    ∧ page.toNat ∉ (t.ctl.get l).marked := by
  refine ⟨_, execResyncPage_of_resync hr ho hp true, ?_⟩
  rw [State.setCtl, LaneVec.get_set_self]
  exact ⟨hr, rfl, by simp, by simp⟩

theorem resyncPage_asked (hn : page.toNat ∉ (s.ctl.get l).retry) : ∃ t, exec (.resyncPage l page false) s = .next t
    ∧ (t.ctl.get l).mode = .resync ∧ page.toNat ∉ (t.ctl.get l).pages
    ∧ (t.ctl.get l).retry = insertNat page.toNat (s.ctl.get l).retry := by
  have hc : ¬ (s.ctl.get l).retry.contains page.toNat = true := fun h => hn (List.contains_iff_mem.1 h)
  refine ⟨_, (execResyncPage_of_resync hr ho hp false).trans (if_neg hc), ?_⟩
  rw [State.setCtl, LaneVec.get_set_self]
  exact ⟨hr, by simp, rfl⟩

theorem resyncPage_halted (hm : page.toNat ∈ (s.ctl.get l).retry) : ∃ t, exec (.resyncPage l page false) s = .next t ∧ t.mode l = .halted := by
  have hna : (s.countPage l page.toNat false).isActive l = false := by
    change (s.mode l == .active) = false
    rw [hr]
    rfl
  refine ⟨_, (execResyncPage_of_resync hr ho hp false).trans (if_pos (List.contains_iff_mem.2 hm)), ?_⟩
  have he := (s.countPage l page.toNat false).exclude_of_others l .laneHalt 0x0A none none (.inr hna)
  rw [he]
  exact State.mode_leave_halted _ _ _ _ _ (by decide)

end Page

/-- Settles O26. -/
theorem laneExchange : Obligations.LaneExchange := by
  intro s hv
  refine ⟨fun k rcv n hn hr hf => ?_, fun k x m n hm hn hx => ?_, fun l x hl h3 hx => ?_, fun l page hr ho hp => ?_⟩
  · exact ⟨execLxTransfer_good s k rcv hn hv hr hf, lxTransfer_bad_asks s k rcv hn hv hr hf⟩
  · exact ⟨stepWindowMissed_noted hm hn hv hx, stepWindowMissed_silent hm hn hv hx⟩
  · exact outEdgeMissing_leftVote hv hl h3 hx
  · exact ⟨resyncPage_alike hr ho hp, resyncPage_asked hr ho hp, resyncPage_halted hr ho hp⟩

end Sys2Proof.Machine
end

section
/-! LIVE windows, the decay of switch drivers, SAFE_CHECK and SAFE_REQ (R60, R433, R448 to R451). -/

namespace Sys2Proof.Machine

/-! ### Tests that end -/

/-- What ends tests changes the field's channels and banks and counts in the lanes' registers, nothing else. -/
structure State.EndsTests (s t : State) : Prop where
  rest : t = { s with fld := t.fld, lane := t.lane }
  lane : ∀ l, t.lane.get l = { s.lane.get l with regs := (t.lane.get l).regs }

namespace State.EndsTests

variable {s t u : State}

theorem refl (s : State) : s.EndsTests s := ⟨rfl, fun _ => rfl⟩

theorem trans (h : s.EndsTests t) (k : t.EndsTests u) : s.EndsTests u where
  rest := by rw [k.rest, h.rest]
  lane l := by rw [k.lane, h.lane]

theorem foldl {α : Type} {g : State → α → State} (h : ∀ (s : State) (a : α), s.EndsTests (g s a)) :
    ∀ (xs : List α) (s : State), s.EndsTests (xs.foldl g s)
  | [], s => refl s
  | x :: xs, s => (h s x).trans (foldl h xs (g s x))

theorem settleTest (s : State) (b : Nat) : s.EndsTests (s.settleTest b) := by
  unfold State.settleTest
  split
  · split
    · exact ⟨rfl, fun _ => rfl⟩
    · exact refl s
  · exact refl s

theorem count (s : State) (off lo w n : Nat) : s.EndsTests (s.count off lo w n) :=
  ⟨rfl, fun l => by
    rw [State.count, State.updIn_lane]
    split <;> rfl⟩

theorem abortTest (s : State) (b : Nat) : s.EndsTests (s.abortTest b) := by
  unfold State.abortTest
  split
  · have h : ∀ f, s.EndsTests (s.setBank b f) := fun f => ⟨rfl, fun _ => rfl⟩
    exact (h _).trans (count ..)
  · exact refl s

theorem abortTests (s : State) (pick : RunTest → Bool) : s.EndsTests (s.abortTests pick) := by
  refine (foldl settleTest _ s).trans (foldl (fun s b => ?_) _ _)
  split
  · split
    · exact abortTest s b
    · exact refl s
  · exact refl s

theorem abortSilent (s : State) : s.EndsTests s.abortSilent := by
  unfold State.abortSilent
  split
  · exact abortTests s _
  · exact refl s

theorem drv (h : s.EndsTests t) : t.drv = s.drv := by rw [h.rest]

theorem ctl (h : s.EndsTests t) : t.ctl = s.ctl := by rw [h.rest]

theorem now (h : s.EndsTests t) : t.now = s.now := by rw [h.rest]

theorem liveOk (h : s.EndsTests t) (l : Lane) : (t.lane.get l).liveOk = (s.lane.get l).liveOk := by rw [h.lane]

end State.EndsTests

/-! ### LIVE (R448 to R451) -/

/-- The lanes and the drive circuit have measured the LIVE of a lane; its switches have power again where it lives. -/
def State.measured (s : State) (l : Lane) (half : LaneVec (Option Half)) (drive : Option Half) : State :=
  let s := s.updAll fun x L => L.measureLive l (half.get x)
  let s := { s with drv := { s.drv with live := s.drv.live.set l (halfInWindow drive) } }.refreshDrive
  if s.liveSignals.get l then s.upd l LaneSt.repower else s

/-- The time from which both other lanes have found the LIVE of a lane outside. -/
def State.lostSince (s : State) (l : Lane) (half : LaneVec (Option Half)) : Option Nat :=
  if s.isActive l.others.1 && s.isActive l.others.2 && !halfInWindow (half.get l.others.1) && !halfInWindow (half.get l.others.2)
  then some ((s.ctl.get l).lostAt.getD s.now) else none

/-- The module once the LIVE of a lane is measured, before what follows for the lane. -/
def State.liveNoted (s : State) (l : Lane) (half : LaneVec (Option Half)) (drive : Option Half) : State :=
  (s.measured l half drive).abortSilent.setCtl l fun c =>
    { c with lostAt := (s.measured l half drive).abortSilent.lostSince l half }

/-- A lane that the others have found outside for long is HALTED. -/
def State.haltLost (s : State) (l : Lane) (since : Option Nat) : State :=
  let long : Bool := match since with | some t => decide (t + 1000000 ≤ s.now) | none => false
  if long && s.isActive l && s.mstate.voting then s.exclude l .laneHalt 0x08 none else s

theorem State.haltLost_some {s : State} {l : Lane} {at_ : Nat} (ha : s.isActive l = true) (hv : s.mstate.voting = true)
    (hn : at_ + 1000000 ≤ s.now) : s.haltLost l (some at_) = s.exclude l .laneHalt 0x08 none := by
  unfold State.haltLost
  dsimp only
  rw [ha, hv, decide_eq_true hn]
  rfl

theorem execLiveWindow_of_found (s : State) (l : Lane) (half : LaneVec (Option Half)) (drive : Option Half) (hm : s.mstate ≠ .off)
    (hf : halfInWindow (half.get l) = true) : exec (.liveWindow l half drive) s
      = .next ((s.liveNoted l half drive).haltLost l ((s.measured l half drive).abortSilent.lostSince l half)) := by
  have hrep (p : Bool) (a b : State) : (if p && !(half.map fun _ h => halfInWindow h).get l then a else b) = b := by
    rw [LaneVec.get_map, hf, Bool.not_true, Bool.and_false]
    rfl
  have hfound (x : Lane) : (half.map fun _ h => halfInWindow h).get x = halfInWindow (half.get x) := LaneVec.get_map ..
  change execLiveWindow l half drive s = _
  unfold execLiveWindow
  rw [if_neg hm]
  dsimp only
  rw [hrep, hfound, hfound]
  rfl

theorem State.measured_ctl (s : State) (l : Lane) (half : LaneVec (Option Half)) (drive : Option Half) :
    (s.measured l half drive).ctl = s.ctl := by
  unfold State.measured
  dsimp only
  split <;> rfl

theorem State.measured_now (s : State) (l : Lane) (half : LaneVec (Option Half)) (drive : Option Half) :
    (s.measured l half drive).now = s.now := by
  unfold State.measured
  dsimp only
  split <;> rfl

theorem State.measured_drv (s : State) (l : Lane) (half : LaneVec (Option Half)) (drive : Option Half) :
    (s.measured l half drive).drv
      = ({ s with drv := { s.drv with live := s.drv.live.set l (halfInWindow drive) } } : State).refreshDrive.drv := by
  unfold State.measured
  dsimp only
  split <;> rfl

theorem LaneSt.measureLive_liveOk (L : LaneSt) (l : Lane) (half : Option Half) :
    (L.measureLive l half).liveOk = L.liveOk.set l (halfInWindow half) := rfl

theorem State.measured_liveOk (s : State) (l : Lane) (half : LaneVec (Option Half)) (drive : Option Half) (x : Lane) :
    ((s.measured l half drive).lane.get x).liveOk.get l = halfInWindow (half.get x) := by
  unfold State.measured
  extract_lets u _ v
  have hv : (v.lane.get x).liveOk.get l = halfInWindow (half.get x) := by
    change ((u.lane.get x).liveOk).get l = _
    rw [State.updAll_lane, LaneSt.measureLive_liveOk, LaneVec.get_set_self]
  split
  · by_cases e : x = l
    · subst e
      rw [State.upd_lane_self]
      exact hv
    · rwa [State.upd_lane_of_ne _ _ e]
  · exact hv

theorem halfInWindow_iff (h : Option Half) :
    halfInWindow h = true ↔ ∃ v : Half, h = some v ∧ 9090 ≤ v.toNat ∧ v.toNat ≤ 11110 := by
  cases h with
  | none => simp [halfInWindow]
  | some v => simp [halfInWindow]

section Live

variable (s : State) (l : Lane) (half : LaneVec (Option Half)) (drive : Option Half)

theorem State.liveNoted_drv : (s.liveNoted l half drive).drv
    = ({ s with drv := { s.drv with live := s.drv.live.set l (halfInWindow drive) } } : State).refreshDrive.drv :=
  (EndsTests.abortSilent _).drv.trans (s.measured_drv ..)

theorem State.liveNoted_liveOk (x : Lane) : ((s.liveNoted l half drive).lane.get x).liveOk.get l = halfInWindow (half.get x) := by
  have h := (EndsTests.abortSilent (s.measured l half drive)).liveOk x
  change ((s.measured l half drive).abortSilent.lane.get x).liveOk.get l = _
  rw [h, s.measured_liveOk]

theorem State.liveNoted_mode (x : Lane) : (s.liveNoted l half drive).mode x = s.mode x := by
  have hctl : (s.measured l half drive).abortSilent.ctl = s.ctl := (EndsTests.abortSilent _).ctl.trans (s.measured_ctl ..)
  rw [State.mode, State.liveNoted, State.setCtl, hctl]
  by_cases e : x = l
  · subst e
    rw [LaneVec.get_set_self]
    rfl
  · rw [LaneVec.get_set_of_ne _ _ e]
    rfl

theorem State.liveNoted_isActive (x : Lane) : (s.liveNoted l half drive).isActive x = s.isActive x := by
  rw [State.isActive, s.liveNoted_mode]
  rfl

theorem State.liveNoted_now : (s.liveNoted l half drive).now = s.now := (EndsTests.abortSilent _).now.trans (s.measured_now ..)

theorem State.liveNoted_lostAt :
    ((s.liveNoted l half drive).ctl.get l).lostAt = (s.measured l half drive).abortSilent.lostSince l half := by
  rw [State.liveNoted, State.setCtl, LaneVec.get_set_self]

theorem State.measured_lostSince : (s.measured l half drive).abortSilent.lostSince l half = s.lostSince l half := by
  have hctl : (s.measured l half drive).abortSilent.ctl = s.ctl := (EndsTests.abortSilent _).ctl.trans (s.measured_ctl ..)
  have hnow : (s.measured l half drive).abortSilent.now = s.now := (EndsTests.abortSilent _).now.trans (s.measured_now ..)
  unfold State.lostSince State.isActive State.mode
  rw [hctl, hnow]

variable {s l half}

theorem State.lostSince_of_found (h : halfInWindow (half.get l.others.1) = true) : s.lostSince l half = none := by
  rw [State.lostSince, h, Bool.not_true, Bool.and_false, Bool.false_and]
  rfl

theorem State.lostSince_of_lost {at_ : Nat} (ha : ∀ x : Lane, s.isActive x = true) (h1 : halfInWindow (half.get l.others.1) = false)
    (h2 : halfInWindow (half.get l.others.2) = false) (hat : (s.ctl.get l).lostAt = some at_) : s.lostSince l half = some at_ := by
  rw [State.lostSince, h1, h2, ha, ha, hat]
  rfl

theorem liveWindow_inside (hm : s.mstate ≠ .off) (hl : halfInWindow (half.get l) = true) (ho : halfInWindow (half.get l.others.1) = true) :
    exec (.liveWindow l half drive) s = .next (s.liveNoted l half drive) := by
  rw [execLiveWindow_of_found s l half drive hm hl, s.measured_lostSince, State.lostSince_of_found ho]
  rfl

theorem liveWindow_lost {at_ : Nat} (hv : s.mstate.voting = true) (ha : ∀ x : Lane, s.isActive x = true)
    (hl : halfInWindow (half.get l) = true) (h1 : halfInWindow (half.get l.others.1) = false)
    (h2 : halfInWindow (half.get l.others.2) = false) (hat : (s.ctl.get l).lostAt = some at_) (hnow : at_ + 1000000 ≤ s.now) :
    ∃ t, exec (.liveWindow l half drive) s = .next t ∧ t.LeftVote l ∧ t.mode l = .halted := by
  have hm : s.mstate ≠ .off := fun e => by rw [e] at hv; cases hv
  have hd := s.liveNoted_drv l half drive
  have hv' : (s.liveNoted l half drive).mstate.voting = true := by
    rw [State.mstate, hd]
    exact hv
  have ha' (x : Lane) : (s.liveNoted l half drive).isActive x = true := by rw [s.liveNoted_isActive, ha]
  have h3 := State.activeCount_of_all ha'
  have hex := (s.liveNoted l half drive).exclude_of_others l .laneHalt 0x08 none none (.inl (by omega))
  refine ⟨(s.liveNoted l half drive).leave l .laneHalt 0x08 none none, ?_, State.leave_leftVote .., State.mode_leave_halted _ _ _ _ _ (by decide)⟩
  rw [execLiveWindow_of_found s l half drive hm hl, s.measured_lostSince, State.lostSince_of_lost ha h1 h2 hat, ← hex]
  exact congrArg Host.Outcome.next (State.haltLost_some (ha' l) hv' (by rw [s.liveNoted_now]; exact hnow))

end Live

/-! ### VITAL_DRV and SAFE_REQ (R433, R451) -/

/-- No condition keeps a detector of the fault collector from rising. -/
theorem State.notRaised_fc (s : State) (l : Lane) (bit data : Nat) : s.notRaised l (Blk.ofOff Base.fc) bit data = false := by
  have hpage : pageOf (Blk.base (Blk.ofOff Base.fc)) = some (.fc, 0) := by decide +kernel
  unfold State.notRaised
  rw [hpage]

theorem safeCheck_reports {s : State} (l : Lane) (hm : s.mstate ≠ .off) (hv : s.vdrv = false) (hn : s.drv.offAt + 200000 ≤ s.now) :
    ∃ t, exec (.safeCheck l) s = .next t ∧ t.ErrSet l (Blk.ofOff Base.fc) 2 := by
  have hgo : ¬ (s.mstate = .off ∨ s.vdrv = true ∨ s.now < s.drv.offAt + 200000) := by
    rw [hv]
    rintro (h | h | h)
    · exact hm h
    · cases h
    · omega
  have hex : exec (.safeCheck l) s = .next (s.report l (Blk.ofOff Base.fc) 2 0) := by
    change execSafeCheck l s = _
    rw [execSafeCheck, if_neg hgo]
  exact ⟨_, hex, s.report_errSet l (Blk.ofOff Base.fc) 0 (s.notRaised_fc ..) (by omega)⟩

theorem safeGateLatch_stops {s : State} {l : Lane} {cause : Byte} (ha : s.isActive l = true) (hg : s.gate = false) (hc : cause ≠ 0) :
    ∃ t, exec (.safeGateLatch l cause) s = .next t ∧ t.Stopped ∧ (t.lane.get l).safeReq = true
      ∧ ∀ x : Lane, fieldOf ((t.lane.get x).reg Reg.FC_LAST_SAFE) 0 8 = cause.toNat
        ∧ fieldOf ((t.lane.get x).reg Reg.FC_LAST_SAFE) 8 2 = l.code := by
  have hex : exec (.safeGateLatch l cause) s = .next (s.enterSafe cause.toNat l.code (oneLane l) none) :=
    congrArg Host.Outcome.next (if_pos ha)
  have hreq : (oneLane l).get l = true := by cases l <;> rfl
  have hpos : 0 < cause.toNat := Nat.pos_of_ne_zero fun h => hc (BitVec.eq_of_toNat_eq h)
  have hcode : l.code < 4 := by cases l <;> decide
  exact ⟨_, hex, s.enterSafe_stopped _ _ _ _ hg, s.enterSafe_safeReq _ _ _ _ l hreq,
    fun x => s.enterSafe_lastSafe _ _ _ _ x hg hpos cause.isLt hcode⟩

/-- Settles O28. -/
theorem liveAndSafeGate : Obligations.LiveAndSafeGate := by
  intro s l
  have hin {h : Option Half} := (halfInWindow_iff h).2
  have hout {h : Option Half} (hn : ¬ ∃ v : Half, h = some v ∧ 9090 ≤ v.toNat ∧ v.toNat ≤ 11110) : halfInWindow h = false :=
    Bool.eq_false_iff.2 fun e => hn ((halfInWindow_iff h).1 e)
  refine ⟨fun half drive hm hl ho => ?_, fun half drive at_ hv ha hl h1 h2 hat hnow => ?_, fun hl => ?_, fun hm hv hn => ?_,
    fun cause ha hg hc => safeGateLatch_stops ha hg hc⟩
  · have ho' := hin ho
    have hd := s.liveNoted_drv l half drive
    refine ⟨_, liveWindow_inside drive hm (hin hl) ho', (congrArg DriveSt.mstate hd :), (congrArg DriveSt.gate hd :), ?_, ?_, ?_, ?_,
      s.liveNoted_mode l half drive⟩
    · refine Iff.trans ?_ (halfInWindow_iff drive)
      rw [hd]
      change (s.drv.live.set l (halfInWindow drive)).get l = true ↔ _
      rw [LaneVec.get_set_self]
    · rw [State.vdrv, hd]
      rfl
    · intro x
      rw [s.liveNoted_liveOk]
      exact halfInWindow_iff (half.get x)
    · rw [s.liveNoted_lostAt, s.measured_lostSince, State.lostSince_of_found ho']
  · exact liveWindow_lost drive hv ha (hin hl) (hout h1) (hout h2) hat hnow
  · have hne : ¬ s.liveSignals.get l = true := by rw [hl]; decide
    refine ⟨_, if_neg hne, ⟨rfl, rfl, rfl⟩, ?_, ?_, ?_, fun x hx => s.upd_lane_of_ne _ hx⟩ <;> rw [State.upd_lane_self]
  · exact safeCheck_reports l hm hv hn

end Sys2Proof.Machine
end

section
/-! Resets that complete or overrun (R432, R435, R437). -/

namespace Sys2Proof.Machine

/-! ### The resets of a lane -/

namespace LaneSt

variable {L M : LaneSt} {scope w : RScope} {k j : Blk}

/-- The reset that `resetOf` looks for. -/
def isReset (scope : RScope) (k : Blk) (r : ResetRec) : Bool := decide (r.scope = scope) && decide (r.blk = k) && !r.done

theorem resetOf_eq (L : LaneSt) (scope : RScope) (k : Blk) : L.resetOf scope k = L.resets.find? (isReset scope k) := rfl

theorem resetOf_congr (h : M.resets = L.resets) (scope : RScope) (k : Blk) : M.resetOf scope k = L.resetOf scope k := by
  rw [resetOf_eq, h, resetOf_eq]

theorem resetting_congr (h : M.resets = L.resets) : M.resetting = L.resetting := by
  rw [LaneSt.resetting, h, LaneSt.resetting]

theorem resetOf_endReset_self (L : LaneSt) (scope : RScope) (k : Blk) : (L.endReset scope k).resetOf scope k = none := by
  rw [resetOf_eq, List.find?_eq_none]
  intro r hr
  obtain ⟨q, -, rfl⟩ := List.mem_map.1 hr
  by_cases h : q.scope = scope ∧ q.blk = k
  · rw [if_pos h]
    simp [isReset]
  · rw [if_neg h]
    intro hq
    simp only [isReset, Bool.and_eq_true, decide_eq_true_eq] at hq
    exact h hq.1

theorem resetOf_endReset_of_ne (L : LaneSt) (h : (w, j) ≠ (scope, k)) : (L.endReset scope k).resetOf w j = L.resetOf w j := by
  rw [resetOf_eq, resetOf_eq]
  change (L.resets.map fun r => if r.scope = scope ∧ r.blk = k then { r with done := true } else r).find? (isReset w j) = _
  induction L.resets with
  | nil => rfl
  | cons r rs ih =>
    rw [List.map_cons]
    by_cases hr : r.scope = scope ∧ r.blk = k
    · have hno (q : ResetRec) (hs : q.scope = r.scope) (hb : q.blk = r.blk) : isReset w j q = false := by
        rw [isReset, hs, hb, hr.1, hr.2]
        by_cases h1 : scope = w
        · have h2 : k ≠ j := fun e => h (by rw [h1, e])
          simp [h2]
        · simp [h1]
      rw [if_pos hr, List.find?_cons, List.find?_cons, hno { r with done := true } rfl rfl, hno r rfl rfl, ih]
    · rw [if_neg hr, List.find?_cons, List.find?_cons, ih]

theorem startReset_resets (L : LaneSt) (now : Nat) (scope : RScope) (k : Blk) (tag : Option Byte) :
    (L.startReset now scope k tag).resets = if L.resets.any (isReset scope k) then L.resets
      else (L.resets.filter fun q => (!q.done || q.shadows now)) ++ [{ scope, blk := k, at_ := now, tag }] := by
  have h : (fun q : ResetRec => decide (q.scope = scope ∧ q.blk = k) && !q.done) = isReset scope k := by
    funext q
    rw [isReset, Bool.decide_and]
  unfold LaneSt.startReset
  rw [h]
  split <;> rfl

theorem resetOf_startReset_isSome (L : LaneSt) (now : Nat) (scope : RScope) (k : Blk) (tag : Option Byte) :
    ((L.startReset now scope k tag).resetOf scope k).isSome = true := by
  rw [resetOf_eq, startReset_resets, List.find?_isSome]
  split
  · next h => exact List.any_eq_true.1 h
  · exact ⟨_, List.mem_append_right _ (List.mem_singleton.2 rfl), by simp [isReset]⟩

/-- The start of a reset starts none of another scope. -/
theorem resetOf_startReset_of_none (now : Nat) (tag : Option Byte) (hne : scope ≠ w) (h : L.resetOf scope k = none) :
    (L.startReset now w k tag).resetOf scope k = none := by
  rw [resetOf_eq, List.find?_eq_none] at h
  rw [resetOf_eq, startReset_resets, List.find?_eq_none]
  split
  · exact h
  · intro r hr
    rcases List.mem_append.1 hr with hr | hr
    · exact h r (List.mem_filter.1 hr).1
    · rw [List.mem_singleton.1 hr]
      simp [isReset, hne.symm]

theorem rewriteLine_resets (L : LaneSt) (u : Nat) : (L.rewriteLine u).resets = L.resets := by
  unfold LaneSt.rewriteLine
  dsimp only
  split
  · rfl
  · split
    · rfl
    · split
      · split <;> rfl
      · rfl

/-- What every change of a fold leaves of the resets, the fold leaves. -/
theorem foldl_resets {α : Type} {f : LaneSt → α → LaneSt} (h : ∀ (L : LaneSt) (a : α), (f L a).resets = L.resets) :
    ∀ (xs : List α) (L : LaneSt), (xs.foldl f L).resets = L.resets
  | [], _ => rfl
  | x :: xs, L => (foldl_resets h xs (f L x)).trans (h L x)

theorem rewriteAfter_resets (L : LaneSt) (r : ResetRec) (causes : List Det) : (L.rewriteAfter r causes).resets = L.resets := by
  refine foldl_resets (fun L i => ?_) _ L
  dsimp only
  split
  · exact L.rewriteLine_resets _
  · rfl

theorem reloadAfter_resets (L : LaneSt) (causes : List Det) : (L.reloadAfter causes).resets = L.resets := by
  refine foldl_resets (fun L u => ?_) _ L
  split <;> rfl

end LaneSt

/-! ### What keeps a lane out (R432) -/

/-- What holds a lane's cause of exclusion is the supply banks, the lane's permit and what it finds of its own LIVE. -/
theorem State.holdsCause_congr {s t : State} {l : Lane} (ho : (t.lane.get l).liveOk = (s.lane.get l).liveOk)
    (hp : (t.ctl.get l).permit = (s.ctl.get l).permit) (hf : t.fld = s.fld) : t.holdsCause l = s.holdsCause l := by
  have hbank : t.bank = s.bank := by
    funext b
    rw [State.bank, hf, State.bank]
  suffices h : ∀ f, f = @State.holdsCause → f t l = f s l from h _ rfl
  intro f hdef
  delta State.holdsCause at hdef
  subst hdef
  funext d
  beta_reduce
  rw [hbank, hp, ho]

theorem State.stillFaulty_congr {s t : State} {l : Lane} (hs : (t.lane.get l).standing = (s.lane.get l).standing)
    (ho : (t.lane.get l).liveOk = (s.lane.get l).liveOk) (hp : (t.ctl.get l).permit = (s.ctl.get l).permit) (hf : t.fld = s.fld)
    (hi : t.inj = s.inj) : t.stillFaulty l = s.stillFaulty l := by
  funext d
  unfold State.stillFaulty
  rw [hs, hi, State.holdsCause_congr ho hp hf]

/-! ### A lane HALTED -/

/-- What a lane's halt leaves of a lane. -/
def LaneSt.Halts (L M : LaneSt) : Prop := M.resets = L.resets ∧ M.standing = L.standing ∧ M.liveOk = L.liveOk

theorem State.laneEntry_lane (s : State) (ls : LaneSet) (y : Lane) (m : LaneMode) (cause : Nat) (cls : FClass) (tag : Option Byte) (x : Lane) :
    (s.lane.get x).Halts ((s.laneEntry ls y m cause cls tag).lane.get x) := by
  rw [State.laneEntry, State.recordIn, State.updIn_lane]
  split
  · refine ⟨LaneSt.record_resets .., ?_, ?_⟩ <;> rw [(LaneSt.record_frame ..).1]
  · exact ⟨rfl, rfl, rfl⟩

/-- What the halt of a lane changes of its state. -/
def LaneCtl.halt (c : LaneCtl) : LaneCtl :=
  { c with mode := .halted, cls := .laneHalt, rejoinReq := false, pages := [], marked := [], retry := [] }

section Halt

variable (s : State) (l : Lane) (cause : Nat) (tag : Option Byte)

/-- The lane is HALTED, and the books tell it. -/
def State.haltMark : State := (s.laneEntry (withLane s.inStep l) l .halted cause .laneHalt tag).setCtl l LaneCtl.halt

theorem State.haltLane_eq : s.haltLane l cause tag
    = if s.lead == some l then (s.haltMark l cause tag).closeSessions else s.haltMark l cause tag := rfl

theorem State.haltMark_ctl : (s.haltMark l cause tag).ctl = s.ctl.set l (s.ctl.get l).halt := rfl

theorem State.haltLane_ctl : (s.haltLane l cause tag).ctl = s.ctl.set l (s.ctl.get l).halt := by
  rw [s.haltLane_eq, ← s.haltMark_ctl l cause tag]
  split <;> rfl

theorem State.haltLane_rest : (s.haltLane l cause tag).drv = s.drv ∧ (s.haltLane l cause tag).pending = s.pending
    ∧ (s.haltLane l cause tag).fld = s.fld ∧ (s.haltLane l cause tag).inj = s.inj := by
  have hm : (s.haltMark l cause tag).drv = s.drv ∧ (s.haltMark l cause tag).pending = s.pending
      ∧ (s.haltMark l cause tag).fld = s.fld ∧ (s.haltMark l cause tag).inj = s.inj := ⟨rfl, rfl, rfl, rfl⟩
  rw [s.haltLane_eq]
  split
  · exact hm
  · exact hm

theorem State.haltLane_lane (x : Lane) : (s.lane.get x).Halts ((s.haltLane l cause tag).lane.get x) := by
  have h : (s.lane.get x).Halts ((s.haltMark l cause tag).lane.get x) :=
    s.laneEntry_lane (withLane s.inStep l) l .halted cause .laneHalt tag x
  rw [s.haltLane_eq]
  split
  · change (s.lane.get x).Halts (((s.haltMark l cause tag).updAll fun _ L => { L with tlsKeys := [] }).lane.get x)
    rw [State.updAll_lane]
    exact h
  · exact h

theorem State.haltLane_mode : (s.haltLane l cause tag).mode l = .halted := by
  rw [State.mode, s.haltLane_ctl, LaneVec.get_set_self]
  rfl

theorem State.haltLane_stillFaulty : (s.haltLane l cause tag).stillFaulty l = s.stillFaulty l := by
  obtain ⟨-, -, hf, hi⟩ := s.haltLane_rest l cause tag
  obtain ⟨-, hs, ho⟩ := s.haltLane_lane l cause tag l
  refine State.stillFaulty_congr hs ho ?_ hf hi
  rw [s.haltLane_ctl, LaneVec.get_set_self]
  rfl

end Halt

/-! ### RESET_COMPLETE -/

section Complete

variable (s : State) (l : Lane) (scope : RScope) (k : Blk) (r : ResetRec)

/-- What the lane does as its reset ends. -/
def LaneSt.completeReset (L : LaneSt) (l : Lane) (scope : RScope) (k : Blk) (r : ResetRec) (causes : List Det) (reload : Bool)
    (now cycle : Nat) : LaneSt :=
  let L := (L.endReset scope k).rewriteAfter r causes
  let L := if reload then L.reloadAfter causes else L
  L.record (obPath l k.region.toNat k.block.toNat 0x1F) (obCode 8 (RScope.code scope)) 0 (tagFlag r.tag) cycle
    (obData (((now - r.at_) / 10) % 2 ^ 32 + tagData r.tag))

theorem LaneSt.completeReset_resets (L : LaneSt) (causes : List Det) (reload : Bool) (now cycle : Nat) :
    (L.completeReset l scope k r causes reload now cycle).resets = (L.endReset scope k).resets := by
  have h := (L.endReset scope k).rewriteAfter_resets r causes
  unfold LaneSt.completeReset
  dsimp only
  rw [LaneSt.record_resets]
  split
  · rw [LaneSt.reloadAfter_resets, h]
  · exact h

/-- After a lane reset the lane's receive paths return to the vote on the remote sources (R32). -/
def State.restorePaths (s : State) (l : Lane) (scope : RScope) : State :=
  if scope = .lane then
    { s with fld := { s.fld with
      pathOut := s.fld.pathOut.filter fun e => !(e.1 == l && decide (256 ≤ e.2))
      minority := s.fld.minority.filter fun e => !(e.1 == l && decide (256 ≤ e.2.1)) } }
  else s

theorem State.restorePaths_frame (s : State) (l : Lane) (scope : RScope) : ∃ fld, s.restorePaths l scope = { s with fld := fld } := by
  unfold State.restorePaths
  split
  · exact ⟨_, rfl⟩
  · exact ⟨s.fld, rfl⟩

/-- The module as the reset of a lane has ended, before what follows for the lane. -/
def State.resetEnded : State :=
  (s.upd l fun L => L.completeReset l scope k r (s.ctl.get l).watch (scope == .lane && (s.ctl.get l).rejoinReq) s.now s.cyc.num).restorePaths
    l scope

theorem State.resetEnded_rest : (s.resetEnded l scope k r).drv = s.drv ∧ (s.resetEnded l scope k r).pending = s.pending
    ∧ (s.resetEnded l scope k r).ctl = s.ctl := by
  obtain ⟨fld, h⟩ := State.restorePaths_frame (s.upd l fun L =>
    L.completeReset l scope k r (s.ctl.get l).watch (scope == .lane && (s.ctl.get l).rejoinReq) s.now s.cyc.num) l scope
  rw [State.resetEnded, h]
  exact ⟨rfl, rfl, rfl⟩

theorem State.resetEnded_resets :
    ((s.resetEnded l scope k r).lane.get l).resets = ((s.lane.get l).endReset scope k).resets := by
  obtain ⟨fld, h⟩ := State.restorePaths_frame (s.upd l fun L =>
    L.completeReset l scope k r (s.ctl.get l).watch (scope == .lane && (s.ctl.get l).rejoinReq) s.now s.cyc.num) l scope
  have hl := s.upd_lane_self l fun L =>
    L.completeReset l scope k r (s.ctl.get l).watch (scope == .lane && (s.ctl.get l).rejoinReq) s.now s.cyc.num
  rw [State.resetEnded, h]
  exact (congrArg LaneSt.resets hl).trans (LaneSt.completeReset_resets ..)

/-- What follows for a lane whose last reset has ended: HALTED, where its cause stands. -/
def State.afterReset (l : Lane) (tag : Option Byte) : State :=
  if (s.lane.get l).resetting ∨ s.mstate = .safe then s
  else match (s.ctl.get l).mode with
    | .excluded => if (s.ctl.get l).watch.any (s.stillFaulty l) then s.haltLane l 0x0B tag else s
    | .halted => if (s.ctl.get l).rejoinReq && s.stillExcludes l then s.haltLane l 0x0B tag else s
    | _ => s

variable {s l scope k r}

theorem execResetComplete_of_reset (h : (s.lane.get l).resetOf scope k = some r) :
    exec (.resetComplete l scope k) s = .next ((s.resetEnded l scope k r).afterReset l r.tag) := by
  change execResetComplete l scope k s = _
  unfold execResetComplete
  rw [h]
  dsimp -zeta only
  extract_lets causes reload u _ v c
  have hv : v = s.resetEnded l scope k r := rfl
  have hc : c = v.ctl.get l := rfl
  clear_value c v
  subst hc hv
  unfold State.afterReset
  split
  · rfl
  · cases ((s.resetEnded l scope k r).ctl.get l).mode <;> rfl

/-- A lane whose reset has ended stays as it is, or it is HALTED. -/
theorem State.afterReset_cases (s : State) (l : Lane) (tag : Option Byte) :
    s.afterReset l tag = s ∨ s.afterReset l tag = s.haltLane l 0x0B tag ∧ (s.lane.get l).resetting = false := by
  unfold State.afterReset
  split
  · exact .inl rfl
  · next hc =>
    have hr : (s.lane.get l).resetting = false := Bool.eq_false_iff.2 fun h => hc (.inl h)
    split
    · split
      · exact .inr ⟨rfl, hr⟩
      · exact .inl rfl
    · split
      · exact .inr ⟨rfl, hr⟩
      · exact .inl rfl
    · exact .inl rfl

/-- The last reset of an EXCLUDED lane has ended: it is HALTED, where its cause stands. -/
theorem State.afterReset_excluded {s : State} {l : Lane} (tag : Option Byte) (hr : (s.lane.get l).resetting = false)
    (hs : s.mstate ≠ .safe) (hm : (s.ctl.get l).mode = .excluded) :
    s.afterReset l tag = if (s.ctl.get l).watch.any (s.stillFaulty l) then s.haltLane l 0x0B tag else s := by
  have hc : ¬ ((s.lane.get l).resetting = true ∨ s.mstate = .safe) := by
    rw [hr]
    exact fun h => h.elim (fun h => by cases h) hs
  rw [State.afterReset, if_neg hc, hm]

theorem State.afterReset_resets (s : State) (l : Lane) (tag : Option Byte) :
    ((s.afterReset l tag).lane.get l).resets = (s.lane.get l).resets := by
  rcases s.afterReset_cases l tag with h | ⟨h, -⟩
  · rw [h]
  · rw [h, (s.haltLane_lane l 0x0B tag l).1]

theorem State.afterReset_rest (s : State) (l : Lane) (tag : Option Byte) :
    (s.afterReset l tag).drv = s.drv ∧ (s.afterReset l tag).pending = s.pending := by
  rcases s.afterReset_cases l tag with h | ⟨h, -⟩
  · rw [h]
    exact ⟨rfl, rfl⟩
  · rw [h]
    obtain ⟨hd, hp, -, -⟩ := s.haltLane_rest l 0x0B tag
    exact ⟨hd, hp⟩

theorem State.afterReset_ctl_of_ne (s : State) {l x : Lane} (tag : Option Byte) (hx : x ≠ l) :
    (s.afterReset l tag).ctl.get x = s.ctl.get x := by
  rcases s.afterReset_cases l tag with h | ⟨h, -⟩
  · rw [h]
  · rw [h, s.haltLane_ctl, LaneVec.get_set_of_ne _ _ hx]

end Complete

/-! ### The next cycle boundary (R45, R46) -/

theorem State.enterResync_mode (s : State) (x : Lane) (cause : Nat) : (s.enterResync x cause).mode x = .resync := by
  unfold State.enterResync
  extract_lets u v
  have h : v.mode x = .resync := by
    change ((u.ctl.set x _).get x).mode = _
    rw [LaneVec.get_set_self]
  exact h

theorem State.laneBoundary_resync {s : State} {l : Lane} (hv : s.mstate.voting = true) (ho : s.othersActive l = true)
    (hr : (s.lane.get l).resetting = false) (hm : (s.ctl.get l).mode = .excluded) (hc : (s.ctl.get l).cls = .laneRecover) :
    (s.laneBoundary l).mode l = .resync := by
  unfold State.laneBoundary
  dsimp only
  rw [hv, ho, hr, hm, hc]
  exact s.enterResync_mode l 0

/-! ### RESET_OVERRUN (R437) -/

section Overrun

variable {s : State} {l : Lane} {k : Blk} {r : ResetRec}

theorem execResetOverrun_lane (h : (s.lane.get l).resetOf .lane k = some r) (hn : r.at_ + RScope.bound .lane ≤ s.now) :
    exec (.resetOverrun l .lane k) s = .next ((s.upd l fun L => L.endReset .lane k).haltLane l 0x0C r.tag) := by
  change execResetOverrun l .lane k s = _
  rw [execResetOverrun, h]
  exact if_neg (Nat.not_lt.2 hn)

theorem execResetOverrun_block (h : (s.lane.get l).resetOf .block k = some r) (hn : r.at_ + RScope.bound .block ≤ s.now) :
    exec (.resetOverrun l .block k) s = .next (s.widen l .block k .region r.tag) := by
  change execResetOverrun l .block k s = _
  rw [execResetOverrun, h]
  exact if_neg (Nat.not_lt.2 hn)

theorem execResetOverrun_region (h : (s.lane.get l).resetOf .region k = some r) (hn : r.at_ + RScope.bound .region ≤ s.now) :
    exec (.resetOverrun l .region k) s = .next (s.widen l .region k .lane r.tag) := by
  change execResetOverrun l .region k s = _
  rw [execResetOverrun, h]
  exact if_neg (Nat.not_lt.2 hn)

theorem execResetOverrun_early {scope : RScope} (h : (s.lane.get l).resetOf scope k = some r) (hn : s.now < r.at_ + RScope.bound scope) :
    exec (.resetOverrun l scope k) s = .next s := by
  change execResetOverrun l scope k s = _
  rw [execResetOverrun, h]
  exact if_pos hn

end Overrun

theorem State.widen_resets (s : State) (l : Lane) {scope w : RScope} (k : Blk) (tag : Option Byte) (hne : scope ≠ w) :
    ((s.widen l scope k w tag).lane.get l).resetOf scope k = none
      ∧ (((s.widen l scope k w tag).lane.get l).resetOf w k).isSome = true := by
  rw [State.widen, State.upd_lane_self]
  exact ⟨LaneSt.resetOf_startReset_of_none _ _ hne (LaneSt.resetOf_endReset_self ..), LaneSt.resetOf_startReset_isSome ..⟩

/-- A lane reset that overruns leaves the lane HALTED (R437). -/
theorem State.halted_of_overrun (s : State) (l : Lane) (k : Blk) (tag : Option Byte) :
    let t := (s.upd l fun L => L.endReset .lane k).haltLane l 0x0C tag
    t.mode l = .halted ∧ t.drv = s.drv ∧ (t.lane.get l).resetOf .lane k = none := by
  intro t
  obtain ⟨hd, -, -, -⟩ := (s.upd l fun L => L.endReset .lane k).haltLane_rest l 0x0C tag
  obtain ⟨hr, -, -⟩ := (s.upd l fun L => L.endReset .lane k).haltLane_lane l 0x0C tag l
  refine ⟨State.haltLane_mode .., hd, ?_⟩
  rw [LaneSt.resetOf_congr hr, State.upd_lane_self]
  exact LaneSt.resetOf_endReset_self ..

/-- What the end of a reset leaves (R45, R46, R432). -/
theorem resetComplete_ends {s : State} {l : Lane} {scope : RScope} {k : Blk} {r : ResetRec} (h : (s.lane.get l).resetOf scope k = some r) :
    ∃ t, exec (.resetComplete l scope k) s = .next t ∧ (t.lane.get l).resetOf scope k = none
      ∧ (∀ (w : RScope) (j : Blk), (w, j) ≠ (scope, k) → (t.lane.get l).resetOf w j = (s.lane.get l).resetOf w j)
      ∧ t.drv = s.drv ∧ t.pending = s.pending ∧ (∀ x : Lane, x ≠ l → t.ctl.get x = s.ctl.get x)
      ∧ ((t.lane.get l).resetting = true → t.ctl = s.ctl)
      ∧ ((t.lane.get l).resetting = false → s.mstate ≠ .safe → s.mode l = .excluded →
          t.mode l = (if (s.ctl.get l).watch.any (t.stillFaulty l) then .halted else .excluded)
          ∧ ((s.ctl.get l).watch.any (t.stillFaulty l) = false → (s.ctl.get l).cls = .laneRecover → s.mstate.voting = true →
            s.othersActive l = true → (t.laneBoundary l).mode l = .resync)) := by
  obtain ⟨hud, hup, huc⟩ := s.resetEnded_rest l scope k r
  have hur := s.resetEnded_resets l scope k r
  refine ⟨_, execResetComplete_of_reset h, ?_⟩
  generalize s.resetEnded l scope k r = u at hud hup huc hur ⊢
  obtain ⟨hd, hp⟩ := u.afterReset_rest l r.tag
  have hres := (u.afterReset_resets l r.tag).trans hur
  refine ⟨?_, fun w j hne => ?_, hd.trans hud, hp.trans hup, fun x hx => ?_, fun hr => ?_, fun hr hs hm => ?_⟩
  · rw [LaneSt.resetOf_congr hres]
    exact LaneSt.resetOf_endReset_self ..
  · rw [LaneSt.resetOf_congr hres]
    exact LaneSt.resetOf_endReset_of_ne _ hne
  · rw [u.afterReset_ctl_of_ne _ hx, huc]
  · rw [LaneSt.resetting_congr (u.afterReset_resets l r.tag)] at hr
    rcases u.afterReset_cases l r.tag with e | ⟨-, hf⟩
    · rw [e, huc]
    · rw [hr] at hf
      cases hf
  · rw [LaneSt.resetting_congr (u.afterReset_resets l r.tag)] at hr
    have hmst : u.mstate = s.mstate := congrArg DriveSt.mstate hud
    have hum : (u.ctl.get l).mode = .excluded := huc ▸ hm
    rw [State.afterReset_excluded r.tag hr (hmst ▸ hs) hum, huc]
    by_cases hw : (s.ctl.get l).watch.any (u.stillFaulty l) = true
    · rw [if_pos hw, u.haltLane_stillFaulty, if_pos hw]
      exact ⟨u.haltLane_mode .., fun hn => by rw [hw] at hn; cases hn⟩
    · rw [if_neg hw, if_neg hw]
      refine ⟨hum, fun _ hc hv ho => State.laneBoundary_resync (hmst ▸ hv) ?_ hr hum (huc ▸ hc)⟩
      unfold State.othersActive State.isActive State.mode at ho ⊢
      rwa [huc]

/-- Settles O32. -/
theorem resetsEnd : Obligations.ResetsEnd := by
  intro s l scope k r h
  refine ⟨resetComplete_ends h, fun hn => ⟨?_, ?_, ?_⟩, execResetOverrun_early h⟩
  · rintro rfl
    exact ⟨_, execResetOverrun_lane h hn, s.halted_of_overrun l k r.tag⟩
  · rintro rfl
    exact ⟨_, execResetOverrun_block h hn, s.widen_resets l k r.tag (by decide)⟩
  · rintro rfl
    exact ⟨_, execResetOverrun_region h hn, s.widen_resets l k r.tag (by decide)⟩

end Sys2Proof.Machine
end

section
/-! What is sent and what is shown: frames of the operations that form telegrams and that enter a module state. -/

namespace Sys2Proof.Machine

/-! ### Telegrams that leave -/

/-- A change of some lanes keeps what each of them keeps. -/
theorem State.updIn_keeps (s : State) (ls : LaneSet) {f : Lane → LaneSt → LaneSt} (h : ∀ (l : Lane) (L : LaneSt), L.Keeps (f l L)) (l : Lane) :
    (s.lane.get l).Keeps ((s.updIn ls f).lane.get l) := (Reacts.updIn (fun _ => True) s ls h).lane l

/-- What forms a telegram changes the lanes' state, what waits to be sent and the module registers, nothing else; a lane keeps what it
keeps. -/
structure State.Sends (s t : State) : Prop where
  rest : t = { s with lane := t.lane, txq := t.txq, mregs := t.mregs }
  lane : ∀ l, (s.lane.get l).Keeps (t.lane.get l)

namespace State.Sends

variable {s t u : State}

theorem refl (s : State) : s.Sends s := ⟨rfl, fun _ => .refl _⟩

theorem trans (h : s.Sends t) (k : t.Sends u) : s.Sends u := ⟨by rw [k.rest, h.rest], fun l => (h.lane l).trans (k.lane l)⟩

theorem foldl {α : Type} {g : State → α → State} (h : ∀ (s : State) (a : α), s.Sends (g s a)) :
    ∀ (xs : List α) (s : State), s.Sends (xs.foldl g s)
  | [], s => refl s
  | x :: xs, s => (h s x).trans (foldl h xs (g s x))

theorem ite {c : Prop} [Decidable c] {a b : State} (ha : s.Sends a) (hb : s.Sends b) : s.Sends (if c then a else b) := by
  split
  · exact ha
  · exact hb

theorem updIn (s : State) (ls : LaneSet) {f : Lane → LaneSt → LaneSt} (h : ∀ (l : Lane) (L : LaneSt), L.Keeps (f l L)) :
    s.Sends (s.updIn ls f) := ⟨rfl, s.updIn_keeps ls h⟩

theorem updAll (s : State) {f : Lane → LaneSt → LaneSt} (h : ∀ (l : Lane) (L : LaneSt), L.Keeps (f l L)) : s.Sends (s.updAll f) := updIn s _ h

theorem count (s : State) {off : Nat} (lo w n : Nat) (h : off % 0x1000 ≠ 0x10) : s.Sends (s.count off lo w n) :=
  updIn s _ fun _ L => .addFld L lo w n h

theorem event (s : State) (base n data : Nat) : s.Sends (s.event base n data) := updIn s _ fun _ _ => .record ..

theorem echo (s : State) (l : Lane) (base n data : Nat) : s.Sends (s.echo l base n data) :=
  ⟨rfl, (Reacts.echo (fun _ => True) s l base n data).lane⟩

theorem setMfld (s : State) (off lo w n : Nat) : s.Sends (s.setMfld off lo w n) := ⟨rfl, fun _ => .refl _⟩

theorem putFrame (s : State) (ch : TxChan) (bs : Bytes) (ip : Option IpHead) : s.Sends (s.putFrame ch bs ip) := ⟨rfl, fun _ => .refl _⟩

theorem countTxLate (s : State) (pair : Nat) : s.Sends (s.countTxLate pair) :=
  ite ((count s _ _ _ (by decide)).trans (event ..)) (foldl (fun s l => ite (echo ..) (refl s)) _ s)

theorem withheld : ∀ (n : Nat) (s : State), s.Sends (State.withheld n s)
  | 0, s => refl s
  | n + 1, s => (countTxLate s s.txPair).trans (withheld n _)

theorem finishLeft (s : State) (session type : Nat) : s.Sends (s.finishLeft session type) :=
  ite (refl s) (updAll s fun _ _ => .of_regs rfl rfl rfl rfl rfl id)

theorem sendNet (s : State) (c : SessCfg) (n : Net) (ch : TxChan) (bs : Bytes) : s.Sends (s.sendNet c n ch bs) :=
  (count s 0 32 1 (by cases n <;> decide)).trans (putFrame ..)

theorem completeTelegram (s : State) (session type seq flags : Nat) (payload : Bytes) (code : Option TgCode) :
    s.Sends (s.completeTelegram session type seq flags payload code) := by
  unfold State.completeTelegram
  split
  · extract_lets S
    refine ite (refl s) ?_
    split
    · exact (withheld _ s).trans (finishLeft ..)
    · extract_lets bs u v w
      have hu : s.Sends u := ite (sendNet ..) (refl s)
      have hv : u.Sends v := ite (sendNet ..) (refl u)
      have hw : v.Sends w := ite (refl v) (updAll v fun _ _ => .of_regs rfl rfl rfl rfl rfl id)
      exact hu.trans (hv.trans (hw.trans (finishLeft ..)))
  · exact refl s

theorem pending (h : s.Sends t) : t.pending = s.pending := by rw [h.rest]

theorem cyc (h : s.Sends t) : t.cyc = s.cyc := by rw [h.rest]

end State.Sends

/-! ### The entry into a module state -/

/-- What follows the entry into a module state changes the lanes' state, the field, what is shown and the claims of addresses. -/
structure State.Shows (s t : State) : Prop where
  rest : t = { s with lane := t.lane, fld := t.fld, seen := t.seen, said1 := t.said1, said2 := t.said2 }
  lane : ∀ l, (s.lane.get l).Keeps (t.lane.get l)

namespace State.Shows

variable {s t u : State}

theorem refl (s : State) : s.Shows s := ⟨rfl, fun _ => .refl _⟩

theorem trans (h : s.Shows t) (k : t.Shows u) : s.Shows u := ⟨by rw [k.rest, h.rest], fun l => (h.lane l).trans (k.lane l)⟩

theorem foldl {α : Type} {g : State → α → State} (h : ∀ (s : State) (a : α), s.Shows (g s a)) :
    ∀ (xs : List α) (s : State), s.Shows (xs.foldl g s)
  | [], s => refl s
  | x :: xs, s => (h s x).trans (foldl h xs (g s x))

theorem ite {c : Prop} [Decidable c] {a b : State} (ha : s.Shows a) (hb : s.Shows b) : s.Shows (if c then a else b) := by
  split
  · exact ha
  · exact hb

theorem updIn (s : State) (ls : LaneSet) {f : Lane → LaneSt → LaneSt} (h : ∀ (l : Lane) (L : LaneSt), L.Keeps (f l L)) :
    s.Shows (s.updIn ls f) := ⟨rfl, s.updIn_keeps ls h⟩

theorem updAll (s : State) {f : Lane → LaneSt → LaneSt} (h : ∀ (l : Lane) (L : LaneSt), L.Keeps (f l L)) : s.Shows (s.updAll f) := updIn s _ h

theorem setChan (s : State) (n : Nat) (f : ChanSt → ChanSt) : s.Shows (s.setChan n f) := ⟨rfl, fun _ => .refl _⟩

theorem setBank (s : State) (b : Nat) (f : BankSt → BankSt) : s.Shows (s.setBank b f) := ⟨rfl, fun _ => .refl _⟩

theorem leaveStandby (s : State) : s.Shows s.leaveStandby :=
  ite (updAll s fun _ _ => .of_regs rfl rfl rfl rfl rfl id) (refl s)

theorem showNow (s : State) : s.Shows s.showNow := by
  have h : ∀ u : State, u.Shows u.noteSeen := fun _ => ⟨rfl, fun _ => .refl _⟩
  refine ite (refl s) ?_
  exact (updAll s (f := fun _ L => L.noteShown s.power.tamper) fun _ _ => .of_regs rfl rfl rfl rfl rfl id).trans (h _)

theorem restartTests (s : State) : s.Shows s.restartTests := foldl (fun s n => setChan s n _) _ s

theorem restartInputs (s : State) : s.Shows s.restartInputs := foldl (fun s (e : Nat × ChanCfg) => setChan s e.1 _) _ s

theorem startTests (old s : State) : s.Shows (State.startTests old s) := by
  unfold State.startTests
  extract_lets u
  have hu : s.Shows u := ite (restartInputs s) (refl s)
  exact hu.trans (ite (foldl (fun s b => setBank s b _) _ u) (ite (restartTests u) (refl u)))

theorem refreshIsolators (s : State) : s.Shows s.refreshIsolators := foldl (fun s b => setBank s b _) _ s

theorem setIsolators (s : State) : s.Shows s.setIsolators :=
  (updAll s (f := fun l L => { L with field := { L.field with iso := if s.mstate.closesBanks && s.isActive l then 0xFFFF else 0 } })
    fun _ _ => .of_regs rfl rfl rfl rfl rfl id).trans (refreshIsolators _)

theorem claimAddrs (s : State) : s.Shows s.claimAddrs := ⟨rfl, fun _ => .refl _⟩

theorem drv (h : s.Shows t) : t.drv = s.drv := by rw [h.rest]

theorem ctl (h : s.Shows t) : t.ctl = s.ctl := by rw [h.rest]

theorem xo (h : s.Shows t) : t.xo = s.xo := by rw [h.rest]

theorem pending (h : s.Shows t) : t.pending = s.pending := by rw [h.rest]

theorem cyc (h : s.Shows t) : t.cyc = s.cyc := by rw [h.rest]

end State.Shows

/-- A module state is entered: the module is in it, and shows it. -/
theorem State.enter_shows (s : State) (m : MState) : ({ s with drv := { s.drv with mstate := m } } : State).Shows (s.enter m) := by
  unfold State.enter
  extract_lets _ held ms u v w _ x y z
  have hu : s.Shows u := Shows.ite (Shows.updAll s fun _ L => .setReg L _ (by decide)) (Shows.refl s)
  have hv : u.Shows v := Shows.ite (Shows.refl u) (Shows.leaveStandby u)
  have hw : s.Shows w := (hu.trans hv).trans (Shows.showNow v)
  have hm : ({ s with drv := { s.drv with mstate := m } } : State).Shows { w with drv := { w.drv with mstate := m } } :=
    ⟨by rw [hw.rest], hw.lane⟩
  have hx : State.Shows _ x := hm.trans (Shows.startTests w _)
  have hz : y.Shows z := Shows.ite (Shows.claimAddrs y) (Shows.refl y)
  exact ((hx.trans (Shows.setIsolators x)).trans hz).trans (Shows.updIn z _ fun _ _ => .record ..)

end Sys2Proof.Machine
end

section
/-! SYNC requests and FREEZE (R26, R121): the number, the step and the SYNC line of the cycle stand through all that FREEZE does. -/

namespace Sys2Proof.Machine

/-- What SYNC and FREEZE decide of the cycle, and the commands that wait. -/
def State.cycleView (s : State) : List Instr × CycStep × Nat × Bool × LaneSet :=
  (s.pending, s.cyc.step, s.cyc.num, s.cyc.syncLine, s.cyc.syncReq)

theorem State.cycleView_of {s t : State} (hp : t.pending = s.pending) (hc : t.cyc = s.cyc) : t.cycleView = s.cycleView := by
  rw [State.cycleView, hp, hc, State.cycleView]

theorem State.Reacts.cycleView {X : Lane → Prop} {s t : State} (h : s.Reacts X t) : t.cycleView = s.cycleView :=
  State.cycleView_of h.pending h.cyc

theorem State.Sends.cycleView {s t : State} (h : s.Sends t) : t.cycleView = s.cycleView := State.cycleView_of h.pending h.cyc

theorem State.enter_cycleView (s : State) (m : MState) : (s.enter m).cycleView = s.cycleView :=
  State.cycleView_of (s.enter_shows m).pending (s.enter_shows m).cyc

section Frames

variable (s : State)

@[simp] theorem State.updAll_cycleView (f : Lane → LaneSt → LaneSt) : (s.updAll f).cycleView = s.cycleView := rfl

@[simp] theorem State.upd_cycleView (l : Lane) (f : LaneSt → LaneSt) : (s.upd l f).cycleView = s.cycleView := rfl

@[simp] theorem State.setCtl_cycleView (l : Lane) (f : LaneCtl → LaneCtl) : (s.setCtl l f).cycleView = s.cycleView := rfl

@[simp] theorem State.event_cycleView (base n data : Nat) : (s.event base n data).cycleView = s.cycleView := rfl

@[simp] theorem State.laneEntry_cycleView (ls : LaneSet) (x : Lane) (m : LaneMode) (cause : Nat) (cls : FClass) (tag : Option Byte) :
    (s.laneEntry ls x m cause cls tag).cycleView = s.cycleView := rfl

@[simp] theorem State.setPermit_cycleView (x : Lane) (p : Bool) : (s.setPermit x p).cycleView = s.cycleView := by cases p <;> rfl

end Frames

/-- What every step of a fold leaves of the cycle, the fold leaves. -/
theorem foldl_cycleView {α : Type} {g : State → α → State} (h : ∀ s a, (g s a).cycleView = s.cycleView) (xs : List α) (s : State) :
    (xs.foldl g s).cycleView = s.cycleView := foldl_keeps State.cycleView g h xs s

/-! ### The boundary of the cycle (R45, R46, R480) -/

theorem State.confirmRestart_cycleView (s : State) : s.confirmRestart.cycleView = s.cycleView := by
  unfold State.confirmRestart
  split
  · exact State.enter_cycleView ..
  · rfl

theorem State.enterResync_cycleView (s : State) (x : Lane) (cause : Nat) : (s.enterResync x cause).cycleView = s.cycleView := by
  have h := (State.Reacts.abandonChange (fun _ => True) s).cycleView
  simpa only [State.enterResync, State.laneEntry_cycleView, State.setCtl_cycleView, State.upd_cycleView, State.updAll_cycleView] using h

theorem State.enterProbation_cycleView (s : State) (x : Lane) : (s.enterProbation x).cycleView = s.cycleView := by
  simp only [State.enterProbation, State.laneEntry_cycleView, State.setPermit_cycleView, State.setCtl_cycleView, State.upd_cycleView]

theorem State.laneBoundary_cycleView (s : State) (x : Lane) : (s.laneBoundary x).cycleView = s.cycleView := by
  unfold State.laneBoundary
  dsimp only
  split
  · rfl
  · split
    · split
      · exact s.enterResync_cycleView x _
      · rfl
    · split
      · exact s.enterResync_cycleView x _
      · rfl
    · split
      · exact s.enterProbation_cycleView x
      · rfl
    · rfl

theorem State.dateChannels_cycleView (s : State) (old : StationFile) : (s.dateChannels old).cycleView = s.cycleView :=
  foldl_cycleView (fun s e => by split <;> rfl) _ s

theorem State.swapBanks_cycleView (s : State) : s.swapBanks.cycleView = s.cycleView := by
  unfold State.swapBanks
  extract_lets rv till new u old _ v
  have hu : u.cycleView = s.cycleView := s.updAll_cycleView _
  clear_value u till new old
  have hv : v.cycleView = u.cycleView := rfl
  rw [State.event_cycleView, State.dateChannels_cycleView, hv, hu]

theorem State.swapDue_cycleView (s : State) : s.swapDue.cycleView = s.cycleView := by
  unfold State.swapDue
  split
  · exact s.swapBanks_cycleView
  · rfl

theorem State.passMaster_cycleView (s : State) : s.passMaster.cycleView = s.cycleView := by
  unfold State.passMaster
  split <;> rfl

theorem State.pauseDue_cycleView (s : State) : s.pauseDue.cycleView = s.cycleView := by
  unfold State.pauseDue
  split
  · split
    · exact State.passMaster_cycleView _
    · rfl
  · split <;> rfl

/-! ### Telegrams that waited -/

theorem State.formNow_cycleView (s : State) (session type : Nat) (payload : Bytes) (gen : Nat) (code : Option TgCode) :
    (s.formNow session type payload gen code).cycleView = s.cycleView := by
  unfold State.formNow
  dsimp only
  split
  · rfl
  · exact (Sends.completeTelegram ..).cycleView

theorem State.formTelegram_cycleView (s : State) (session type : Nat) (payload : Bytes) (gen : Nat) (code : Option TgCode) :
    (s.formTelegram session type payload gen code).cycleView = s.cycleView := by
  unfold State.formTelegram
  split
  · rfl
  · exact s.formNow_cycleView ..

theorem State.formWaiting_cycleView (s : State) : s.formWaiting.cycleView = s.cycleView := by
  unfold State.formWaiting
  split
  · rfl
  · exact foldl_cycleView (fun s _ => s.formTelegram_cycleView ..) _ _

/-! ### The clocks (R223) -/

theorem State.drawCrystals_cycleView (s : State) : s.drawCrystals.cycleView = s.cycleView :=
  foldl_cycleView (fun s l => s.fresh.2.upd_cycleView l _) _ s

theorem State.drawRates_cycleView (s : State) : s.drawRates.cycleView = s.cycleView := by
  rw [← s.drawCrystals_cycleView]
  unfold State.drawRates
  extract_lets u q
  split
  · rfl
  · split
    · exact foldl_cycleView (fun s l => s.fresh.2.upd_cycleView l _) _ _
    · exact u.updAll_cycleView _

theorem State.slewClocks_cycleView (s : State) : s.slewClocks.cycleView = s.cycleView := by
  unfold State.slewClocks
  extract_lets t0 follows u src cycle _ v w dev
  have hu : u.cycleView = s.cycleView := by
    unfold u
    split <;> rfl
  have hw : w.cycleView = u.cycleView := rfl
  rw [State.drawRates_cycleView]
  exact hw.trans hu

theorem State.checkClocks_cycleView (s : State) : s.checkClocks.cycleView = s.cycleView := by
  unfold State.checkClocks
  extract_lets ls two act u
  have hu : u.cycleView = s.cycleView := by
    refine foldl_cycleView (fun s l => ?_) _ s
    extract_lets v
    have hv : s.Reacts (fun _ => True) v := Reacts.ite (fun _ => .report _ trivial ..) fun _ => .refl ..
    exact (hv.trans (Reacts.ite (fun _ => .report _ trivial ..) fun _ => .refl ..)).cycleView
  clear_value u act two
  split
  · split
    · exact (Reacts.safeByAll (fun _ => True) u 0x08).cycleView.trans hu
    · exact hu
  · exact hu

theorem State.checkSkew_cycleView (s : State) (o : LaneVec FreezeObs) : (s.checkSkew o).cycleView = s.cycleView := by
  refine foldl_cycleView (fun s l => ?_) _ s
  split
  · rfl
  · extract_lets i n u
    have hu : u.cycleView = s.cycleView := s.upd_cycleView l _
    split
    · exact (Reacts.minority (X := fun _ => True) (u.eventIn l Base.vote 0x005 i.toNat) trivial 0x04).cycleView.trans hu
    · exact hu

/-! ### What FREEZE latches and ages -/

theorem State.canTimeouts_cycleView (s : State) (l : Lane) (lost : List (Nat × Nat)) : (s.canTimeouts l lost).cycleView = s.cycleView :=
  foldl_cycleView (fun s (e : Nat × Nat) => (Reacts.report (X := fun _ => True) s trivial (Blk.ofOff (Base.cb e.1)) 4 e.2).cycleView) lost s

theorem State.latchInputs_cycleView (s : State) : s.latchInputs.cycleView = s.cycleView := by
  refine (foldl_cycleView (fun s l => ?_) _ (s.updAll fun _ L => s.latchLane L) : _)
  split
  · exact s.canTimeouts_cycleView ..
  · rfl

theorem State.ageUnits_cycleView (s : State) : s.ageUnits.cycleView = s.cycleView := by
  refine foldl_cycleView (fun s c => ?_) _ s
  dsimp only
  split <;> rfl

theorem State.tallyPoll_cycleView (s : State) : s.tallyPoll.cycleView = s.cycleView := by
  unfold State.tallyPoll
  split
  · split <;> rfl
  · rfl

theorem State.lapse_cycleView (s : State) (k tExpUs : Nat) : (s.lapse k tExpUs).cycleView = s.cycleView := by
  unfold State.lapse
  extract_lets L u
  split
  · exact ((Reacts.reportAll (X := fun _ => True) u (fun _ => trivial) Base.tb 1 k).trans (.irq ..)).cycleView
  · rfl

theorem State.lapseLinks_cycleView (s : State) : s.lapseLinks.cycleView = s.cycleView := by
  unfold State.lapseLinks
  split
  · rfl
  · extract_lets u
    have hu : u.cycleView = s.cycleView := by
      unfold u
      split
      · exact foldl_cycleView (fun s _ => s.lapse_cycleView ..) _ s
      · exact s.lapse_cycleView ..
    refine (foldl_cycleView (fun s c => ?_) _ u).trans hu
    split
    · exact s.lapse_cycleView ..
    · rfl

/-! ### The field, CAN and the books at FREEZE -/

theorem State.readbackCheck_cycleView (s : State) (n : Nat) : (s.readbackCheck n).cycleView = s.cycleView := by
  unfold State.readbackCheck
  dsimp only
  split <;> split <;> rfl

theorem State.passiveCheck_cycleView (s : State) (mirror : BitVec 256) (n : Nat) : (s.passiveCheck mirror n).cycleView = s.cycleView := by
  unfold State.passiveCheck
  extract_lets rb diff c u v mid
  have hv : v.cycleView = s.cycleView := by
    unfold v
    split <;> rfl
  exact (foldl_cycleView (fun s x => by cases x <;> rfl) _ v).trans hv

theorem State.fieldFreeze_cycleView (s : State) (o : LaneVec FieldObs) (mirror : BitVec 256) :
    (s.fieldFreeze o mirror).cycleView = s.cycleView := by
  unfold State.fieldFreeze
  extract_lets u
  have hu : u.cycleView = s.cycleView := rfl
  split
  · exact (foldl_cycleView (fun s n => s.passiveCheck_cycleView mirror n) _ u).trans hu
  · split
    · exact (foldl_cycleView (fun s n => s.readbackCheck_cycleView n) _ u).trans hu
    · exact hu

theorem State.openCan_cycleView (s : State) (p : Nat) (on : Bool) : (s.openCan p on).cycleView = s.cycleView := by
  refine foldl_cycleView (fun s c => ?_) _ s
  split <;> rfl

theorem State.canFreeze_cycleView (s : State) : s.canFreeze.cycleView = s.cycleView := by
  refine foldl_cycleView (fun s p => ?_) _ s
  extract_lets q out u
  have hu : u.cycleView = s.cycleView := by
    unfold u
    split
    · split
      · rfl
      · exact State.openCan_cycleView ..
    · split
      · exact State.openCan_cycleView ..
      · rfl
  split
  · split
    · exact hu
    · exact hu
  · exact hu

theorem State.tallyTick_cycleView (s : State) : s.tallyTick.cycleView = s.cycleView := by
  unfold State.tallyTick
  dsimp only
  split <;> rfl

theorem State.readHardware_cycleView (s : State) : s.readHardware.cycleView = s.cycleView := rfl

/-! ### FREEZE -/

/-- A module that votes checks its clocks and the skew of its lanes. -/
def State.voteClocks (s : State) (o : LaneVec FreezeObs) : State := if s.mstate.voting then s.checkClocks.checkSkew o else s

theorem State.voteClocks_cycleView (s : State) (o : LaneVec FreezeObs) : (s.voteClocks o).cycleView = s.cycleView := by
  unfold State.voteClocks
  split
  · rw [State.checkSkew_cycleView, State.checkClocks_cycleView]
  · rfl

/-- What FREEZE does once the cycle has begun and the lanes have passed its boundary. -/
def State.afterBoundary (s : State) (o : LaneVec FreezeObs) : State :=
  let s := s.swapDue.pauseDue.formWaiting.slewClocks
  let s := (s.voteClocks o).countInjection.latchInputs.ageUnits.tallyPoll.lapseLinks
  (s.fieldFreeze (o.map fun _ x => x.field) s.mirrored).canFreeze.tallyTick.readHardware.checkLast

theorem State.countInjection_cycleView (s : State) : s.countInjection.cycleView = s.cycleView := rfl

theorem State.afterBoundary_cycleView (s : State) (o : LaneVec FreezeObs) : (s.afterBoundary o).cycleView = s.cycleView := by
  unfold State.afterBoundary
  extract_lets u v
  have hv : v.cycleView = s.cycleView := by
    rw [State.lapseLinks_cycleView, State.tallyPoll_cycleView, State.ageUnits_cycleView, State.latchInputs_cycleView,
      State.countInjection_cycleView, State.voteClocks_cycleView, State.slewClocks_cycleView, State.formWaiting_cycleView,
      State.pauseDue_cycleView, State.swapDue_cycleView]
  rw [(Reacts.checkLast (fun _ => True) _).cycleView, State.readHardware_cycleView, State.tallyTick_cycleView,
    State.canFreeze_cycleView, State.fieldFreeze_cycleView, hv]

/-- The lanes pass the boundary of the cycle. -/
def State.passBoundary (s : State) : State := Lane.list.foldl (fun s x => s.laneBoundary x) s

theorem State.passBoundary_cycleView (s : State) : s.passBoundary.cycleView = s.cycleView :=
  foldl_cycleView State.laneBoundary_cycleView _ s

theorem execFreeze_of_agrees (s : State) (o : LaneVec FreezeObs) (h : s.mstate.agrees = true) :
    exec (.freeze o) s = .next ((s.freezeTime o).beginCycle.confirmRestart.passBoundary.afterBoundary o) := by
  refine if_neg ?_
  rw [h]
  decide

/-- Settles O20. -/
theorem syncAndFreeze : Obligations.SyncAndFreeze := by
  intro s ha
  have hn : (!s.mstate.agrees) = false := by rw [ha]; rfl
  refine ⟨fun l he hh => if_neg ?_, fun l hm => if_pos (.inr hm), fun o => ⟨_, execFreeze_of_agrees s o ha, ?_⟩⟩
  · rintro (h | h | h)
    · rw [hn] at h
      cases h
    · exact he h
    · exact hh h
  · have h : ((s.freezeTime o).beginCycle.confirmRestart.passBoundary.afterBoundary o).cycleView = (s.freezeTime o).beginCycle.cycleView := by
      rw [State.afterBoundary_cycleView, State.passBoundary_cycleView, State.confirmRestart_cycleView]
    generalize (s.freezeTime o).beginCycle.confirmRestart.passBoundary.afterBoundary o = t at h ⊢
    simp only [State.cycleView, Prod.mk.injEq] at h
    obtain ⟨hp, hs, hnum, hl, hq⟩ := h
    exact ⟨hs, hnum, hl, hq, hp⟩

end Sys2Proof.Machine
end

section
/-! The crossover to the peer (R391 to R401): what the changes of role, claims and what is held leave of the module. -/

namespace Sys2Proof.Machine

/-! ### What waits for a confirmation -/

namespace State.Sends

theorem noteHold (s : State) (at_ : Nat) : s.Sends (s.noteHold at_) := updAll s fun _ L => .setReg L _ (by decide)

theorem noteHeld (s : State) : s.Sends s.noteHeld := updAll s fun _ L => .setReg L _ (by decide)

theorem releaseItem (s : State) (i : HeldItem) : s.Sends (s.releaseItem i) := by
  cases i with
  | telegram gen at_ n type seq flags payload code => exact (noteHold s at_).trans (completeTelegram ..)
  | done gen at_ ring => exact (noteHold s at_).trans (setMfld ..)

end State.Sends

/-- A module whose standby is lost sends all that it holds (R147). -/
theorem State.flushHeld_sends (s : State) : ({ s with held := [] } : State).Sends s.flushHeld := by
  unfold State.flushHeld
  split
  · next h => exact ⟨by rw [← List.isEmpty_iff.1 h], fun _ => .refl _⟩
  · dsimp only
    exact (((Sends.foldl Sends.releaseItem s.held _).trans (Sends.noteHeld _)).trans (Sends.updAll _ fun _ L => .addFld L _ _ _ (by decide))).trans (Sends.event ..)

theorem State.flushHeld_held (s : State) : s.flushHeld.held = [] := by rw [s.flushHeld_sends.rest]

/-! ### Changes of role -/

/-- What moves the crossover changes it, what is sent and the lanes' state, nothing else. -/
structure State.XoMoves (s t : State) : Prop where
  rest : t = { s with lane := t.lane, xo := t.xo, txq := t.txq }

namespace State.XoMoves

variable {s t u : State}

theorem refl (s : State) : s.XoMoves s := ⟨rfl⟩

theorem trans (h : s.XoMoves t) (k : t.XoMoves u) : s.XoMoves u := ⟨by rw [k.rest, h.rest]⟩

theorem ite {c : Prop} [Decidable c] {a b : State} (ha : s.XoMoves a) (hb : s.XoMoves b) : s.XoMoves (if c then a else b) := by
  split
  · exact ha
  · exact hb

theorem setXo (s : State) (f : XoSt → XoSt) : s.XoMoves (s.setXo f) := ⟨rfl⟩

theorem count (s : State) (off lo w n : Nat) : s.XoMoves (s.count off lo w n) := ⟨rfl⟩

theorem steady (h : s.XoMoves t) : s.Steady t := by
  rw [h.rest]
  exact ⟨rfl, rfl, rfl⟩

theorem mstate (h : s.XoMoves t) : t.mstate = s.mstate := by rw [h.rest]

theorem held (h : s.XoMoves t) : t.held = s.held := by rw [h.rest]

theorem chg (h : s.XoMoves t) : t.chg = s.chg := by rw [h.rest]

theorem setRole (s : State) (r : PairRole) : s.XoMoves (s.setRole r) := ite (refl s) ⟨rfl⟩

theorem startClaim (s : State) (loss : Bool) : s.XoMoves (s.startClaim loss) := (setRole s _).trans (setXo ..)

theorem withdraw (s : State) : s.XoMoves s.withdraw := (setRole s _).trans (setXo ..)

theorem startCatchup (s : State) : s.XoMoves s.startCatchup := ite (refl s) ((setXo ..).trans (count ..))

theorem declareLoss (s : State) : s.XoMoves s.declareLoss := by
  refine ite (refl s) ?_
  extract_lets u
  have hu : s.XoMoves u := setXo ..
  exact hu.trans (ite (setXo ..) (ite (refl u) (ite (setXo ..) (startClaim ..))))

theorem startHandover (s : State) : s.XoMoves s.startHandover := ⟨rfl⟩

theorem barHandover (s : State) (r : Nat) : s.XoMoves (s.barHandover r) := ⟨rfl⟩

theorem autoHandover (s : State) : s.XoMoves s.autoHandover := by
  refine ite (refl s) ?_
  split
  · exact startHandover s
  · exact barHandover s _

theorem degHandover (s : State) : s.XoMoves s.degHandover := ite (autoHandover s) (refl s)

end State.XoMoves

theorem State.setRole_xo (s : State) (r : PairRole) : (s.setRole r).xo = { s.xo with role := r } := by
  unfold State.setRole
  split
  · next h => rw [← h]
  · rfl

theorem State.startClaim_xo (s : State) (loss : Bool) : (s.startClaim loss).xo = { s.xo with
    role := .claiming, claimAt := some s.now, extended := false, lossClaim := loss, synced0 := decide (s.xo.sync = .synced) } := by
  change ({ (s.setRole .claiming).xo with
    claimAt := some s.now, extended := false, lossClaim := loss
    synced0 := decide ((s.setRole .claiming).xo.sync = .synced) } : XoSt) = _
  rw [s.setRole_xo]

theorem State.withdraw_xo (s : State) : s.withdraw.xo = { s.xo with
    role := if s.mstate = .standby then .standby else .none, claimAt := none, extended := false, lossClaim := false, hoTaken := false } := by
  change ({ (s.setRole _).xo with claimAt := none, extended := false, lossClaim := false, hoTaken := false } : XoSt) = _
  rw [s.setRole_xo]

theorem State.startCatchup_sync (s : State) : s.startCatchup.xo.sync = .catchup := by
  unfold State.startCatchup
  split
  · next h => exact h
  · rfl

theorem State.ceaseSync_sync (s : State) : s.ceaseSync.xo.sync ≠ .synced := by
  unfold State.ceaseSync
  split
  · rw [s.startCatchup_sync]
    decide
  · next h => exact h

/-- A handover that starts by itself tells the peer; what the module knows of the peer stands. -/
theorem State.autoHandover_peer (s : State) : s.autoHandover.xo.role = s.xo.role ∧ s.autoHandover.xo.hb = s.xo.hb
    ∧ s.autoHandover.xo.peer = s.xo.peer ∧ s.autoHandover.xo.peerLive = s.xo.peerLive ∧ s.autoHandover.xo.peerTok = s.xo.peerTok := by
  unfold State.autoHandover
  split
  · exact ⟨rfl, rfl, rfl, rfl, rfl⟩
  · split <;> exact ⟨rfl, rfl, rfl, rfl, rfl⟩

theorem State.degHandover_peer (s : State) : s.degHandover.xo.role = s.xo.role ∧ s.degHandover.xo.hb = s.xo.hb
    ∧ s.degHandover.xo.peer = s.xo.peer ∧ s.degHandover.xo.peerLive = s.xo.peerLive ∧ s.degHandover.xo.peerTok = s.xo.peerTok := by
  unfold State.degHandover
  split
  · exact s.autoHandover_peer
  · exact ⟨rfl, rfl, rfl, rfl, rfl⟩

/-- A role settles in SYNC alone. -/
theorem State.settleRole_of_started {s : State} (h : s.mstate ≠ .sync) : s.settleRole = s := if_pos (.inl h)

/-- In SYNC a role that settles with the peer's duty token at rest is a claim at most. -/
theorem State.settleRole_peerTok {s : State} (h : s.xo.peerTok = false) : s.settleRole.xo.peerTok = false := by
  unfold State.settleRole
  split
  · exact h
  · rw [h, if_neg Bool.false_ne_true]
    split
    · split
      · split
        · rw [s.startClaim_xo]
          exact h
        · exact h
      · exact h
    · exact h

/-! ### Reactions and the crossover -/

namespace State.Reacts

variable {X : Lane → Prop} {s t : State}

theorem hb (h : s.Reacts X t) : t.xo.hb = s.xo.hb := by
  have e := congrArg (fun u : State => u.xo.hb) h.unmoved
  exact e

theorem peer (h : s.Reacts X t) : t.xo.peer = s.xo.peer := by
  have e := congrArg (fun u : State => u.xo.peer) h.unmoved
  exact e

theorem peerLive (h : s.Reacts X t) : t.xo.peerLive = s.xo.peerLive := by
  have e := congrArg (fun u : State => u.xo.peerLive) h.unmoved
  exact e

theorem linkUp (h : s.Reacts X t) : t.xo.linkUp = s.xo.linkUp := by
  have e := congrArg (fun u : State => u.xo.linkUp) h.unmoved
  exact e

theorem xoAlarm (s : State) (bit : Nat) : s.Reacts (fun _ => True) (s.xoAlarm bit) := reportAll s (fun _ => trivial) _ _ _

end State.Reacts

/-- The limit of 2-out-of-2 operation holds nothing back that was not held. -/
theorem State.degExpire_held {s : State} (h : s.held = []) : s.degExpire.held = [] := by
  have hsafe (c : Nat) : (s.safeByAll c).held = [] := by
    unfold State.safeByAll
    split
    · by_cases hg : s.gate = true
      · rw [State.enterSafe, if_pos hg]
        exact h
      · exact (s.enterSafe_stopped _ _ _ _ (Bool.eq_false_iff.2 hg)).2.2.2.2.1
    · exact h
  unfold State.degExpire
  split
  · exact hsafe _
  · split
    · exact h
    · exact (XoMoves.autoHandover s).held.trans h
    · exact h
    · split
      · exact h
      · exact hsafe _

/-- An alarm of the crossover sets its `BLK_ERR` bit in every lane that takes part: nothing keeps it from rising. -/
theorem State.notRaised_xo (s : State) (l : Lane) (bit data : Nat) : s.notRaised l (Blk.ofOff Base.xo) bit data = false := by
  have hpage : pageOf (Blk.base (Blk.ofOff Base.xo)) = some (.xo, 0) := by decide +kernel
  unfold State.notRaised
  rw [hpage]

theorem State.xoAlarm_errSet (s : State) {bit : Nat} (hb : bit < 32) {l : Lane} (hp : s.parts.get l = true) :
    (s.xoAlarm bit).ErrSet l (Blk.ofOff Base.xo) bit :=
  s.reportAll_errSet Base.xo 0 hb (fun s l => s.notRaised_xo l bit 0) l hp

theorem State.ceaseSync_errSet {s : State} {l : Lane} {k : Blk} {bit : Nat} (h : s.ErrSet l k bit) : s.ceaseSync.ErrSet l k bit := by
  unfold State.ceaseSync State.startCatchup
  split
  · split
    · exact h
    · exact (Reacts.count (fun _ => True) _ 24 8 1 (by decide)).errSet h
  · exact h

end Sys2Proof.Machine
end

section
/-! The claim window won (R401 to R404, R410): a NOTE that a claim tells, the role taken, and what the new holder starts from. -/

namespace Sys2Proof.Machine

/-! ### A report of class NOTE (R430) -/

/-- A report of class NOTE changes the lanes' state, their books among it, and an injection that it meets. -/
structure State.Notes (s t : State) : Prop where
  rest : t = { s with lane := t.lane, inj := t.inj }

namespace State.Notes

variable {s t u : State}

theorem refl (s : State) : s.Notes s := ⟨rfl⟩

theorem trans (h : s.Notes t) (k : t.Notes u) : s.Notes u := ⟨by rw [k.rest, h.rest]⟩

theorem raise (s : State) (l : Lane) (r : Report) : s.Notes (s.raise l r) := ⟨rfl⟩

theorem classOf (h : s.Notes t) (k : Blk) (bit : Nat) : t.classOf k bit = s.classOf k bit := by
  rw [h.rest]
  rfl

theorem takeIn (s : State) (l : Lane) (r : Report) : s.Notes (s.takeIn l r).1 := by
  unfold State.takeIn
  split
  · exact ⟨rfl⟩
  · extract_lets coin tag u c cls flags
    have hu : s.Notes u := by
      unfold u
      split
      · exact ⟨rfl⟩
      · exact refl s
    exact hu.trans ⟨rfl⟩

end State.Notes

theorem State.takeIn_note {s : State} (l : Lane) {r : Report} (hr : r.rail = none) (h : s.classOf r.blk r.bit = .note) :
    ∀ c ∈ (s.takeIn l r).2, c = .note := by
  unfold State.takeIn
  split
  · exact fun c hc => by cases hc
  · extract_lets coin tag u c cls flags
    intro d hd
    have hcls : cls = c := by
      unfold cls
      rw [hr]
    have hc : c = s.classOf r.blk r.bit := by
      unfold c u
      split <;> rfl
    rw [Option.mem_some_iff] at hd
    rw [← hd, hcls, hc, h]

theorem State.react_note (s : State) (l : Lane) (r : Report) (rs : List Report) (tag : Option Byte) : s.react l .note r rs tag = s :=
  ite_self s

theorem State.reactTo_note {s : State} (l : Lane) {rs : List (Report × FClass)} (h : ∀ e ∈ rs, e.2 = .note) : s.reactTo l rs = s := by
  have htop : topClass rs = .note := by
    unfold topClass
    suffices hf : ∀ c : FClass, c = .note → rs.foldl (fun c e => FClass.max c e.2) c = .note from hf .note rfl
    induction rs with
    | nil => exact fun c hc => hc
    | cons e es ih =>
      intro c hc
      refine ih (fun x hx => h x (List.mem_cons_of_mem _ hx)) _ ?_
      have he := h e List.mem_cons_self
      dsimp only
      rw [hc, he]
      rfl
  unfold State.reactTo
  rw [htop]
  split
  · rfl
  · exact s.react_note ..

theorem State.Notes.takeEach (s : State) (l : Lane) (rs : List Report) : s.Notes (s.takeEach l rs).1 := by
  induction rs generalizing s with
  | nil => exact .refl s
  | cons r rs ih =>
    unfold State.takeEach
    exact (Notes.takeIn s l r).trans (ih _)

theorem State.takeEach_note {s : State} (l : Lane) {rs : List Report} (h : ∀ r ∈ rs, r.rail = none ∧ s.classOf r.blk r.bit = .note) :
    ∀ e ∈ (s.takeEach l rs).2, e.2 = .note := by
  induction rs generalizing s with
  | nil => exact fun e he => by cases he
  | cons r rs ih =>
    intro e he
    obtain ⟨hrail, hcls⟩ := h r List.mem_cons_self
    unfold State.takeEach at he
    dsimp only at he
    rcases List.mem_append.1 he with he | he
    · obtain ⟨c, hc, rfl⟩ := List.mem_map.1 he
      exact State.takeIn_note l hrail hcls c (Option.mem_toList.1 hc)
    · refine ih (fun q hq => ?_) e he
      obtain ⟨hq1, hq2⟩ := h q (List.mem_cons_of_mem _ hq)
      exact ⟨hq1, ((Notes.takeIn s l r).classOf ..).trans hq2⟩

theorem State.Notes.raiseAll (s : State) (l : Lane) (rs : List Report) : s.Notes (rs.foldl (fun s r => s.raise l r) s) := by
  induction rs generalizing s with
  | nil => exact .refl s
  | cons r rs ih => exact (Notes.raise s l r).trans (ih _)

theorem State.Notes.takeThem {s : State} (l : Lane) (up : List Report) {go : List Report}
    (h : ∀ r ∈ go, r.rail = none ∧ s.classOf r.blk r.bit = .note) :
    s.Notes (((up.foldl (fun s r => s.raise l r) s).takeEach l go).1.reactTo l ((up.foldl (fun s r => s.raise l r) s).takeEach l go).2) := by
  have hu := Notes.raiseAll s l up
  have hgo : ∀ r ∈ go, r.rail = none ∧ (up.foldl (fun s r => s.raise l r) s).classOf r.blk r.bit = .note := fun r hr =>
    ⟨(h r hr).1, (hu.classOf ..).trans (h r hr).2⟩
  rw [State.reactTo_note l (State.takeEach_note l hgo)]
  exact hu.trans (Notes.takeEach _ l go)

/-- A report of class NOTE leads to no reaction. -/
theorem State.Notes.report {s : State} (l : Lane) {k : Blk} {bit : Nat} (data : Nat) (h : s.classOf k bit = .note) :
    s.Notes (s.report l k bit data) := by
  refine Notes.takeThem l _ fun r hr => ?_
  have hm : r ∈ inOrder [{ blk := k, bit, data }] := (List.mem_filter.1 (List.mem_filter.1 hr).1).1
  obtain rfl := List.mem_singleton.1 hm
  exact ⟨rfl, h⟩

theorem State.Notes.xoAlarm {s : State} {bit : Nat} (h : s.classOf (Blk.ofOff Base.xo) bit = .note) : s.Notes (s.xoAlarm bit) := by
  unfold State.xoAlarm State.reportAll
  generalize Lane.list = ls
  induction ls generalizing s with
  | nil => exact .refl s
  | cons l ls ih =>
    have hl : s.Notes (if s.parts.get l then s.report l (Blk.ofOff Base.xo) bit 0 else s) := by
      split
      · exact Notes.report l 0 h
      · exact .refl s
    exact hl.trans (ih ((hl.classOf ..).trans h))

/-! ### What the new holder starts from (R402) -/

/-- Two states with the same drive, lanes' states, numbers and crossover. -/
structure State.SameDuty (s t : State) : Prop where
  drv   : t.drv = s.drv
  ctl   : t.ctl = s.ctl
  role  : t.role = s.role
  gen   : t.gen = s.gen
  areas : t.areas = s.areas
  runId : t.runId = s.runId
  xo    : t.xo = s.xo

namespace State.SameDuty

variable {s t u : State}

theorem refl (s : State) : s.SameDuty s := ⟨rfl, rfl, rfl, rfl, rfl, rfl, rfl⟩

theorem trans (h : s.SameDuty t) (k : t.SameDuty u) : s.SameDuty u :=
  ⟨k.drv.trans h.drv, k.ctl.trans h.ctl, k.role.trans h.role, k.gen.trans h.gen, k.areas.trans h.areas, k.runId.trans h.runId,
    k.xo.trans h.xo⟩

theorem ite {c : Prop} [Decidable c] {a b : State} (ha : s.SameDuty a) (hb : s.SameDuty b) : s.SameDuty (if c then a else b) := by
  split
  · exact ha
  · exact hb

theorem foldl {α : Type} {g : State → α → State} (h : ∀ (s : State) (a : α), s.SameDuty (g s a)) :
    ∀ (xs : List α) (s : State), s.SameDuty (xs.foldl g s)
  | [], s => refl s
  | x :: xs, s => (h s x).trans (foldl h xs (g s x))

theorem updIn (s : State) (ls : LaneSet) (f : Lane → LaneSt → LaneSt) : s.SameDuty (s.updIn ls f) := ⟨rfl, rfl, rfl, rfl, rfl, rfl, rfl⟩

theorem updAll (s : State) (f : Lane → LaneSt → LaneSt) : s.SameDuty (s.updAll f) := updIn s _ f

theorem count (s : State) (off lo w n : Nat) : s.SameDuty (s.count off lo w n) := updIn ..

theorem setUnit (s : State) (u : Nat) (f : UnitAdm → UnitAdm) : s.SameDuty (s.setUnit u f) := ⟨rfl, rfl, rfl, rfl, rfl, rfl, rfl⟩

theorem startTimeout (s : State) : s.SameDuty s.startTimeout := by
  unfold State.startTimeout
  split
  · exact ⟨rfl, rfl, rfl, rfl, rfl, rfl, rfl⟩
  · exact refl s

theorem closeReports (s : State) : s.SameDuty s.closeReports := foldl (fun s (_ : SessCfg) => ite (updAll s _) (refl s)) _ s

theorem abandonChange (s : State) : s.SameDuty s.abandonChange := by
  obtain ⟨lane, chg, h⟩ := s.abandonChange_frame
  rw [h]
  exact ⟨rfl, rfl, rfl, rfl, rfl, rfl, rfl⟩

theorem of_shows (h : s.Shows t) : s.SameDuty t := by
  rw [h.rest]
  exact ⟨rfl, rfl, rfl, rfl, rfl, rfl, rfl⟩

theorem setMaster (s : State) (id : Nat) : s.SameDuty (s.setMaster id) := updAll ..

end State.SameDuty

/-- The module takes the role of the holder, with what the role starts from. -/
def State.holdRole (s : State) : State :=
  (s.startTimeout.setRole .holder).setXo fun x =>
    { x with claimAt := none, extended := false, lossClaim := false, hoTaken := false, hoCycle := none, hoPaused := false,
             hoConf := false, sync := .none, holdSince := none, dutySince := s.now, sentPages := [], armSeen := false }

theorem State.takeRole_stages (s : State) (m : MState) : ∃ u, s.holdRole.SameDuty u ∧ s.takeRole m = (u.enter m).closeReports := by
  unfold State.takeRole
  extract_lets v w x y z _ u
  have hv : s.holdRole.SameDuty v := .refl _
  have hw : v.SameDuty w := .updAll v _
  have hx : w.SameDuty x := .foldl (fun s (c : UnitCfg) => .setUnit s c.unit _) _ w
  have hy : x.SameDuty y := .ite (.abandonChange x) (.refl x)
  have hz : y.SameDuty z := .updAll y _
  refine ⟨u, hv.trans (hw.trans (hx.trans (hy.trans (hz.trans ?_)))), rfl⟩
  clear_value z y
  exact ⟨rfl, rfl, rfl, rfl, rfl, rfl, rfl⟩

/-- What the taking of the role leaves as it was, and the state and the role it takes. -/
structure State.Takes (m : MState) (s t : State) : Prop where
  drv      : t.drv = { s.drv with mstate := m }
  ctl      : t.ctl = s.ctl
  kind     : t.role = s.role
  gen      : t.gen = s.gen
  areas    : t.areas = s.areas
  runId    : t.runId = s.runId
  role     : t.xo.role = .holder
  claimAt  : t.xo.claimAt = none
  hoTaken  : t.xo.hoTaken = false
  takeover : t.xo.takeover = s.xo.takeover

/-- A change that follows the taking of the role. -/
theorem State.Takes.andThen {m : MState} {s t u : State} (h : s.Takes m t) (k : t.SameDuty u) : s.Takes m u where
  drv := k.drv.trans h.drv
  ctl := k.ctl.trans h.ctl
  kind := k.role.trans h.kind
  gen := k.gen.trans h.gen
  areas := k.areas.trans h.areas
  runId := k.runId.trans h.runId
  role := k.xo ▸ h.role
  claimAt := k.xo ▸ h.claimAt
  hoTaken := k.xo ▸ h.hoTaken
  takeover := k.xo ▸ h.takeover

theorem State.holdRole_rest (s : State) : s.holdRole.drv = s.drv ∧ s.holdRole.ctl = s.ctl ∧ s.holdRole.role = s.role
    ∧ s.holdRole.gen = s.gen ∧ s.holdRole.areas = s.areas ∧ s.holdRole.runId = s.runId := by
  have h := (XoMoves.setRole s.startTimeout .holder).trans (.setXo _ fun x =>
    { x with claimAt := none, extended := false, lossClaim := false, hoTaken := false, hoCycle := none, hoPaused := false,
             hoConf := false, sync := .none, holdSince := none, dutySince := s.now, sentPages := [], armSeen := false })
  have ht := SameDuty.startTimeout s
  change s.startTimeout.XoMoves s.holdRole at h
  rw [h.rest]
  exact ⟨ht.drv, ht.ctl, ht.role, ht.gen, ht.areas, ht.runId⟩

theorem State.holdRole_xo (s : State) : s.holdRole.xo.role = .holder ∧ s.holdRole.xo.claimAt = none ∧ s.holdRole.xo.hoTaken = false
    ∧ s.holdRole.xo.takeover = s.xo.takeover := by
  have hx : (s.startTimeout.setRole .holder).xo = { s.xo with role := .holder } := by
    rw [State.setRole_xo, (SameDuty.startTimeout s).xo]
  refine ⟨?_, rfl, rfl, ?_⟩
  · exact (congrArg XoSt.role hx :)
  · exact (congrArg XoSt.takeover hx :)

theorem State.takeRole_takes (s : State) (m : MState) : s.Takes m (s.takeRole m) := by
  obtain ⟨u, hu, h⟩ := s.takeRole_stages m
  obtain ⟨hd, hc, hr, hg, ha, hi⟩ := s.holdRole_rest
  obtain ⟨hrole, hclaim, hho, hto⟩ := s.holdRole_xo
  have he := SameDuty.of_shows (u.enter_shows m)
  have ht : s.Takes m (u.enter m) :=
    { drv := by rw [he.drv, hu.drv, hd]
      ctl := he.ctl.trans (hu.ctl.trans hc)
      kind := he.role.trans (hu.role.trans hr)
      gen := he.gen.trans (hu.gen.trans hg)
      areas := he.areas.trans (hu.areas.trans ha)
      runId := he.runId.trans (hu.runId.trans hi)
      role := by rw [he.xo, hu.xo, hrole]
      claimAt := by rw [he.xo, hu.xo, hclaim]
      hoTaken := by rw [he.xo, hu.xo, hho]
      takeover := by rw [he.xo, hu.xo, hto] }
  rw [h]
  exact ht.andThen (.closeReports _)

/-! ### The role taken after a loss (R402) -/

theorem State.latchUnits_frame (cs : List UnitCfg) (s : State) :
    ∃ adm, cs.foldl (fun s c => s.setUnit c.unit fun a => { a with latch := ~~~(s.mirroredUnit c.unit) }) s = { s with adm := adm } := by
  induction cs generalizing s with
  | nil => exact ⟨s.adm, rfl⟩
  | cons c cs ih =>
    obtain ⟨adm, h⟩ := ih (s.setUnit c.unit fun a => { a with latch := ~~~(s.mirroredUnit c.unit) })
    exact ⟨adm, h⟩

theorem State.setLatch_frame (s : State) : ∃ adm latch, s.setLatch = { s with adm := adm, xo := { s.xo with latch := latch } } := by
  unfold State.setLatch
  extract_lets off u
  obtain ⟨adm, h⟩ := State.latchUnits_frame u.file.units u
  exact ⟨adm, off, h⟩

/-- What follows the taking of the role on the link of the railway. -/
theorem State.SameDuty.setLink (s : State) (link : LinkSt) : s.SameDuty { s with link := link } := ⟨rfl, rfl, rfl, rfl, rfl, rfl, rfl⟩

/-- A synchronised standby takes the role after a loss in the state that it has copied. -/
theorem State.enterLoss_takes (s : State) : s.enterLoss.xo.role = .holder ∧ s.enterLoss.xo.claimAt = none
    ∧ s.enterLoss.xo.takeover = true ∧ s.enterLoss.mstate = s.copiedState ∧ s.enterLoss.ctl = s.ctl ∧ s.enterLoss.gate = s.gate := by
  unfold State.enterLoss
  extract_lets u v w x
  obtain ⟨adm, latch, hl⟩ := s.setLatch_frame
  have hcopied : u.copiedState = s.copiedState := by
    unfold u
    rw [hl]
    rfl
  have hu : u.drv = s.drv ∧ u.ctl = s.ctl := by
    unfold u
    rw [hl]
    exact ⟨rfl, rfl⟩
  have hv : u.Takes u.copiedState v := (u.takeRole_takes _).andThen (.count _ Reg.XO_EVENTS 0 8 1)
  have hx : w.SameDuty x := .updAll w _
  clear_value x v
  have key : ∀ t, x.SameDuty t → t.xo.role = .holder ∧ t.xo.claimAt = none ∧ t.xo.takeover = true ∧ t.mstate = s.copiedState
      ∧ t.ctl = s.ctl ∧ t.gate = s.gate := by
    intro t hxt
    have h := hx.trans hxt
    have hd : w.drv = { s.drv with mstate := s.copiedState } := by
      rw [← hu.1, ← hcopied, ← hv.drv]
      rfl
    have hx : w.xo = { v.xo with takeover := true } := rfl
    rw [h.xo, hx]
    refine ⟨hv.role, hv.claimAt, rfl, ?_, h.ctl.trans (hv.ctl.trans hu.2), ?_⟩
    · rw [State.mstate, h.drv, hd]
    · rw [State.gate, h.drv, hd]
  split
  · split
    · exact key _ ((SameDuty.setLink ..).trans (.setMaster ..))
    · exact key _ (.refl x)
  · split
    · exact key _ (.setLink ..)
    · exact key _ (.refl x)

/-! ### The role taken in a planned handover (R410) -/

theorem State.enterPlanned_takes (s : State) : s.enterPlanned.xo.role = .holder ∧ s.enterPlanned.xo.hoTaken = false
    ∧ s.enterPlanned.xo.takeover = s.xo.takeover ∧ s.enterPlanned.mstate = s.copiedState ∧ s.enterPlanned.ctl = s.ctl := by
  unfold State.enterPlanned
  extract_lets v w
  have hv : s.Takes s.copiedState v := (s.takeRole_takes _).andThen (.count _ Reg.XO_EVENTS 8 8 1)
  clear_value v
  have key : ∀ t, w.SameDuty t → t.xo.role = .holder ∧ t.xo.hoTaken = false ∧ t.xo.takeover = s.xo.takeover ∧ t.mstate = s.copiedState
      ∧ t.ctl = s.ctl := by
    intro t h
    have hx : w.xo = { v.xo with hoPaused := true, evalFrom := v.now + 20000 } := rfl
    have hd : w.drv = { s.drv with mstate := s.copiedState } := by
      rw [← hv.drv]
      rfl
    rw [h.xo, hx, State.mstate, h.drv, hd]
    exact ⟨hv.role, hv.hoTaken, hv.takeover, rfl, h.ctl.trans hv.ctl⟩
  split
  · exact key _ (.setLink ..)
  · exact key _ (.refl w)

/-! ### The role taken without a synchronised copy (R404) -/

/-- What opens sessions changes the lanes' state, what waits to be formed, held or sent, and the numbers drawn; a lane keeps what it
keeps. -/
structure State.Forms (s t : State) : Prop where
  rest : t = { s with
    lane := t.lane, txq := t.txq, mregs := t.mregs, freeCtr := t.freeCtr, held := t.held, formed := t.formed, formWait := t.formWait }
  lane : ∀ l, (s.lane.get l).Keeps (t.lane.get l)

namespace State.Forms

variable {s t u : State}

theorem refl (s : State) : s.Forms s := ⟨rfl, fun _ => .refl _⟩

theorem trans (h : s.Forms t) (k : t.Forms u) : s.Forms u := ⟨by rw [k.rest, h.rest], fun l => (h.lane l).trans (k.lane l)⟩

theorem ite {c : Prop} [Decidable c] {a b : State} (ha : s.Forms a) (hb : s.Forms b) : s.Forms (if c then a else b) := by
  split
  · exact ha
  · exact hb

theorem foldl {α : Type} {g : State → α → State} (h : ∀ (s : State) (a : α), s.Forms (g s a)) :
    ∀ (xs : List α) (s : State), s.Forms (xs.foldl g s)
  | [], s => refl s
  | x :: xs, s => (h s x).trans (foldl h xs (g s x))

theorem of_sends (h : s.Sends t) : s.Forms t := ⟨by rw [h.rest], h.lane⟩

theorem setSession (s : State) (n : Nat) (f : LaneSt → SessSt → SessSt) : s.Forms (s.updAll fun _ L => L.setSession n (f L)) :=
  ⟨rfl, s.updIn_keeps _ fun _ _ => .of_regs rfl rfl rfl rfl rfl id⟩

theorem formNow (s : State) (session type : Nat) (payload : Bytes) (gen : Nat) (code : Option TgCode) :
    s.Forms (s.formNow session type payload gen code) := by
  unfold State.formNow
  extract_lets seq u v fl
  have hu : s.Forms u := setSession s session _
  have hv : u.Forms v := ⟨rfl, fun _ => .refl _⟩
  refine hu.trans (hv.trans (ite ⟨rfl, fun _ => .refl _⟩ (of_sends (.completeTelegram ..))))

theorem formTelegram (s : State) (session type : Nat) (payload : Bytes) (gen : Nat) (code : Option TgCode) :
    s.Forms (s.formTelegram session type payload gen code) := ite ⟨rfl, fun _ => .refl _⟩ (formNow ..)

theorem sendHello (s : State) (c : SessCfg) (renew : Bool) (nonce : BitVec 256) : s.Forms (s.sendHello c renew nonce) := by
  refine ite (refl s) ?_
  extract_lets p u
  have hu : s.Forms u := setSession s c.num _
  exact hu.trans (formTelegram ..)

theorem openSession (s : State) (c : SessCfg) (nonce : BitVec 256) : s.Forms (s.openSession c nonce) := by
  unfold State.openSession
  extract_lets u
  have hu : s.Forms u := setSession s c.num _
  exact hu.trans (ite (sendHello ..) (refl u))

theorem openSessions (s : State) : s.Forms s.openSessions := by
  refine foldl (fun s (c : SessCfg) => ite ?_ (setSession s c.num _)) _ s
  have h : s.Forms s.freshNonce.2 := ⟨rfl, fun _ => .refl _⟩
  exact h.trans (openSession ..)

end State.Forms

namespace State.SameDuty

theorem openSessions (s : State) : s.SameDuty s.openSessions := by
  rw [(Forms.openSessions s).rest]
  exact ⟨rfl, rfl, rfl, rfl, rfl, rfl, rfl⟩

theorem forgetInputs (s : State) : s.SameDuty s.forgetInputs := ⟨rfl, rfl, rfl, rfl, rfl, rfl, rfl⟩

theorem forgetCan (s : State) : s.SameDuty s.forgetCan := updAll ..

end State.SameDuty

/-- A holder without a copy begins afresh: no area, no generation, a run identity of its own. -/
theorem State.startAfresh_numbers (s : State) : s.startAfresh.gen = 0 ∧ s.startAfresh.areas = 0 ∧ s.startAfresh.runId ≠ 0
    ∧ s.startAfresh.role = s.role := by
  refine ⟨rfl, rfl, ?_, rfl⟩
  change (if s.fresh.1 = 0 then (1 : Word) else s.fresh.1) ≠ 0
  split
  · decide
  · assumption

/-- What an unsynchronised standby does that takes the role, once it has told it. -/
def State.beginAfresh (s : State) : State :=
  ((s.startAfresh.forgetCan.takeRole .restartLocked).openSessions).forgetInputs

theorem State.beginAfresh_takes (s : State) : s.startAfresh.forgetCan.Takes .restartLocked s.beginAfresh :=
  (s.startAfresh.forgetCan.takeRole_takes .restartLocked).andThen ((SameDuty.openSessions _).trans (.forgetInputs _))

theorem State.beginAfresh_facts (s : State) : s.beginAfresh.xo.role = .holder ∧ s.beginAfresh.xo.claimAt = none
    ∧ s.beginAfresh.mstate = .restartLocked ∧ s.beginAfresh.gen = 0 ∧ s.beginAfresh.areas = 0 ∧ s.beginAfresh.runId ≠ 0 := by
  obtain ⟨hg, ha, hi, -⟩ := s.startAfresh_numbers
  have hf := SameDuty.forgetCan s.startAfresh
  have ht := s.beginAfresh_takes
  refine ⟨ht.role, ht.claimAt, ?_, ht.gen.trans (hf.gen.trans hg), ht.areas.trans (hf.areas.trans ha), ?_⟩
  · rw [State.mstate, ht.drv]
  · rw [ht.runId, hf.runId]
    exact hi

/-- A holder that finds itself a follower on the link leads it from now on. -/
def State.followLink (s : State) : State :=
  if s.link.node = .follow then
    ({ s with link := { s.link with node := .master, takeover := true, next := 0, changeLeft := 0 } }).setMaster s.nodeId
  else s

/-- A holder that is integrated into the link answers on it from now on. -/
def State.answerLink (s : State) : State :=
  if s.link.node = .integrated then { s with link := { s.link with node := .answering } } else s

/-- A lineside standby has the role with no command of the central in force. -/
def State.holdLineside (s : State) : State :=
  let s := (s.forgetCan.setRole .holder).setXo fun x =>
    { x with claimAt := none, extended := false, lossClaim := false, sync := .none, dutySince := s.now, gen := 0 }
  let s := { s with link := { s.link with cmds := 0, cmdsFrozen := 0, cmdAck := 0xFFFFFFFF, pollAt := none, pubIn := 0, pubServ := 0 } }
  s.updAll fun _ L => (L.setSession ownSess fun S => S.reopen .closed).ageStamps

theorem State.SameDuty.followLink (s : State) : s.SameDuty s.followLink := ite ((setLink ..).trans (setMaster ..)) (refl s)

theorem State.enterUnsynced_central {s : State} (hs : (s.xoAlarm 6).mstate ≠ .safe) (hr : (s.xoAlarm 6).role = .central) :
    s.enterUnsynced = (s.xoAlarm 6).beginAfresh.followLink := by
  unfold State.enterUnsynced
  dsimp only
  rw [if_neg hs, hr]
  rfl

theorem State.enterUnsynced_lineside {s : State} (hs : (s.xoAlarm 6).mstate ≠ .safe) (hr : (s.xoAlarm 6).role = .lineside) :
    s.enterUnsynced = (s.xoAlarm 6).holdLineside.answerLink := by
  unfold State.enterUnsynced
  dsimp only
  rw [if_neg hs, hr]
  rfl

theorem State.holdLineside_facts (s : State) : s.holdLineside.xo.role = .holder ∧ s.holdLineside.xo.claimAt = none
    ∧ s.holdLineside.drv = s.drv ∧ s.holdLineside.link.cmds = 0 := by
  have hx := s.forgetCan.setRole_xo .holder
  have hd : (s.forgetCan.setRole .holder).drv = s.drv := by rw [(XoMoves.setRole s.forgetCan .holder).rest]; rfl
  exact ⟨(congrArg XoSt.role hx :), rfl, hd, rfl⟩

theorem State.answerLink_facts (s : State) : s.answerLink.xo = s.xo ∧ s.answerLink.drv = s.drv ∧ s.answerLink.link.cmds = s.link.cmds := by
  unfold State.answerLink
  split <;> exact ⟨rfl, rfl, rfl⟩

theorem State.enterUnsynced_takes {s : State} (hm : s.mstate = .standby) (hc : s.classOf (Blk.ofOff Base.xo) 6 = .note) :
    s.enterUnsynced.xo.role = .holder ∧ s.enterUnsynced.xo.claimAt = none
      ∧ (s.role = .central → s.enterUnsynced.mstate = .restartLocked ∧ s.enterUnsynced.gen = 0 ∧ s.enterUnsynced.areas = 0
        ∧ s.enterUnsynced.runId ≠ 0)
      ∧ (s.role = .lineside → s.enterUnsynced.mstate = .standby ∧ s.enterUnsynced.link.cmds = 0) := by
  have hn := Notes.xoAlarm (bit := 6) hc
  have hrole : (s.xoAlarm 6).role = s.role := by rw [hn.rest]
  have hmst : (s.xoAlarm 6).mstate = .standby := by
    rw [hn.rest]
    exact hm
  have hsafe : (s.xoAlarm 6).mstate ≠ .safe := by
    rw [hmst]
    decide
  cases hr : s.role with
  | central =>
    rw [State.enterUnsynced_central hsafe (hrole.trans hr)]
    obtain ⟨h1, h2, h3, h4, h5, h6⟩ := (s.xoAlarm 6).beginAfresh_facts
    have hl := SameDuty.followLink (s.xoAlarm 6).beginAfresh
    rw [hl.xo, State.mstate, hl.drv, hl.gen, hl.areas, hl.runId]
    exact ⟨h1, h2, fun _ => ⟨h3, h4, h5, h6⟩, nofun⟩
  | lineside =>
    rw [State.enterUnsynced_lineside hsafe (hrole.trans hr)]
    obtain ⟨h1, h2, h3, h4⟩ := (s.xoAlarm 6).holdLineside_facts
    obtain ⟨hx, hd, hl⟩ := (s.xoAlarm 6).holdLineside.answerLink_facts
    rw [hx, State.mstate, hd, h3, hl]
    exact ⟨h1, h2, nofun, fun _ => ⟨hmst, h4⟩⟩

end Sys2Proof.Machine
end

section
/-! Heartbeats, peer loss, claims and mirrors (R391 to R404). -/

namespace Sys2Proof.Machine

/-! ### The heartbeat (R147, R391) -/

/-- What a heartbeat tells of the peer. -/
def State.noteBeat (s : State) (h : Beat) (live tok : Bool) : State :=
  let catches := s.peerCatches
  let s := s.setXo fun x => { x with
    hb := true, peer := some h, peerSince := x.sinceOf s.now h, hbLost := .all false
    liveLost := if live then .all false else x.liveLost
    peerLive := live || x.peerLive, peerTok := tok || x.peerTok
    sentPages := if h.sync = 1 && !catches then [] else x.sentPages }
  let s := { s with chg := { s.chg with peer := h.chg } }
  s.setMreg Reg.XP_STAT (s.mreg Reg.XP_STAT ||| 0x21)

/-- A holder whose standby is lost sends what it holds. -/
def State.flushLost (s : State) (had : Bool) : State := if had ∧ !s.hasStandby then s.flushHeld else s

/-- What the limit of 2-out-of-2 operation asks for as a heartbeat arrives. -/
def State.degBeat (s : State) : State := if s.deg.expired ∧ s.mstate = .duty then s.degExpire else s.degHandover

theorem execHeartbeat_of_on (s : State) (h : Beat) (live tok : Bool) (ho : s.mstate ≠ .off) (hs : s.mstate ≠ .safe) :
    exec (.heartbeat h live tok) s = .next (((s.noteBeat h live tok).flushLost s.hasStandby).degBeat).settleRole :=
  if_neg fun hc => hc.elim ho hs

theorem State.flushLost_frame (s : State) (had : Bool) : ∃ held, ({ s with held := held } : State).Sends (s.flushLost had) := by
  unfold State.flushLost
  split
  · exact ⟨[], s.flushHeld_sends⟩
  · exact ⟨s.held, .refl s⟩

theorem State.degBeat_reacts (s : State) : s.Reacts (fun _ => True) s.degBeat :=
  Reacts.ite (fun _ => .degExpire ..) fun _ => .degHandover ..

theorem State.degBeat_held {s : State} (h : s.held = []) : s.degBeat.held = [] := by
  unfold State.degBeat
  split
  · exact State.degExpire_held h
  · exact (XoMoves.degHandover s).held.trans h

/-- A heartbeat that tells of no synchronised standby: the module has none. -/
theorem State.noteBeat_hasStandby (s : State) {h : Beat} (live tok : Bool) (hn : h.sync ≠ 2) :
    (s.noteBeat h live tok).hasStandby = false := by
  have hb : (h.sync == 2) = false := beq_eq_false_iff_ne.2 hn
  have he : (s.noteBeat h live tok).hasStandby
      = (decide (s.xo.role = .holder ∨ s.xo.role = .handing) && true && (h.sync == 2)) := rfl
  rw [he, hb, Bool.and_false]

theorem heartbeat_tells (s : State) (h : Beat) (live tok : Bool) (ho : s.mstate ≠ .off) (hs : s.mstate ≠ .safe) (hy : s.mstate ≠ .sync) :
    ∃ t, exec (.heartbeat h live tok) s = .next t
      ∧ t.xo.hb = true ∧ t.xo.peer = some h
      ∧ (s.deg.expired = false → s.Steady t ∧ t.chg.peer = h.chg ∧ t.xo.role = s.xo.role
        ∧ t.xo.peerLive = (live || s.xo.peerLive) ∧ t.xo.peerTok = (tok || s.xo.peerTok))
      ∧ (s.hasStandby = true → h.sync ≠ 2 → t.held = []) := by
  obtain ⟨held, hf⟩ := (s.noteBeat h live tok).flushLost_frame s.hasStandby
  have hheld : s.hasStandby = true → h.sync ≠ 2 → ((s.noteBeat h live tok).flushLost s.hasStandby).held = [] := by
    intro hh hn
    unfold State.flushLost
    rw [hh, s.noteBeat_hasStandby live tok hn]
    exact State.flushHeld_held _
  rw [execHeartbeat_of_on s h live tok ho hs]
  generalize (s.noteBeat h live tok).flushLost s.hasStandby = u at hf hheld ⊢
  have hux : u.xo = (s.noteBeat h live tok).xo := by rw [hf.rest]
  have hum : u.mstate = s.mstate := by rw [hf.rest]; rfl
  have hr := u.degBeat_reacts
  have hsync : u.degBeat.mstate ≠ .sync := by
    rcases hr.mstate with e | e
    · rw [e, hum]
      exact hy
    · rw [e]
      decide
  rw [State.settleRole_of_started hsync]
  refine ⟨_, rfl, hr.hb.trans (by rw [hux]; rfl), hr.peer.trans (by rw [hux]; rfl), fun he => ?_, fun hh hn =>
    State.degBeat_held (hheld hh hn)⟩
  have hue : ¬ (u.deg.expired = true ∧ u.mstate = .duty) := by
    rw [hf.rest]
    rintro ⟨hx, -⟩
    rw [show (s.noteBeat h live tok).deg.expired = s.deg.expired from rfl, he] at hx
    cases hx
  have hus : s.Steady u := by
    rw [hf.rest]
    exact ⟨rfl, rfl, rfl⟩
  rw [State.degBeat, if_neg hue]
  obtain ⟨hrole, -, -, hlive, htok⟩ := u.degHandover_peer
  obtain ⟨h1, h2, h3⟩ := (State.XoMoves.degHandover u).steady
  refine ⟨⟨h1.trans hus.1, h2.trans hus.2.1, h3.trans hus.2.2⟩, ?_, ?_, ?_, ?_⟩
  · rw [(State.XoMoves.degHandover u).chg, hf.rest]
    rfl
  · rw [hrole, hux]
    rfl
  · rw [hlive, hux]
    rfl
  · rw [htok, hux]
    rfl

/-! ### The heartbeat lost (R399, R400) -/

theorem State.Steady.trans {s t u : State} (h : s.Steady t) (k : t.Steady u) : s.Steady u :=
  ⟨k.1.trans h.1, k.2.1.trans h.2.1, k.2.2.trans h.2.2⟩

/-- Where a standby was synchronised, what was held for it is sent. -/
def State.flushIf (s : State) (had : Bool) : State := if had then s.flushHeld else s

theorem State.flushIf_frame (s : State) (had : Bool) : ∃ held, ({ s with held := held } : State).Sends (s.flushIf had) := by
  unfold State.flushIf
  split
  · exact ⟨[], s.flushHeld_sends⟩
  · exact ⟨s.held, .refl s⟩

theorem State.flushIf_xo (s : State) (had : Bool) : (s.flushIf had).xo = s.xo := by
  obtain ⟨held, h⟩ := s.flushIf_frame had
  rw [h.rest]

theorem State.flushIf_steady (s : State) (had : Bool) : s.Steady (s.flushIf had) := by
  obtain ⟨held, h⟩ := s.flushIf_frame had
  rw [h.rest]
  exact ⟨rfl, rfl, rfl⟩

theorem State.flushIf_now (s : State) (had : Bool) : (s.flushIf had).now = s.now := by
  obtain ⟨held, h⟩ := s.flushIf_frame had
  rw [h.rest]

theorem State.flushIf_held {s : State} {had : Bool} (h : had = true) : (s.flushIf had).held = [] := by
  rw [State.flushIf, if_pos h]
  exact s.flushHeld_held

/-- The lanes that take part, and those that are ACTIVE, follow from the module's state and the lanes' states. -/
theorem State.Steady.parts {s t : State} (h : s.Steady t) : t.parts = s.parts := by
  obtain ⟨hd, hc, -⟩ := h
  unfold State.parts State.inStep State.mode State.mstate
  rw [hd, hc]

theorem State.Steady.gateOf {s t : State} (h : s.Steady t) (ls : LaneSet) : t.gateOf ls = s.gateOf ls := by
  obtain ⟨-, hc, -⟩ := h
  unfold State.gateOf State.isActive State.mode
  rw [hc]

theorem State.Steady.mstate {s t : State} (h : s.Steady t) : t.mstate = s.mstate := congrArg DriveSt.mstate h.1

/-- A loss that two lanes declare makes a standby claim, once the duty token of the peer stands still. -/
theorem State.declareLoss_claims {s : State} (hm : s.mstate = .standby) (hr : s.xo.role = .standby) (ht : s.xo.peerTok = false) :
    s.declareLoss.xo.role = .claiming ∧ s.declareLoss.xo.claimAt = some s.now := by
  have h : s.declareLoss = (s.setXo fun x => { x with hoTaken := false }).startClaim true := by
    unfold State.declareLoss
    rw [if_neg (not_not.2 hm)]
    have hr' : (s.setXo fun x => { x with hoTaken := false }).xo.role = .standby := hr
    have ht' : (s.setXo fun x => { x with hoTaken := false }).xo.peerTok = false := ht
    dsimp only
    rw [hr', ht', if_neg (by decide), if_neg (by decide), if_neg (by decide)]
  rw [h, State.startClaim_xo]
  exact ⟨rfl, rfl⟩

/-- A loss that two lanes declare while the duty token still moves is kept for later. -/
theorem State.declareLoss_waits {s : State} (hm : s.mstate = .standby) (hr : s.xo.role = .standby) (ht : s.xo.peerTok = true) :
    s.declareLoss.xo.role = .standby ∧ s.declareLoss.xo.lossClaim = true := by
  have h : s.declareLoss = (s.setXo fun x => { x with hoTaken := false }).setXo fun x => { x with lossClaim := true } := by
    unfold State.declareLoss
    rw [if_neg (not_not.2 hm)]
    have hr' : (s.setXo fun x => { x with hoTaken := false }).xo.role = .standby := hr
    have ht' : (s.setXo fun x => { x with hoTaken := false }).xo.peerTok = true := ht
    dsimp only
    rw [hr', ht', if_neg (by decide), if_neg (by decide), if_pos rfl]
  rw [h]
  exact ⟨hr, rfl⟩

theorem State.declareLoss_hb (s : State) : s.declareLoss.xo.hb = s.xo.hb ∧ s.declareLoss.xo.peerLive = s.xo.peerLive := by
  unfold State.declareLoss
  dsimp only
  split
  · exact ⟨rfl, rfl⟩
  · split
    · exact ⟨rfl, rfl⟩
    · split
      · exact ⟨rfl, rfl⟩
      · split
        · exact ⟨rfl, rfl⟩
        · rw [State.startClaim_xo]
          exact ⟨rfl, rfl⟩

theorem State.ceaseSync_hb (s : State) : s.ceaseSync.xo.hb = s.xo.hb ∧ s.ceaseSync.xo.linkUp = s.xo.linkUp := by
  unfold State.ceaseSync State.startCatchup
  split
  · split <;> exact ⟨rfl, rfl⟩
  · exact ⟨rfl, rfl⟩

/-- The heartbeat is lost in all the lanes that count. -/
def State.noHeartbeat (s : State) (by_ : LaneSet) : State :=
  let s := s.setXo fun x => { x with hbLost := orLanes x.hbLost by_ }
  let s := s.setXo fun x => { x with hb := false, peerSince := none }
  s.setMreg Reg.XP_STAT (s.mreg Reg.XP_STAT &&& ~~~(0x20 : Word))

/-- The lanes that miss the heartbeat and find PEER_LIVE stopped. -/
def State.bothLost (s : State) (hb live : LaneSet) : Bool := s.gateOf (LaneVec.ofFn fun l => hb.get l && live.get l)

/-- What the loss of the heartbeat leads to. -/
def State.actOnLoss (s : State) : State :=
  if s.mstate ≠ .standby then s else if s.gateOf s.xo.declare then s.declareLoss else (s.xoAlarm 0).ceaseSync

theorem next_ite_ite {c d : Prop} [Decidable c] [Decidable d] (a b e : State) :
    (if c then .next a else if d then .next b else .next e : Host.Outcome State Fault Refusal)
      = .next (if c then a else if d then b else e) := by
  rw [apply_ite Host.Outcome.next, apply_ite Host.Outcome.next]

theorem execXoLink_few {s : State} {by_ : LaneSet} (h : s.gateOf (orLanes s.xo.hbLost by_) = false) :
    exec (.xoLink by_) s = .next { s with xo := { s.xo with hbLost := orLanes s.xo.hbLost by_ } } :=
  if_pos (show (!s.gateOf (orLanes s.xo.hbLost by_)) = true by rw [h]; rfl)

theorem execXoLink_lost {s : State} {by_ : LaneSet} (h : s.gateOf (orLanes s.xo.hbLost by_) = true) :
    exec (.xoLink by_) s = .next ((s.noHeartbeat by_).flushIf s.hasStandby).actOnLoss := by
  have hn : ¬ (!s.gateOf (orLanes s.xo.hbLost by_)) = true := by rw [h]; decide
  exact (if_neg hn).trans (next_ite_ite ..)

theorem xoLink_lost {s : State} {by_ : LaneSet} (h : s.gateOf (orLanes s.xo.hbLost by_) = true) :
    ∃ t, exec (.xoLink by_) s = .next t ∧ t.xo.hb = false
      ∧ (s.mstate = .standby → s.bothLost (orLanes s.xo.hbLost by_) s.xo.liveLost = false → t.xo.sync ≠ .synced
        ∧ ∀ l : Lane, s.parts.get l = true → t.ErrSet l (Blk.ofOff Base.xo) 0)
      ∧ (s.mstate = .standby → s.xo.role = .standby → s.bothLost (orLanes s.xo.hbLost by_) s.xo.liveLost = true →
        (s.xo.peerTok = false → t.xo.role = .claiming ∧ t.xo.claimAt = some s.now ∧ s.Steady t)
        ∧ (s.xo.peerTok = true → t.xo.role = .standby ∧ t.xo.lossClaim = true ∧ s.Steady t))
      ∧ (s.hasStandby = true → s.mstate ≠ .standby → t.held = [] ∧ s.Steady t) := by
  have hs : s.Steady ((s.noHeartbeat by_).flushIf s.hasStandby) := (s.noHeartbeat by_).flushIf_steady s.hasStandby
  have hx := (s.noHeartbeat by_).flushIf_xo s.hasStandby
  have hnow := (s.noHeartbeat by_).flushIf_now s.hasStandby
  have hheld : s.hasStandby = true → ((s.noHeartbeat by_).flushIf s.hasStandby).held = [] := State.flushIf_held
  rw [execXoLink_lost h]
  generalize (s.noHeartbeat by_).flushIf s.hasStandby = u at hs hx hnow hheld ⊢
  have hdecl : u.gateOf u.xo.declare = s.bothLost (orLanes s.xo.hbLost by_) s.xo.liveLost := by
    rw [hs.gateOf, hx]
    rfl
  have hhb : u.xo.hb = false := by rw [hx]; rfl
  refine ⟨_, rfl, ?_⟩
  unfold State.actOnLoss
  rw [hs.mstate, hdecl]
  by_cases hm : s.mstate = .standby
  · rw [if_neg (not_not.2 hm)]
    have hum : u.mstate = .standby := hs.mstate.trans hm
    by_cases hb : s.bothLost (orLanes s.xo.hbLost by_) s.xo.liveLost = true
    · rw [if_pos hb, hb]
      have hst : s.Steady u.declareLoss := hs.trans (State.XoMoves.declareLoss u).steady
      refine ⟨u.declareLoss_hb.1.trans hhb, fun _ => nofun, fun _ hr _ => ⟨fun ht => ?_, fun ht => ?_⟩, fun _ h => absurd hm h⟩
      · obtain ⟨h1, h2⟩ := State.declareLoss_claims hum (by rw [hx]; exact hr) (by rw [hx]; exact ht)
        exact ⟨h1, h2.trans (congrArg some hnow), hst⟩
      · obtain ⟨h1, h2⟩ := State.declareLoss_waits hum (by rw [hx]; exact hr) (by rw [hx]; exact ht)
        exact ⟨h1, h2, hst⟩
    · rw [if_neg hb]
      have hal := State.Reacts.xoAlarm u 0
      refine ⟨(State.ceaseSync_hb _).1.trans (hal.hb.trans hhb), fun _ _ => ⟨State.ceaseSync_sync _, fun l hl => ?_⟩,
        fun _ _ h => absurd h hb, fun _ h => absurd hm h⟩
      exact State.ceaseSync_errSet (u.xoAlarm_errSet (by decide) (by rw [hs.parts]; exact hl))
  · rw [if_pos hm]
    exact ⟨hhb, fun h => absurd h hm, fun h => absurd h hm, fun hh _ => ⟨hheld hh, hs⟩⟩

/-! ### PEER_LIVE lost (R399, R400) -/

/-- What the loss of PEER_LIVE leads to. -/
def State.actOnSilence (s : State) : State :=
  if s.mstate ≠ .standby then s else if s.gateOf s.xo.declare then s.declareLoss else s.xoAlarm 1

/-- PEER_LIVE has stopped in all the lanes that count. -/
def State.noPeerLive (s : State) (by_ : LaneSet) : State :=
  (s.setXo fun x => { x with liveLost := orLanes x.liveLost by_ }).setXo fun x => { x with peerLive := false }

theorem execPeerLive_few {s : State} {by_ : LaneSet} (h : s.gateOf (orLanes s.xo.liveLost by_) = false) :
    exec (.peerLive by_) s = .next { s with xo := { s.xo with liveLost := orLanes s.xo.liveLost by_ } } :=
  if_pos (show (!s.gateOf (orLanes s.xo.liveLost by_)) = true by rw [h]; rfl)

theorem execPeerLive_lost {s : State} {by_ : LaneSet} (h : s.gateOf (orLanes s.xo.liveLost by_) = true) :
    exec (.peerLive by_) s = .next (s.noPeerLive by_).actOnSilence := by
  have hn : ¬ (!s.gateOf (orLanes s.xo.liveLost by_)) = true := by rw [h]; decide
  exact (if_neg hn).trans (next_ite_ite ..)

theorem peerLive_lost {s : State} {by_ : LaneSet} (h : s.gateOf (orLanes s.xo.liveLost by_) = true) :
    ∃ t, exec (.peerLive by_) s = .next t ∧ t.xo.peerLive = false
      ∧ (s.mstate = .standby → s.bothLost s.xo.hbLost (orLanes s.xo.liveLost by_) = false →
        ∀ l : Lane, s.parts.get l = true → t.ErrSet l (Blk.ofOff Base.xo) 1)
      ∧ (s.mstate = .standby → s.xo.role = .standby → s.bothLost s.xo.hbLost (orLanes s.xo.liveLost by_) = true → s.xo.peerTok = false →
        t.xo.role = .claiming ∧ t.xo.claimAt = some s.now ∧ s.Steady t)
      ∧ (s.mstate ≠ .standby → s.Steady t) := by
  have hs : s.Steady (s.noPeerLive by_) := ⟨rfl, rfl, rfl⟩
  have hdecl : (s.noPeerLive by_).gateOf (s.noPeerLive by_).xo.declare = s.bothLost s.xo.hbLost (orLanes s.xo.liveLost by_) := by
    rw [hs.gateOf]
    rfl
  refine ⟨_, execPeerLive_lost h, ?_⟩
  unfold State.actOnSilence
  rw [hs.mstate, hdecl]
  by_cases hm : s.mstate = .standby
  · rw [if_neg (not_not.2 hm)]
    by_cases hb : s.bothLost s.xo.hbLost (orLanes s.xo.liveLost by_) = true
    · rw [if_pos hb, hb]
      refine ⟨(State.declareLoss_hb _).2, fun _ => nofun, fun _ hr _ ht => ?_, fun h => absurd hm h⟩
      obtain ⟨h1, h2⟩ := State.declareLoss_claims (s := s.noPeerLive by_) hm hr ht
      exact ⟨h1, h2, hs.trans (State.XoMoves.declareLoss _).steady⟩
    · rw [if_neg hb]
      exact ⟨(State.Reacts.xoAlarm (s.noPeerLive by_) 1).peerLive, fun _ _ l hl => State.xoAlarm_errSet (s.noPeerLive by_) (by decide) hl,
        fun _ _ h => absurd h hb, fun h => absurd hm h⟩
  · rw [if_pos hm]
    exact ⟨rfl, fun h => absurd h hm, fun h => absurd h hm, fun _ => hs⟩

/-! ### The duty token at rest (R400, R410) -/

/-- The duty token of the peer stands still. -/
def State.stillTok (s : State) : State := s.setXo fun x => { x with peerTok := false }

/-- A standby claims as the duty token stands still, in a planned handover or after a loss. -/
def State.claimDue (s : State) : State :=
  if s.xo.hoTaken ∧ !s.twoOfTwo then s.startClaim false else if s.xo.lossClaim then s.startClaim true else s

theorem execDutyTokStill_sync {s : State} (h : s.mstate = .sync) : exec .dutyTokStill s = .next s.stillTok.settleRole := if_pos h

theorem execDutyTokStill_standby {s : State} (hm : s.mstate = .standby) (hr : s.xo.role = .standby) :
    exec .dutyTokStill s = .next s.stillTok.claimDue := by
  have hs : ¬ s.mstate = .sync := by rw [hm]; decide
  exact (if_neg hs).trans (if_pos ⟨hm, hr⟩)

theorem execDutyTokStill_other {s : State} (hm : s.mstate ≠ .sync) (hr : ¬ (s.mstate = .standby ∧ s.xo.role = .standby)) :
    exec .dutyTokStill s = .next s.stillTok := (if_neg hm).trans (if_neg hr)

theorem State.claimDue_claims {s : State} (h : s.xo.hoTaken = true ∧ s.twoOfTwo = false ∨ s.xo.lossClaim = true) :
    ∃ loss, s.claimDue = s.startClaim loss := by
  unfold State.claimDue
  split
  · exact ⟨false, rfl⟩
  · next hn =>
    rcases h with ⟨h1, h2⟩ | h
    · exact absurd ⟨h1, by rw [h2]; rfl⟩ hn
    · exact ⟨true, if_pos h⟩

theorem State.claimDue_rests {s : State} (h : s.xo.hoTaken = false ∨ s.twoOfTwo = true) (hl : s.xo.lossClaim = false) : s.claimDue = s := by
  have hn : ¬ (s.xo.hoTaken = true ∧ (!s.twoOfTwo) = true) := by
    rintro ⟨h1, h2⟩
    rcases h with h | h
    · rw [h] at h1
      cases h1
    · rw [h] at h2
      cases h2
  unfold State.claimDue
  rw [if_neg hn, hl, if_neg Bool.false_ne_true]

theorem State.claimDue_peerTok {s : State} (h : s.xo.peerTok = false) : s.claimDue.xo.peerTok = false := by
  unfold State.claimDue
  split
  · rw [State.startClaim_xo]
    exact h
  · split
    · rw [State.startClaim_xo]
      exact h
    · exact h

theorem dutyTokStill_rests (s : State) : ∃ t, exec .dutyTokStill s = .next t ∧ t.xo.peerTok = false
    ∧ (s.mstate = .standby → s.xo.role = .standby → (s.xo.hoTaken = true ∧ s.twoOfTwo = false) ∨ s.xo.lossClaim = true →
      t.xo.role = .claiming ∧ t.xo.claimAt = some s.now ∧ s.Steady t)
    ∧ (s.mstate = .standby → s.xo.hoTaken = false ∨ s.twoOfTwo = true → s.xo.lossClaim = false → t.xo.role = s.xo.role) := by
  by_cases hs : s.mstate = .sync
  · refine ⟨_, execDutyTokStill_sync hs, State.settleRole_peerTok rfl, fun hm => ?_, fun hm => ?_⟩ <;>
    · rw [hs] at hm
      cases hm
  · by_cases hst : s.mstate = .standby ∧ s.xo.role = .standby
    · refine ⟨_, execDutyTokStill_standby hst.1 hst.2, State.claimDue_peerTok rfl, fun _ _ h => ?_, fun _ h hl => ?_⟩
      · obtain ⟨loss, he⟩ := State.claimDue_claims (s := s.stillTok) h
        rw [he, State.startClaim_xo]
        exact ⟨rfl, rfl, (State.XoMoves.startClaim s.stillTok loss).steady⟩
      · rw [State.claimDue_rests (s := s.stillTok) h hl]
        rfl
    · exact ⟨_, execDutyTokStill_other hs hst, rfl, fun hm hr _ => absurd ⟨hm, hr⟩ hst, fun _ _ _ => rfl⟩

/-! ### The claim window (R401, R402, R404) -/

section Window

variable {s : State} {e x y : Bool} {a : Nat}

theorem execClaimWindowEnd_early (ha : s.xo.claimAt = some a) (h : s.now < a + (if s.xo.extended then 10000 else 5000)) :
    exec (.claimWindowEnd e x y) s = .next s := by
  change execClaimWindowEnd e x y s = _
  rw [execClaimWindowEnd, ha]
  exact if_pos h

theorem execClaimWindowEnd_ends (ha : s.xo.claimAt = some a) (h : a + (if s.xo.extended then 10000 else 5000) ≤ s.now) :
    exec (.claimWindowEnd e x y) s = s.endWindow e x y := by
  change execClaimWindowEnd e x y s = _
  rw [execClaimWindowEnd, ha]
  exact if_neg (Nat.not_lt.2 h)

theorem execClaimWindowEnd_wait (ha : s.xo.claimAt = none) : exec (.claimWindowEnd e x y) s = .next s.endWait := by
  change execClaimWindowEnd e x y s = _
  rw [execClaimWindowEnd, ha]

/-- Silence in the window gives the role, or the stillness of the token to the primary. -/
theorem State.endWindow_wins (h : (if s.pref then (if s.xo.extended then y else x) else !e) = true) :
    s.endWindow e x y = .next s.enterRole := by
  unfold State.endWindow
  cases hp : s.pref with
  | false =>
    rw [hp, if_neg Bool.false_ne_true] at h
    have he : e = false := by simpa using h
    rw [he]
    rfl
  | true =>
    rw [hp, if_pos rfl] at h
    cases hx : s.xo.extended with
    | false =>
      rw [hx, if_neg Bool.false_ne_true] at h
      rw [h]
      rfl
    | true =>
      rw [hx, if_pos rfl] at h
      rw [h]
      rfl

/-- An edge withdraws the claim of the secondary. -/
theorem State.endWindow_edge (hp : s.pref = false) :
    s.endWindow true x y = .next ((s.withdraw.setXo fun x => { x with peerTok := true }).settleRole) := by
  unfold State.endWindow
  rw [hp]
  exact (if_pos rfl).trans (if_pos rfl)

/-- The primary extends its window once. -/
theorem State.endWindow_extends (hp : s.pref = true) (hx : s.xo.extended = false) :
    s.endWindow e false y = .next (s.setXo fun x => { x with extended := true }) := by
  unfold State.endWindow
  rw [hp, hx]
  exact (if_neg (by decide)).trans ((if_pos rfl).trans (if_neg (by decide)))

/-- An extended window that ends with the token still moving withdraws the claim of the primary and tells it. -/
theorem State.endWindow_conflict (hp : s.pref = true) (hx : s.xo.extended = true) :
    s.endWindow e x false = .next (((s.withdraw.xoAlarm 4).setXo fun x => { x with peerTok := true }).settleRole) := by
  unfold State.endWindow
  rw [hp, hx]
  exact (if_neg (by decide)).trans ((if_neg (by decide)).trans (if_neg (by decide)))

end Window

section Role

variable {s : State} (hm : s.mstate = .standby)

include hm

theorem State.enterRole_loss (h1 : s.xo.hoTaken = false) (h2 : s.xo.lossClaim = true) (h3 : s.xo.synced0 = true) :
    s.enterRole = s.enterLoss := by
  unfold State.enterRole
  rw [hm, h1, h2, h3]
  exact (if_neg (by decide)).trans ((if_neg (by decide)).trans ((if_neg (by decide)).trans ((if_neg (by decide)).trans (if_pos rfl))))

theorem State.enterRole_unsynced (h1 : s.xo.hoTaken = false) (h2 : s.xo.lossClaim = true) (h3 : s.xo.synced0 = false) :
    s.enterRole = s.enterUnsynced := by
  unfold State.enterRole
  rw [hm, h1, h2, h3]
  exact (if_neg (by decide)).trans ((if_neg (by decide)).trans ((if_neg (by decide)).trans ((if_neg (by decide)).trans (if_neg (by decide)))))

theorem State.enterRole_planned (h1 : s.xo.hoTaken = true) (h2 : s.twoOfTwo = false) : s.enterRole = s.enterPlanned := by
  unfold State.enterRole
  rw [hm, h1, h2]
  exact (if_neg (by decide)).trans ((if_neg (by decide)).trans ((if_pos rfl).trans (if_neg (by decide))))

theorem State.enterRole_twoOfTwo (h1 : s.xo.hoTaken = true) (h2 : s.twoOfTwo = true) : s.enterRole = s.withdraw := by
  unfold State.enterRole
  rw [hm, h1, h2]
  exact (if_neg (by decide)).trans ((if_neg (by decide)).trans ((if_pos rfl).trans (if_pos rfl)))

theorem State.withdraw_standby : s.withdraw.xo.role = .standby ∧ s.withdraw.xo.claimAt = none := by
  rw [s.withdraw_xo, if_pos hm]
  exact ⟨rfl, rfl⟩

theorem claimWindowEnd_withdraws (hp : s.pref = false) {x y : Bool} : ∃ t, s.endWindow true x y = .next t ∧ t.xo.role = .standby
    ∧ t.xo.claimAt = none ∧ t.xo.peerTok = true ∧ s.Steady t := by
  have hw := State.XoMoves.withdraw s
  obtain ⟨h1, h2⟩ := State.withdraw_standby hm
  have hsync : (s.withdraw.setXo fun x => { x with peerTok := true }).mstate ≠ .sync := by
    change s.withdraw.mstate ≠ .sync
    rw [hw.mstate, hm]
    decide
  refine ⟨_, State.endWindow_edge hp, ?_⟩
  rw [State.settleRole_of_started hsync]
  exact ⟨h1, h2, rfl, hw.steady⟩

theorem claimWindowEnd_conflicts (hp : s.pref = true) (hx : s.xo.extended = true) {e x : Bool} : ∃ t, s.endWindow e x false = .next t
    ∧ t.xo.claimAt = none ∧ t.xo.peerTok = true ∧ ∀ l : Lane, s.parts.get l = true → t.ErrSet l (Blk.ofOff Base.xo) 4 := by
  have hw := State.XoMoves.withdraw s
  obtain ⟨-, h2⟩ := State.withdraw_standby hm
  have hal := State.Reacts.xoAlarm s.withdraw 4
  have hsync : ((s.withdraw.xoAlarm 4).setXo fun x => { x with peerTok := true }).mstate ≠ .sync := by
    change (s.withdraw.xoAlarm 4).mstate ≠ .sync
    rcases hal.mstate with h | h
    · rw [h, hw.mstate, hm]
      decide
    · rw [h]
      decide
  refine ⟨_, State.endWindow_conflict hp hx, ?_⟩
  rw [State.settleRole_of_started hsync]
  exact ⟨hal.claim h2, rfl, fun l hl => s.withdraw.xoAlarm_errSet (by decide) (by rw [hw.steady.parts]; exact hl)⟩

end Role

/-! ### Waiting for a peer in SYNC (R392) -/

theorem State.endWait_of_started {s : State} (h : s.mstate ≠ .sync) : s.endWait = s := if_neg fun hc => h hc.1

section Wait

variable {s : State} (hm : s.mstate = .sync) (hf : s.file.paired = true) (hr : s.xo.role = .none) (ht : s.xo.peerTok = false)
  (hh : s.xo.hb = false)

include hm hf hr ht hh

theorem State.endWait_claims (h : s.xo.syncAt + 2000000000 ≤ s.now) : s.endWait = s.startClaim false := by
  refine if_pos ⟨hm, hf, hr, ?_, ?_, h⟩
  · rw [ht]
    rfl
  · rw [hh]
    rfl

end Wait

theorem State.endWait_early {s : State} (h : s.now < s.xo.syncAt + 2000000000) : s.endWait = s :=
  if_neg fun ⟨_, _, _, _, _, hn⟩ => absurd hn (Nat.not_le.2 h)

/-! ### Mirrors and the crossover lanes (R393, R396) -/

theorem execMirror_other {s : State} {m : Mirror} (h : s.mstate ≠ .standby) : exec (.mirror m) s = .next s := if_pos h

theorem mirror_notes {s : State} (m : Mirror) (h : s.mstate = .standby) : ∃ t, exec (.mirror m) s = .next t ∧ s.Steady t ∧ t.lane = s.lane
    ∧ (m.link = false → t.xo = { s.xo with mirror := s.xo.mirror.set m.lane (getD 0 m.cmds 0) })
    ∧ (m.link = true → t.xo = { s.xo with mirrorLink := s.xo.mirrorLink.set m.lane (SMap.puts (fun _ => 0) [] m.cmds) }) := by
  have hex : exec (.mirror m) s = if m.link
      then .next ((s.twinUp (oneLane m.lane)).setXo fun x => { x with mirrorLink := x.mirrorLink.set m.lane (SMap.puts (fun _ => 0) [] m.cmds) })
      else .next ((s.twinUp (oneLane m.lane)).setXo fun x => { x with mirror := x.mirror.set m.lane (getD 0 m.cmds 0) }) :=
    if_neg (not_not.2 h)
  cases hl : m.link with
  | true =>
    rw [hl, if_pos rfl] at hex
    exact ⟨_, hex, ⟨rfl, rfl, rfl⟩, rfl, nofun, fun _ => rfl⟩
  | false =>
    rw [hl, if_neg Bool.false_ne_true] at hex
    exact ⟨_, hex, ⟨rfl, rfl, rfl⟩, rfl, fun _ => rfl, nofun⟩

/-- The holder no longer takes its standby for synchronised. -/
def State.forgetPages (s : State) : State :=
  s.setXo fun x => { x with sentPages := [], peer := x.peer.map fun b => { b with sync := 1 } }

theorem execCrossover_good {s : State} {p : XoPort} (h : ¬ (p.up.count ≤ 1 ∨ (!p.xh) = true)) :
    exec (.crossoverLaneFailure p) s = .next (s.notePort p) := if_neg h

theorem execCrossover_standby {s : State} {p : XoPort} (h : p.up.count ≤ 1 ∨ (!p.xh) = true) (hm : s.mstate = .standby) :
    exec (.crossoverLaneFailure p) s = .next ((s.notePort p).xoAlarm 0).ceaseSync := (if_pos h).trans (if_pos hm)

theorem execCrossover_holder {s : State} {p : XoPort} (h : p.up.count ≤ 1 ∨ (!p.xh) = true) (hm : s.mstate ≠ .standby) :
    exec (.crossoverLaneFailure p) s = .next ((s.notePort p).forgetPages.flushIf s.hasStandby) := (if_pos h).trans (if_neg hm)

theorem crossover_fails (s : State) (p : XoPort) : ∃ t, exec (.crossoverLaneFailure p) s = .next t ∧ t.xo.linkUp = p.up
    ∧ (2 ≤ p.up.count → p.xh = true → s.Steady t ∧ t.lane = s.lane)
    ∧ (p.up.count ≤ 1 ∨ p.xh = false → s.mstate = .standby → t.xo.sync ≠ .synced
      ∧ ∀ l : Lane, s.parts.get l = true → t.ErrSet l (Blk.ofOff Base.xo) 0)
    ∧ (p.up.count ≤ 1 ∨ p.xh = false → s.mstate ≠ .standby → s.Steady t ∧ (s.hasStandby = true → t.held = [])) := by
  have hn : s.Steady (s.notePort p) := ⟨rfl, rfl, rfl⟩
  have hiff : (p.up.count ≤ 1 ∨ p.xh = false) ↔ (p.up.count ≤ 1 ∨ (!p.xh) = true) := by rw [Bool.not_eq_true']
  rw [hiff]
  by_cases h : p.up.count ≤ 1 ∨ (!p.xh) = true
  · have hbad : ¬ (2 ≤ p.up.count ∧ p.xh = true) := by
      rintro ⟨h2, hx⟩
      rw [hx] at h
      rcases h with h | h
      · omega
      · cases h
    by_cases hm : s.mstate = .standby
    · refine ⟨_, execCrossover_standby h hm, ?_, fun h2 hx => absurd ⟨h2, hx⟩ hbad, fun _ _ => ⟨State.ceaseSync_sync _, fun l hl =>
        State.ceaseSync_errSet ((s.notePort p).xoAlarm_errSet (by decide) hl)⟩, fun _ hne => absurd hm hne⟩
      exact (State.ceaseSync_hb _).2.trans (State.Reacts.xoAlarm (s.notePort p) 0).linkUp
    · refine ⟨_, execCrossover_holder h hm, ?_, fun h2 hx => absurd ⟨h2, hx⟩ hbad, fun _ he => absurd he hm,
        fun _ _ => ⟨hn.trans (State.flushIf_steady (s.notePort p).forgetPages _), State.flushIf_held⟩⟩
      rw [State.flushIf_xo]
      rfl
  · exact ⟨_, execCrossover_good h, rfl, fun _ _ => ⟨hn, rfl⟩, fun hc => absurd hc h, fun hc => absurd hc h⟩

/-- Settles O55. -/
theorem peerLossAndClaims : Obligations.PeerLossAndClaims := by
  intro s
  refine ⟨fun h live tok => ⟨fun hm => if_pos hm.symm, heartbeat_tells s h live tok⟩, fun by_ => ⟨execXoLink_few, xoLink_lost⟩,
    fun by_ => ⟨execPeerLive_few, peerLive_lost⟩, dutyTokStill_rests s, fun e x y a hm ha => ⟨execClaimWindowEnd_early ha, fun hn => ?_⟩,
    fun ha hm e x y => ?_, fun ha hm hf hr ht hh e x y => ⟨fun hn => ?_, fun hn => ?_⟩, fun m => ⟨execMirror_other, mirror_notes m⟩,
    crossover_fails s⟩
  · rw [execClaimWindowEnd_ends ha hn]
    refine ⟨fun hp he => ?_, fun hw h1 h2 h3 => ?_, fun hw h1 h2 h3 hc => ?_, fun hw h1 => ⟨fun h2 => ?_, fun h2 => ?_⟩,
      fun hp hx hl => ?_, fun hp hx hl => ?_⟩
    · rw [he]
      exact claimWindowEnd_withdraws hm hp
    · refine ⟨_, State.endWindow_wins hw, ?_⟩
      rw [State.enterRole_loss hm h1 h2 h3]
      exact s.enterLoss_takes
    · refine ⟨_, State.endWindow_wins hw, ?_⟩
      rw [State.enterRole_unsynced hm h1 h2 h3]
      exact State.enterUnsynced_takes hm hc
    · refine ⟨_, State.endWindow_wins hw, ?_⟩
      rw [State.enterRole_planned hm h1 h2]
      exact s.enterPlanned_takes
    · refine ⟨_, State.endWindow_wins hw, ?_⟩
      rw [State.enterRole_twoOfTwo hm h1 h2]
      obtain ⟨hr, hc⟩ := State.withdraw_standby hm
      exact ⟨hr, hc, (State.XoMoves.withdraw s).steady⟩
    · rw [hl]
      exact State.endWindow_extends hp hx
    · rw [hl]
      exact claimWindowEnd_conflicts hm hp hx
  · rw [execClaimWindowEnd_wait ha, State.endWait_of_started hm]
  · refine ⟨_, execClaimWindowEnd_wait ha, ?_⟩
    rw [State.endWait_claims hm hf hr ht hh hn, State.startClaim_xo]
    exact ⟨rfl, rfl, (State.XoMoves.startClaim s false).steady⟩
  · rw [execClaimWindowEnd_wait ha, State.endWait_early hn]

end Sys2Proof.Machine
end

section
/-! Confirmations and the handover (R145, R146, R409, R410, R412, R413). -/

namespace Sys2Proof.Machine

namespace State.Reacts

variable {X : Lane → Prop} {s t : State}

theorem overdue (h : s.Reacts X t) : t.xo.overdue = s.xo.overdue := by
  have e := congrArg (fun u : State => u.xo.overdue) h.unmoved
  exact e

theorem overdueAt (h : s.Reacts X t) : t.xo.overdueAt = s.xo.overdueAt := by
  have e := congrArg (fun u : State => u.xo.overdueAt) h.unmoved
  exact e

end State.Reacts

/-! ### Confirmations (R145, R146) -/

/-- Whether a confirmation of a generation releases what is held. -/
def HeldItem.covered (gen : Nat) : HeldItem → Bool
  | .telegram g _ _ _ _ _ _ _ => decide (g ≤ gen)
  | .done g _ _ => decide (g ≤ gen)

theorem State.releaseUpTo_sends (s : State) (gen : Nat) :
    ({ s with held := s.held.filter fun i => !i.covered gen } : State).Sends (s.releaseUpTo gen) :=
  (Sends.foldl Sends.releaseItem _ _).trans (Sends.noteHeld _)

/-- A confirmation of a generation. -/
def State.noteConfirmed (s : State) (gen : DWord) : State :=
  s.setXo fun x => { x with
    gen := max x.gen gen.toNat, hoConf := x.hoConf || (x.handsOver && gen.toNat == s.gen)
    confAt := if x.handsOver && gen.toNat == s.gen && !x.hoConf then s.now else x.confAt }

theorem execConfirmation_holder {s : State} {gen : DWord} (h : s.xo.role = .holder ∨ s.xo.role = .handing) :
    exec (.confirmation gen) s = .next ((s.noteConfirmed gen).releaseUpTo gen.toNat) :=
  if_neg fun hc => h.elim hc.1 hc.2

theorem confirmation_releases {s : State} (g : DWord) (h : s.xo.role = .holder ∨ s.xo.role = .handing) :
    ∃ t, exec (.confirmation g) s = .next t ∧ s.Steady t
      ∧ t.xo.gen = max s.xo.gen g.toNat
      ∧ (∀ a b n, HeldItem.done a b n ∈ t.held → g.toNat < a ∧ HeldItem.done a b n ∈ s.held)
      ∧ (s.xo.hoPaused = true → s.xo.hoCycle.isSome = true → g.toNat = s.gen → t.xo.hoConf = true)
      ∧ ∀ a b n, HeldItem.done a b n ∈ s.held → g.toNat < a → HeldItem.done a b n ∈ t.held := by
  have hr := (s.noteConfirmed g).releaseUpTo_sends g.toNat
  have hheld : ((s.noteConfirmed g).releaseUpTo g.toNat).held = s.held.filter fun i => !i.covered g.toNat := by
    rw [hr.rest]
    rfl
  have hxo : ((s.noteConfirmed g).releaseUpTo g.toNat).xo = (s.noteConfirmed g).xo := by rw [hr.rest]
  refine ⟨_, execConfirmation_holder h, ?_, by rw [hxo]; rfl, fun a b n hm => ?_, fun h1 h2 h3 => ?_, fun a b n hm hlt => ?_⟩
  · rw [hr.rest]
    exact ⟨rfl, rfl, rfl⟩
  · rw [hheld] at hm
    obtain ⟨hin, hcov⟩ := List.mem_filter.1 hm
    have hle : ¬ a ≤ g.toNat := by simpa [HeldItem.covered] using hcov
    exact ⟨by omega, hin⟩
  · have hc : ((s.noteConfirmed g).xo).hoConf = (s.xo.hoConf || ((s.xo.hoPaused && s.xo.hoCycle.isSome) && g.toNat == s.gen)) := rfl
    rw [hxo, hc, h1, h2, h3]
    simp
  · rw [hheld]
    have hle : ¬ a ≤ g.toNat := by omega
    exact List.mem_filter.2 ⟨hm, by simpa [HeldItem.covered] using hle⟩

/-! ### Agreed writes (R83, R88) -/

/-- A change of no lane. -/
theorem State.updIn_none (s : State) {ls : LaneSet} (f : Lane → LaneSt → LaneSt) (h : ∀ l, ls.get l = false) : s.updIn ls f = s := by
  have hl : (s.lane.map fun l L => if ls.get l then f l L else L) = s.lane := by
    have ha := h .A
    have hb := h .B
    have hc := h .C
    cases hs : s.lane with
    | mk a b c =>
      simp only [LaneVec.map, ha, hb, hc, Bool.false_eq_true, if_false]
  rw [State.updIn, hl]

theorem State.resetRefusal_none {s : State} {off : Nat} (p : Port) (h : ∀ l : Lane, (s.lane.get l).inReset (Blk.ofOff off) = false) :
    s.resetRefusal p off = (s, false) := by
  have hout (l : Lane) : (LaneVec.ofFn fun l => s.parts.get l && (s.lane.get l).inReset (Blk.ofOff off) : LaneSet).get l = false := by
    rw [LaneVec.get_ofFn, h, Bool.and_false]
  unfold State.resetRefusal
  dsimp only
  have hlost : (Lane.list.any fun l =>
      (LaneVec.ofFn fun l => s.parts.get l && (s.lane.get l).inReset (Blk.ofOff off) : LaneSet).get l && s.counting.get l) = false := by
    rw [List.any_eq_false]
    intro l _
    rw [hout, Bool.false_and]
    exact Bool.false_ne_true
  rw [hlost, if_neg Bool.false_ne_true, State.refuseIn, s.updIn_none _ hout]

section AgreedWrite

variable {s : State} {p : Port} {off : Nat} {d : Word} {bar : Writer → Nat} {go : Writer → State → State} (h : s.AgreesWb p off)

include h

theorem State.agreedBar_of_agrees (b : Nat) : s.agreedBar (s.writerOf p) off b = b := by
  obtain ⟨-, hst, hsafe, hacc, hj, -⟩ := h
  have hnone : ((s.lane.get s.leadLane).journalPlace off).isNone = false := by
    rw [← Option.not_isSome, hj]
    rfl
  have ha : (s.writerOf p).access = .configure := hacc
  unfold State.agreedBar
  rw [if_neg fun hc => hst hc.1, if_neg (not_not.2 ha), if_neg fun hc => hsafe hc.1, hnone]
  split
  · rfl
  · next hb =>
    rw [if_neg fun hc => Bool.false_ne_true hc.2]
    exact (not_not.1 hb).symm

theorem State.agreedWrite_goes (hb : bar (s.writerOf p) = 0) : s.agreedWrite p off d bar go = go (s.writerOf p) (s.keepJournal off d) := by
  have hbar := State.agreedBar_of_agrees h (bar (s.writerOf p))
  obtain ⟨hag, -, -, -, -, hres⟩ := h
  have hoff : s.mstate ≠ .off := by
    intro e
    rw [e] at hag
    cases hag
  unfold State.agreedWrite
  dsimp only
  have hin : ¬ ((0 : Nat) = 0 ∧ (!true) = true) := by decide
  rw [hbar, hb, hag, s.resetRefusal_none p hres, if_neg hin, if_neg hoff, if_neg (by decide), if_neg Bool.false_ne_true, if_neg (not_not.2 rfl)]

theorem State.agreedWrite_refuses {r : Nat} (hb : bar (s.writerOf p) = r) (h0 : r ≠ 0) (hr : r ≠ Reason.role) :
    s.agreedWrite p off d bar go = s.refuseIn s.parts p (0x40000000 + off) r := by
  have hbar := State.agreedBar_of_agrees h (bar (s.writerOf p))
  obtain ⟨hag, -, -, -, -, hres⟩ := h
  have hoff : s.mstate ≠ .off := by
    intro e
    rw [e] at hag
    cases hag
  unfold State.agreedWrite
  dsimp only
  have hin : ¬ (r = 0 ∧ (!s.mstate.agrees) = true) := fun hc => h0 hc.1
  rw [hbar, hb, s.resetRefusal_none p hres, if_neg hin, if_neg hoff, if_neg hr, if_neg Bool.false_ne_true, if_pos h0]

end AgreedWrite

/-! ### The handover (R409, R410) -/

theorem State.role_of_noBar {s : State} (h : s.handoverBar = none) : s.xo.role = .holder := by
  by_contra hr
  rw [State.handoverBar, if_pos hr] at h
  cases h

/-- The reasons that refuse a handover. -/
theorem State.handoverBar_reasons {s : State} {r : Nat} (h : s.handoverBar = some r) : 0x40 ≤ r ∧ r ≤ 0x43 := by
  unfold State.handoverBar at h
  split_ifs at h <;> cases h <;> decide

section Handover

variable {s : State} {p : Port} {d : Word} (h : s.AgreesWb p Reg.XO_CTRL) (hd : d.toNat.testBit 0 = true)

include h hd

theorem handover_starts (hb : s.handoverBar = none) : ∃ t, exec (.handover p d) s = .next t ∧ s.Steady t
    ∧ t.xo.hoCycle = some (s.cyc.num + 1) ∧ t.xo.out.offer = some (BitVec.ofNat 64 (s.cyc.num + 1)) ∧ t.xo.role = .holder := by
  have hbar : s.handoverWriteBar d = 0 := by
    rw [State.handoverWriteBar, if_pos hd, hb]
    rfl
  have hst : ¬ s.mstate = .standby := h.2.1
  have hk : s.keepJournal Reg.XO_CTRL d = s.updIn s.parts fun _ L => L.journal Reg.XO_CTRL d := if_neg hst
  refine ⟨_, congrArg Host.Outcome.next ((State.agreedWrite_goes h hbar).trans (if_pos hd)), ?_⟩
  have hrole := State.role_of_noBar hb
  rw [hk]
  exact ⟨⟨rfl, rfl, rfl⟩, rfl, rfl, hrole⟩

theorem handover_refused {r : Nat} (hb : s.handoverBar = some r) :
    exec (.handover p d) s = .next (s.refuseIn s.parts p (0x40000000 + Reg.XO_CTRL) r) := by
  have hbar : s.handoverWriteBar d = r := by
    rw [State.handoverWriteBar, if_pos hd, hb]
    rfl
  obtain ⟨h1, h2⟩ := State.handoverBar_reasons hb
  have hrole : r ≠ Reason.role := by
    intro e
    rw [e] at h1
    exact absurd h1 (by decide)
  exact congrArg Host.Outcome.next (State.agreedWrite_refuses h hbar (by omega) hrole)

end Handover

theorem handoverOffer_taken {s : State} (c : DWord) (hm : s.mstate = .standby) (hr : s.xo.role = .standby) (hs : s.xo.sync = .synced)
    (h2 : s.twoOfTwo = false) :
    exec (.handoverOffer c) s = .next { s with xo := { s.xo with hoTaken := true, hoCycle := some c.toNat } } :=
  if_pos ⟨hm, hr, hs, by rw [h2]; rfl⟩

theorem handoverOffer_ignored {s : State} (c : DWord) (h : s.xo.sync ≠ .synced ∨ s.twoOfTwo = true) : exec (.handoverOffer c) s = .next s := by
  refine if_neg ?_
  rintro ⟨-, -, hs, h2⟩
  rcases h with h | h
  · exact h hs
  · rw [h] at h2
    cases h2

theorem dutyTokStop_hands {s : State} (hr : s.xo.role = .holder) (hp : s.xo.hoPaused = true) (hc : s.xo.hoCycle.isSome = true)
    (hf : s.xo.hoConf = true) (hm : s.masterPassed = true) (hn : s.xo.confAt + 10000 ≤ s.now) :
    ∃ t, exec .dutyTokStop s = .next t ∧ s.Steady t ∧ t.xo.role = .handing := by
  have hh : s.xo.handsOver = true := by
    rw [XoSt.handsOver, hp, hc]
    rfl
  refine ⟨_, if_pos ⟨hr, hh, hf, hm, hn⟩, (State.XoMoves.setRole s .handing).steady, ?_⟩
  rw [State.setRole_xo]

theorem dutyTokStop_waits {s : State} (h : s.xo.role ≠ .holder ∨ s.xo.hoConf = false ∨ s.now < s.xo.confAt + 10000) :
    exec .dutyTokStop s = .next s := by
  refine if_neg ?_
  rintro ⟨hr, -, hf, -, hn⟩
  rcases h with h | h | h
  · exact h hr
  · rw [h] at hf
    cases hf
  · omega

/-! ### Revertive return and role swap (R412, R413) -/

/-- A handover that nothing bars starts at once. -/
theorem State.autoHandover_of_noBar {s : State} (hn : s.xo.retryAt ≤ s.now) (hb : s.handoverBar = none) :
    s.autoHandover = s.startHandover := by
  rw [State.autoHandover, if_neg (Nat.not_lt.2 hn), hb]

theorem revertiveReturn_starts {s : State} (hr : s.xo.role = .holder) (hp : s.pref = false) (h2 : s.twoOfTwo = false)
    (hh : s.revertHeld = true) (ht : s.testsSince s.xo.dutySince = true) (hn : s.xo.retryAt ≤ s.now) (hb : s.handoverBar = none) :
    ∃ t, exec .revertiveReturn s = .next t ∧ s.Steady t ∧ t.lane = s.lane ∧ t.xo.hoCycle = some (s.cyc.num + 1) := by
  refine ⟨_, if_pos ⟨hr, by rw [hp]; rfl, by rw [h2]; rfl, hh, ht⟩, ?_⟩
  rw [State.autoHandover_of_noBar hn hb]
  exact ⟨⟨rfl, rfl, rfl⟩, rfl, rfl⟩

theorem revertiveReturn_rests {s : State} (h : s.pref = true ∨ s.twoOfTwo = true ∨ s.revertHeld = false) :
    exec .revertiveReturn s = .next s := by
  refine if_neg ?_
  rintro ⟨-, hp, h2, hh, -⟩
  rcases h with h | h | h
  · rw [h] at hp
    cases hp
  · rw [h] at h2
    cases h2
  · rw [h] at hh
    cases hh

section Swap

variable {s : State} (hr : s.xo.role = .holder) (he : s.file.swapEn = true) (hs : s.swapReached = true) (hn : s.xo.retryAt ≤ s.now)

include hr he hs hn

theorem roleSwap_due : ¬ (s.xo.role ≠ .holder ∨ (!s.file.swapEn) = true ∨ (!s.swapReached) = true ∨ s.now < s.xo.retryAt) := by
  rw [he, hs]
  rintro (h | h | h | h)
  · exact h hr
  · cases h
  · cases h
  · omega

theorem roleSwap_starts (hb : s.handoverBar = none) : ∃ t, exec .roleSwap s = .next t ∧ s.Steady t
    ∧ t.xo.hoCycle = some (s.cyc.num + 1) ∧ t.xo.overdue = s.xo.overdue := by
  have hex : exec .roleSwap s = .next s.startHandover := by
    change execRoleSwap s = _
    rw [execRoleSwap, if_neg (roleSwap_due hr he hs hn), hb]
  exact ⟨_, hex, ⟨rfl, rfl, rfl⟩, rfl, rfl⟩

/-- The module with its role swap overdue, and the alarm of it where the last is an hour old. -/
def State.swapOverdue (s : State) : State :=
  let u := s.setXo fun x => { x with overdue := true, retryAt := s.now + 10000000000 }
  if !s.xo.overdue || decide (s.xo.overdueAt + 3600000000000 ≤ s.now) then (u.setXo fun x => { x with overdueAt := s.now }).xoAlarm 5 else u

theorem execRoleSwap_barred (hb : s.handoverBar.isSome = true) : exec .roleSwap s = .next s.swapOverdue := by
  obtain ⟨r, hb⟩ := Option.isSome_iff_exists.1 hb
  change execRoleSwap s = _
  rw [execRoleSwap, if_neg (roleSwap_due hr he hs hn), hb]
  rfl

theorem roleSwap_barred (hb : s.handoverBar.isSome = true) : ∃ t, exec .roleSwap s = .next t ∧ t.xo.overdue = true
    ∧ t.xo.retryAt = s.now + 10000000000
    ∧ (s.xo.overdue = false ∨ s.xo.overdueAt + 3600000000000 ≤ s.now → t.xo.overdueAt = s.now
      ∧ ∀ l : Lane, s.parts.get l = true → t.ErrSet l (Blk.ofOff Base.xo) 5) := by
  refine ⟨_, execRoleSwap_barred hr he hs hn hb, ?_⟩
  unfold State.swapOverdue
  extract_lets u
  split
  · have hal := State.Reacts.xoAlarm (u.setXo fun x => { x with overdueAt := s.now }) 5
    refine ⟨hal.overdue, ?_, fun _ => ⟨hal.overdueAt, fun l hl => State.xoAlarm_errSet _ (by decide) hl⟩⟩
    rcases hal.retry with e | e
    · exact e
    · exact e
  · next hno =>
    refine ⟨rfl, rfl, fun h => absurd ?_ hno⟩
    rcases h with h | h
    · rw [h]
      rfl
    · rw [decide_eq_true h, Bool.or_true]

end Swap

theorem roleSwap_rests {s : State} (h : s.xo.role ≠ .holder ∨ s.swapReached = false ∨ s.now < s.xo.retryAt) :
    exec .roleSwap s = .next s := by
  refine if_pos ?_
  rcases h with h | h | h
  · exact .inl h
  · exact .inr (.inr (.inl (by rw [h]; rfl)))
  · exact .inr (.inr (.inr h))

end Sys2Proof.Machine
end

section
/-! The old holder becomes the standby once its ladders are open (R410), and enters SAFE at the limit of 2-out-of-2 operation (R55). -/

namespace Sys2Proof.Machine

/-- A unit that holds back no output. -/
def UnitAdm.unlatched (a : UnitAdm) : UnitAdm := { a with latch := 0 }

/-- No unit of a list without a held output holds one. -/
theorem getD_unlatched (adm : List (Nat × UnitAdm)) (u : Nat) :
    (getD {} (adm.map fun e : Nat × UnitAdm => (e.1, e.2.unlatched)) u).latch = 0 := by
  unfold getD
  induction adm with
  | nil => rfl
  | cons e es ih =>
    obtain ⟨k, a⟩ := e
    rw [List.map_cons, SMap.get]
    split
    · rfl
    · exact ih

/-- What the old holder is when it has become the standby. -/
structure State.StandsBy (s t : State) : Prop where
  mstate  : t.mstate = .standby
  gate    : t.gate = s.gate
  ctl     : t.ctl = s.ctl
  deg     : t.deg = s.deg
  role    : t.xo.role = .standby
  sync    : t.xo.sync = .synced
  overdue : t.xo.overdue = false
  latch   : t.xo.latch = 0
  units   : ∀ u : Nat, (t.unitAdm u).latch = 0
  cmd     : ∀ l : Lane, (t.lane.get l).field.cmd = 0

/-- The last stage of the old holder's way: the standby of a lineside link is integrated in it. -/
def State.integrateLink (s : State) : State :=
  if s.role = .lineside ∧ s.link.node = .answering then { s with link := { s.link with node := .integrated } } else s

theorem State.integrateLink_frame (s : State) : ∃ link, s.integrateLink = { s with link := link } := by
  unfold State.integrateLink
  split
  · exact ⟨_, rfl⟩
  · exact ⟨s.link, rfl⟩

/-- The old holder as it is before it enters STANDBY. -/
def State.layDown (s : State) : State :=
  let u := s.abandonChange.updAll fun _ L => { L.closeShadows with field := { L.field with cmd := 0, want := 0 } }
  let v := (u.setRole .standby).setXo fun x => { x with
    sync := .synced, gen := u.gen, pagesGen := 2, pages := List.range copyPages, hoCycle := none, hoPaused := false, hoConf := false
    holdSince := some u.now, hoTaken := false, armSeen := false
    sinceDuty := if s.testsSince s.xo.dutySince then u.now else x.sinceDuty, overdue := false, latch := 0 }
  { v with prepare := none, confirmed := false, lockedGens := [], adm := v.adm.map fun e : Nat × UnitAdm => (e.1, e.2.unlatched) }

/-- The old holder as the standby that it becomes. -/
def State.standDown (s : State) : State := ((s.layDown.enter .standby).openSessions.count Reg.XO_EVENTS 8 8 1).integrateLink

theorem execOldLaddersOpen_handing {s : State} (hr : s.xo.role = .handing) :
    exec .oldLaddersOpen s = .next (if s.standDown.deg.expired then s.standDown.safeByAll 0x04 else s.standDown) :=
  if_neg (not_not.2 hr)

/-- A change of role keeps what each lane keeps. -/
theorem State.setRole_keeps (s : State) (r : PairRole) (l : Lane) : (s.lane.get l).Keeps ((s.setRole r).lane.get l) := by
  unfold State.setRole
  split
  · exact .refl _
  · exact (Reacts.irq (fun _ => True) ({ s with xo := { s.xo with role := r } } : State) Base.xo 1).lane l

/-- What the old holder has laid down before it enters STANDBY. -/
theorem State.layDown_facts (s : State) : s.layDown.drv = s.drv ∧ s.layDown.ctl = s.ctl ∧ s.layDown.deg = s.deg
    ∧ s.layDown.xo.role = .standby ∧ s.layDown.xo.sync = .synced ∧ s.layDown.xo.overdue = false ∧ s.layDown.xo.latch = 0
    ∧ (∀ u : Nat, (s.layDown.unitAdm u).latch = 0) ∧ ∀ l : Lane, (s.layDown.lane.get l).field.cmd = 0 := by
  unfold State.layDown
  extract_lets u v
  obtain ⟨lane, chg, ha⟩ := s.abandonChange_frame
  have hu : u.drv = s.drv ∧ u.ctl = s.ctl ∧ u.deg = s.deg := by
    unfold u
    rw [ha]
    exact ⟨rfl, rfl, rfl⟩
  have hcmd (l : Lane) : (u.lane.get l).field.cmd = 0 := by
    unfold u
    rw [State.updAll_lane]
  clear_value u
  have hm := State.XoMoves.setRole u .standby
  have hv : v.drv = u.drv ∧ v.ctl = u.ctl ∧ v.deg = u.deg := by
    unfold v
    change (u.setRole .standby).drv = _ ∧ (u.setRole .standby).ctl = _ ∧ (u.setRole .standby).deg = _
    rw [hm.rest]
    exact ⟨rfl, rfl, rfl⟩
  have hk (l : Lane) : (v.lane.get l).field.cmd = 0 := by
    exact (u.setRole_keeps .standby l).cmd (hcmd l)
  have hrole : v.xo.role = .standby := (congrArg XoSt.role (u.setRole_xo .standby) :)
  obtain ⟨h1, h2, h3⟩ := hu
  obtain ⟨k1, k2, k3⟩ := hv
  exact ⟨k1.trans h1, k2.trans h2, k3.trans h3, hrole, rfl, rfl, rfl, getD_unlatched _, hk⟩

/-- What the entry into STANDBY and the opening of sessions leave as it was. -/
structure State.Stands (s t : State) : Prop where
  drv  : t.drv = { s.drv with mstate := .standby }
  ctl  : t.ctl = s.ctl
  deg  : t.deg = s.deg
  xo   : t.xo = s.xo
  adm  : t.adm = s.adm
  lane : ∀ l, (s.lane.get l).Keeps (t.lane.get l)

theorem State.enter_stands (s : State) : s.Stands (s.enter .standby) := by
  have h := s.enter_shows .standby
  exact { drv := h.drv, ctl := h.ctl, deg := by rw [h.rest], xo := h.xo, adm := by rw [h.rest], lane := h.lane }

theorem State.Stands.forms {s t u : State} (h : s.Stands t) (k : t.Forms u) : s.Stands u where
  drv := by rw [k.rest]; exact h.drv
  ctl := by rw [k.rest]; exact h.ctl
  deg := by rw [k.rest]; exact h.deg
  xo := by rw [k.rest]; exact h.xo
  adm := by rw [k.rest]; exact h.adm
  lane := fun l => (h.lane l).trans (k.lane l)

theorem State.Stands.link {s t : State} (h : s.Stands t) (link : LinkSt) : s.Stands { t with link := link } :=
  ⟨h.drv, h.ctl, h.deg, h.xo, h.adm, h.lane⟩

theorem State.standDown_stands (s : State) : s.layDown.Stands s.standDown := by
  have hf := s.layDown.enter_stands.forms ((State.Forms.openSessions _).trans
    (.of_sends (.count _ (off := Reg.XO_EVENTS) 8 8 1 (by decide))))
  obtain ⟨link, hl⟩ := ((s.layDown.enter .standby).openSessions.count Reg.XO_EVENTS 8 8 1).integrateLink_frame
  have ht : s.standDown = _ := hl
  rw [ht]
  exact hf.link link

theorem State.standDown_standsBy (s : State) : s.StandsBy s.standDown := by
  obtain ⟨hd, hc, hg, hrole, hsync, hov, hlatch, hunits, hcmd⟩ := s.layDown_facts
  have h := s.standDown_stands
  have hx : s.standDown.xo = s.layDown.xo := h.xo
  have ha : s.standDown.adm = s.layDown.adm := h.adm
  have hdrv : s.standDown.drv = { s.drv with mstate := .standby } := by rw [← hd]; exact h.drv
  exact
    { mstate := by rw [State.mstate, hdrv]
      gate := by rw [State.gate, hdrv, State.gate]
      ctl := h.ctl.trans hc
      deg := h.deg.trans hg
      role := (congrArg XoSt.role hx).trans hrole
      sync := (congrArg XoSt.sync hx).trans hsync
      overdue := (congrArg XoSt.overdue hx).trans hov
      latch := (congrArg XoSt.latch hx).trans hlatch
      units := fun u => by rw [State.unitAdm, ha]; exact hunits u
      cmd := fun l => (h.lane l).cmd (hcmd l) }

/-- The modes of the lanes decide which of them leads. -/
theorem State.lead_of_mode {s t : State} (h : ∀ l, t.mode l = s.mode l) : t.lead = s.lead := by
  have ha : t.isActive = s.isActive := by
    funext l
    rw [State.isActive, h]
    rfl
  rw [State.lead, State.active, ha]
  rfl

/-! ### The clause of the open ladders -/

section OldLadders

variable {s : State} (hr : s.xo.role = .handing)

include hr

theorem oldLaddersOpen_stands (h : s.deg.expired = false) : ∃ t, exec .oldLaddersOpen s = .next t ∧ s.StandsBy t := by
  have hs := s.standDown_standsBy
  refine ⟨_, execOldLaddersOpen_handing hr, ?_⟩
  rw [hs.deg, h]
  exact hs

theorem oldLaddersOpen_stops (h : s.deg.expired = true) (hg : s.gate = false) (hl : s.lead.isSome = true) :
    ∃ t, exec .oldLaddersOpen s = .next t ∧ t.Stopped := by
  have hs := s.standDown_standsBy
  have hmode (l : Lane) : s.standDown.mode l = s.mode l := congrArg (fun c : LaneVec LaneCtl => (c.get l).mode) hs.ctl
  refine ⟨_, execOldLaddersOpen_handing hr, ?_⟩
  rw [hs.deg, h]
  exact s.standDown.safeByAll_stopped 0x04 (by rwa [State.lead_of_mode hmode]) (hs.gate.trans hg)

end OldLadders

end Sys2Proof.Machine
end

section
/-! A copy of the peer's state taken (R394, R395): what the lanes and the module hold of it. -/

namespace Sys2Proof.Machine

/-! ### What a lane holds of a copy -/

/-- The published image, the cells' bits and the configuration bank of a lane stand. -/
structure LaneSt.SameCopy (L M : LaneSt) : Prop where
  published : M.image.published = L.image.published
  blkMem    : M.logic.blkMem = L.logic.blkMem
  loc       : M.logic.loc = L.logic.loc
  prv       : M.logic.prv = L.logic.prv
  bank      : M.logic.bank = L.logic.bank

namespace LaneSt.SameCopy

variable {L M N : LaneSt}

theorem refl (L : LaneSt) : L.SameCopy L := ⟨rfl, rfl, rfl, rfl, rfl⟩

theorem trans (h : L.SameCopy M) (k : M.SameCopy N) : L.SameCopy N :=
  ⟨k.published.trans h.published, k.blkMem.trans h.blkMem, k.loc.trans h.loc, k.prv.trans h.prv, k.bank.trans h.bank⟩

theorem foldl {α : Type} {f : LaneSt → α → LaneSt} (h : ∀ (L : LaneSt) (a : α), L.SameCopy (f L a)) :
    ∀ (xs : List α) (L : LaneSt), L.SameCopy (xs.foldl f L)
  | [], L => refl L
  | x :: xs, L => (h L x).trans (foldl h xs (f L x))

theorem ite {c : Prop} [Decidable c] (hM : L.SameCopy M) (hN : L.SameCopy N) : L.SameCopy (if c then M else N) := by
  split
  · exact hM
  · exact hN

theorem of_logic (hi : M.image.published = L.image.published) (hl : M.logic = L.logic) : L.SameCopy M :=
  ⟨hi, congrArg LogicSt.blkMem hl, congrArg LogicSt.loc hl, congrArg LogicSt.prv hl, congrArg LogicSt.bank hl⟩

theorem setReg (L : LaneSt) (off : Nat) (v : Word) : L.SameCopy (L.setReg off v) := of_logic rfl rfl

theorem setFld (L : LaneSt) (off lo w x : Nat) : L.SameCopy (L.setFld off lo w x) := of_logic rfl rfl

theorem maxFld (L : LaneSt) (off lo w x : Nat) : L.SameCopy (L.maxFld off lo w x) := of_logic rfl rfl

theorem setSession (L : LaneSt) (n : Nat) (f : SessSt → SessSt) : L.SameCopy (L.setSession n f) := of_logic rfl rfl

theorem setUnitRx (L : LaneSt) (u : Nat) (f : UnitRx → UnitRx) : L.SameCopy (L.setUnitRx u f) := of_logic rfl rfl

theorem record (L : LaneSt) (path : Word) (code : Half) (cls flags cycle : Nat) (data : BitVec 48) :
    L.SameCopy (L.record path code cls flags cycle data) := of_logic (by rw [L.record_image]) (L.record_logic ..)

theorem trimStore (L : LaneSt) : L.SameCopy L.trimStore := of_logic rfl rfl

theorem expirePins (L : LaneSt) (lo w : Nat) (hit : Pin → Bool) : L.SameCopy (L.expirePins lo w hit) := of_logic rfl rfl

theorem fitStore : ∀ (n : Nat) (L : LaneSt) (k : Nat), L.SameCopy (LaneSt.fitStore n L k)
  | 0, L, _ => refl L
  | n + 1, L, k => by
    unfold LaneSt.fitStore
    refine ite (refl L) ?_
    split
    · exact (expirePins ..).trans (fitStore n _ k)
    · exact refl L

theorem keepLines (L : LaneSt) (gen : Nat) (buf : List Host.Cell) (lines : List Nat) : L.SameCopy (L.keepLines gen buf lines) := by
  unfold LaneSt.keepLines
  extract_lets M needed _ N
  have hM : L.SameCopy M := (trimStore L).trans (fitStore ..)
  have hN : M.SameCopy N := ite (of_logic rfl rfl) (refl M)
  exact hM.trans (hN.trans (maxFld ..))

theorem noteLines (L : LaneSt) (n : Nat) : L.SameCopy (L.noteLines n) := of_logic rfl rfl

theorem writeCopy (L : LaneSt) (role : Role) (r : Nat) : L.SameCopy (L.writeCopy role r) := of_logic rfl rfl

theorem clearTally (L : LaneSt) (role : Role) (groups : Nat) (bad : List Nat) : L.SameCopy (L.clearTally role groups bad) := by
  refine foldl (fun L g => ite (foldl (fun L r => ?_) _ L) (refl L)) _ L
  have h : L.SameCopy (L.setTally r fun t => { t with payload := [], dirty := true }) := of_logic rfl rfl
  exact h.trans (ite (refl _) (writeCopy ..))

theorem applyJournal (L : LaneSt) (own : Bool) : L.SameCopy (L.applyJournal own) := by
  refine foldl (fun L n => ?_) _ L
  dsimp only
  refine ite (refl L) ?_
  split
  · exact ite (refl L) (setReg ..)
  · exact refl L

theorem noteShown (L : LaneSt) (tamper : Bool) : L.SameCopy (L.noteShown tamper) := ⟨rfl, rfl, rfl, rfl, rfl⟩

theorem noteRegs (L : LaneSt) (gen : Nat) (runId areas : Word) (cycle forces timers : Nat) (tamper : Bool) :
    L.SameCopy (L.noteRegs gen runId areas cycle forces timers tamper) := by
  unfold LaneSt.noteRegs
  extract_lets A B C D used E
  have hA : L.SameCopy A := (setReg ..).trans (setReg ..)
  have hB : A.SameCopy B := (setReg ..).trans (setReg ..)
  have hC : B.SameCopy C := (setReg ..).trans (setReg ..)
  have hD : C.SameCopy D := (setReg ..).trans (setFld ..)
  have hE : D.SameCopy E := (setFld ..).trans (maxFld ..)
  exact (((hA.trans hB).trans hC).trans hD).trans (hE.trans (noteShown ..))

theorem ageClosed (L : LaneSt) : L.SameCopy L.ageClosed := by
  unfold LaneSt.ageClosed
  extract_lets shut
  clear_value shut
  exact ⟨rfl, rfl, rfl, rfl, rfl⟩

end LaneSt.SameCopy

/-- The image that a lane makes of its own and of the pages of a copy. -/
def LaneSt.copyImage (L : LaneSt) (c : CopyData) : List Host.Cell :=
  c.image.foldl (fun m e => memPut m e.1 e.2)
    (L.image.published.filter fun e => !(c.pages.map fun p => p.toNat).contains (e.1 / 4096))

theorem LaneSt.applyCopy_holds (L : LaneSt) (report : Nat → Bool) (c : CopyData) :
    (L.applyCopy report c).image.published = L.copyImage c ∧ (L.applyCopy report c).logic.bank = L.logic.bank := by
  unfold LaneSt.applyCopy
  extract_lets ps rest lines M img g _ N P Q
  have hM : L.SameCopy M := (SameCopy.keepLines ..).trans (.noteLines ..)
  have hP : N.SameCopy P := .foldl (fun L e => .ite (.refl L) (.setSession ..)) _ N
  have hQ : P.SameCopy Q := .foldl (fun L (u : UnitCopy) => by
    split
    · exact .setUnitRx ..
    · exact .refl L) _ P
  have hR : Q.SameCopy (Q.agePins Q.pubGen) := .expirePins ..
  have h := hP.trans (hQ.trans hR)
  have hi : img = L.copyImage c := by
    unfold img LaneSt.copyImage
    rw [hM.published]
    simp only [rest, ps, Nat.zero_add]
  exact ⟨h.published.trans hi, h.bank.trans hM.bank⟩

/-! ### What the module holds of a copy -/

/-- The drive, the lanes' modes, what waits, the numbers and what the lanes hold of a copy stand. -/
structure State.CopyStands (s t : State) : Prop where
  drv     : t.drv = s.drv
  ctl     : t.ctl = s.ctl
  pending : t.pending = s.pending
  file    : t.file = s.file
  gen     : t.gen = s.gen
  runId   : t.runId = s.runId
  areas   : t.areas = s.areas
  num     : t.cyc.num = s.cyc.num
  xo      : t.xo = s.xo
  lane    : ∀ l, (s.lane.get l).SameCopy (t.lane.get l)

namespace State.CopyStands

variable {s t u : State}

theorem refl (s : State) : s.CopyStands s := ⟨rfl, rfl, rfl, rfl, rfl, rfl, rfl, rfl, rfl, fun _ => .refl _⟩

theorem trans (h : s.CopyStands t) (k : t.CopyStands u) : s.CopyStands u where
  drv := k.drv.trans h.drv
  ctl := k.ctl.trans h.ctl
  pending := k.pending.trans h.pending
  file := k.file.trans h.file
  gen := k.gen.trans h.gen
  runId := k.runId.trans h.runId
  areas := k.areas.trans h.areas
  num := k.num.trans h.num
  xo := k.xo.trans h.xo
  lane l := (h.lane l).trans (k.lane l)

theorem foldl {α : Type} {g : State → α → State} (h : ∀ (s : State) (a : α), s.CopyStands (g s a)) :
    ∀ (xs : List α) (s : State), s.CopyStands (xs.foldl g s)
  | [], s => refl s
  | x :: xs, s => (h s x).trans (foldl h xs (g s x))

theorem ite {c : Prop} [Decidable c] {a b : State} (ha : s.CopyStands a) (hb : s.CopyStands b) : s.CopyStands (if c then a else b) := by
  split
  · exact ha
  · exact hb

theorem updIn (s : State) (ls : LaneSet) {f : Lane → LaneSt → LaneSt} (h : ∀ (l : Lane) (L : LaneSt), L.SameCopy (f l L)) :
    s.CopyStands (s.updIn ls f) :=
  ⟨rfl, rfl, rfl, rfl, rfl, rfl, rfl, rfl, rfl, fun l => by
    rw [State.updIn_lane]
    exact .ite (h l _) (.refl _)⟩

theorem updAll (s : State) {f : Lane → LaneSt → LaneSt} (h : ∀ (l : Lane) (L : LaneSt), L.SameCopy (f l L)) :
    s.CopyStands (s.updAll f) := updIn s _ h

theorem setUnit (s : State) (u : Nat) (f : UnitAdm → UnitAdm) : s.CopyStands (s.setUnit u f) := ⟨rfl, rfl, rfl, rfl, rfl, rfl, rfl, rfl, rfl, fun _ => .refl _⟩

theorem adm (s : State) (adm : List (Nat × UnitAdm)) : s.CopyStands { s with adm := adm } := ⟨rfl, rfl, rfl, rfl, rfl, rfl, rfl, rfl, rfl, fun _ => .refl _⟩

theorem link (s : State) (link : LinkSt) : s.CopyStands { s with link := link } := ⟨rfl, rfl, rfl, rfl, rfl, rfl, rfl, rfl, rfl, fun _ => .refl _⟩

theorem chg (s : State) (chg : ChgSt) : s.CopyStands { s with chg := chg } := ⟨rfl, rfl, rfl, rfl, rfl, rfl, rfl, rfl, rfl, fun _ => .refl _⟩

theorem power (s : State) (power : PowerSt) : s.CopyStands { s with power := power } := ⟨rfl, rfl, rfl, rfl, rfl, rfl, rfl, rfl, rfl, fun _ => .refl _⟩

theorem setClass (s : State) (k : Blk) (bit : Nat) (c : FClass) : s.CopyStands (s.setClass k bit c) :=
  ⟨rfl, rfl, rfl, rfl, rfl, rfl, rfl, rfl, rfl, fun _ => .refl _⟩

theorem event (s : State) (base n data : Nat) : s.CopyStands (s.event base n data) := updIn s _ fun _ _ => .record ..

theorem journalClasses (s : State) : s.CopyStands s.journalClasses := by
  refine foldl (fun s n => ?_) _ s
  dsimp only
  refine ite ?_ (refl s)
  split
  · exact setClass ..
  · exact refl s

theorem journalTally (s : State) (old : Option Nat) : s.CopyStands (s.journalTally old) := by
  unfold State.journalTally
  split
  · refine ite (refl s) ?_
    have h : ∀ g : Nat, s.CopyStands (s.updAll fun l L => L.clearTally s.role g (badOf [] l)) :=
      fun g => updAll s fun _ _ => .clearTally ..
    exact (h _).trans (event ..)
  · exact refl s

end State.CopyStands

/-- The module's numbers are those of a copy. -/
def State.takeNumbers (s : State) (c : CopyData) : State :=
  { s with
    gen := c.gen.toNat, runId := c.runId, areas := c.areas, inpPrev := s.inp, inp := SMap.puts (fun _ => 0) [] c.inputs
    cyc := { s.cyc with num := c.cycle.toNat }, comm := s.hdrState.testBit 8 }

theorem State.takeCopy_stands (s : State) (c : CopyData) : (s.takeNumbers c).CopyStands (s.takeCopy c) := by
  unfold State.takeCopy
  extract_lets _ u v w x _ y _ z
  have hu : s.takeNumbers c = u := rfl
  rw [hu]
  have hv : u.CopyStands v := .updAll u fun _ _ => .setReg ..
  have hw : v.CopyStands w := .adm ..
  have hx : w.CopyStands x := .foldl (fun s _ => .setUnit ..) _ w
  have hy : x.CopyStands y := by
    unfold y
    split
    · exact .link ..
    · exact .refl x
  have hz : y.CopyStands z := by
    unfold z
    split
    · exact .ite (.chg ..) (.refl y)
    · exact .ite (.chg ..) (.refl y)
  have h := hv.trans (hw.trans (hx.trans (hy.trans hz)))
  clear_value z
  exact h.trans (.ite (.link ..) (.refl z))

end Sys2Proof.Machine
end

section
/-! A copy of the peer's state compared with what the lanes hold of it (R395 to R397). -/

namespace Sys2Proof.Machine

/-! ### The lane that stands for what the lanes agree -/

theorem State.leadLane_of_mode {s t : State} (h : ∀ l, t.mode l = s.mode l) : t.leadLane = s.leadLane := by
  rw [State.leadLane, State.lead_of_mode h, State.leadLane]

theorem State.leadLane_parts {s : State} (h : s.lead.isSome = true) : s.parts.get s.leadLane = true := by
  obtain ⟨l, hl⟩ := Option.isSome_iff_exists.1 h
  have ha : s.isActive l = true := by
    have hf := List.find?_some hl
    rwa [State.active, LaneVec.get_ofFn] at hf
  have hlead : s.leadLane = l := by rw [State.leadLane, hl]; rfl
  rw [hlead, State.parts]
  split
  · rw [State.inStep, LaneVec.get_ofFn]
    exact Bool.or_eq_true_iff.2 (.inl ha)
  · exact LaneVec.get_all ..

/-! ### A copy taken -/

/-- The module holds what a copy carries: the lead lane's numbers, each lane's image. -/
structure State.HoldsCopy (c : LaneVec CopyData) (s t : State) : Prop where
  drv       : t.drv = s.drv
  ctl       : t.ctl = s.ctl
  pending   : t.pending = s.pending
  file      : t.file = s.file
  gen       : t.gen = (c.get s.leadLane).gen.toNat
  runId     : t.runId = (c.get s.leadLane).runId
  areas     : t.areas = (c.get s.leadLane).areas
  num       : t.cyc.num = (c.get s.leadLane).cycle.toNat
  sync      : t.xo.sync = s.xo.sync
  pages     : t.xo.pages = s.xo.pages
  pagesGen  : t.xo.pagesGen = s.xo.pagesGen
  published : ∀ l : Lane, s.parts.get l = true → (t.lane.get l).image.published = (s.lane.get l).copyImage (c.get l)
  bank      : ∀ l : Lane, (t.lane.get l).logic.bank = (s.lane.get l).logic.bank

namespace State.HoldsCopy

variable {c : LaneVec CopyData} {s t u : State}

theorem andThen (h : s.HoldsCopy c t) (k : t.CopyStands u) : s.HoldsCopy c u where
  drv := k.drv.trans h.drv
  ctl := k.ctl.trans h.ctl
  pending := k.pending.trans h.pending
  file := k.file.trans h.file
  gen := k.gen.trans h.gen
  runId := k.runId.trans h.runId
  areas := k.areas.trans h.areas
  num := k.num.trans h.num
  sync := (congrArg XoSt.sync k.xo).trans h.sync
  pages := (congrArg XoSt.pages k.xo).trans h.pages
  pagesGen := (congrArg XoSt.pagesGen k.xo).trans h.pagesGen
  published l hl := (k.lane l).published.trans (h.published l hl)
  bank l := (k.lane l).bank.trans (h.bank l)

theorem mode (h : s.HoldsCopy c t) (l : Lane) : t.mode l = s.mode l := by rw [State.mode, h.ctl, State.mode]

theorem leadLane (h : s.HoldsCopy c t) : t.leadLane = s.leadLane := State.leadLane_of_mode h.mode

theorem hdrState (h : s.HoldsCopy c t) (hl : s.lead.isSome = true) :
    t.hdrState = memLe ((s.lane.get s.leadLane).copyImage (c.get s.leadLane)) 0x18 4 := by
  rw [State.hdrState, h.leadLane, h.published _ (State.leadLane_parts hl)]

/-- A copy that carries the standby's own file is no copy of another one. -/
theorem otherFile (h : s.HoldsCopy c t) (hl : s.lead.isSome = true) (gen : Nat)
    (hf : BitVec.ofNat 32 (memLe ((s.lane.get s.leadLane).copyImage (c.get s.leadLane)) 0x1C 4) = s.fileDigest) :
    t.otherFile gen = none := by
  have hd : t.fileDigest = s.fileDigest := by rw [State.fileDigest, h.file, State.fileDigest]
  unfold State.otherFile
  dsimp only
  rw [h.leadLane, h.published _ (State.leadLane_parts hl), hf, hd]
  exact if_neg fun hc => hc.2 rfl

end State.HoldsCopy

/-- A module that is not synchronised only notes that a change is armed. -/
theorem State.noteArmed_of_unsynced {s : State} (h : s.xo.sync ≠ .synced) (armed : Option (DWord × Bool)) :
    s.noteArmed armed = s.setXo fun x => { x with armSeen := armed.isSome } := by
  have hb : (s.xo.sync != .synced) = true := bne_iff_ne.2 h
  unfold State.noteArmed
  dsimp only
  split
  · next t => exact if_pos (Bool.or_eq_true_iff.2 (.inr hb))
  · rfl

theorem State.applyCopies_holds {c : LaneVec CopyData} {s : State} (hs : s.xo.sync ≠ .synced) (hl : s.lead.isSome = true)
    (hb : (memLe ((s.lane.get s.leadLane).copyImage (c.get s.leadLane)) 0x18 4).testBit 10 = ((s.lane.get s.leadLane).logic.bank == 1)) :
    s.HoldsCopy c (s.applyCopies c) := by
  unfold State.applyCopies
  extract_lets report old u v w
  have harm : u.noteArmed (c.get u.leadLane).armed = u.setXo fun x => { x with armSeen := (c.get u.leadLane).armed.isSome } :=
    State.noteArmed_of_unsynced (s := u) hs _
  have hlane (l : Lane) : u.lane.get l
      = if s.parts.get l then (s.lane.get l).applyCopy report (c.get l) else s.lane.get l := State.updIn_lane ..
  have h0 : s.HoldsCopy c ((u.noteArmed (c.get u.leadLane).armed).takeNumbers (c.get u.leadLane)) := by
    rw [harm]
    exact
      { drv := rfl, ctl := rfl, pending := rfl, file := rfl, gen := rfl, runId := rfl, areas := rfl, num := rfl
        sync := rfl, pages := rfl, pagesGen := rfl
        published := fun l hp => by
          change (u.lane.get l).image.published = _
          rw [hlane, if_pos hp, (LaneSt.applyCopy_holds ..).1]
        bank := fun l => by
          change (u.lane.get l).logic.bank = _
          rw [hlane]
          split
          · exact (LaneSt.applyCopy_holds ..).2
          · rfl }
  have hv : s.HoldsCopy c v := ((h0.andThen (State.takeCopy_stands ..)).andThen (.journalClasses _)).andThen (.journalTally ..)
  have hw : s.HoldsCopy c w := hv.andThen (.updIn v _ fun _ _ => .applyJournal ..)
  clear_value w
  have hchg : w.takeChange c = w := if_neg fun hc => hs (hw.sync ▸ hc.1)
  have hswap : w.followSwap = w := by
    refine if_pos ?_
    rw [hw.hdrState hl, hb, hw.leadLane, hw.bank]
  rw [hchg, hswap]
  exact hw

/-! ### A copy shown -/

/-- The pages to resynchronise are marked: the modes stand, and no lane outside RESYNC is touched. -/
structure State.Marks (s t : State) : Prop where
  rest : t = { s with lx := t.lx, ctl := t.ctl }
  mode : ∀ l, t.mode l = s.mode l
  ctl  : ∀ l, s.mode l ≠ .resync → t.ctl.get l = s.ctl.get l

namespace State.Marks

variable {s t u : State}

theorem refl (s : State) : s.Marks s := ⟨rfl, fun _ => rfl, fun _ _ => rfl⟩

theorem trans (h : s.Marks t) (k : t.Marks u) : s.Marks u :=
  ⟨by rw [k.rest, h.rest], fun l => (k.mode l).trans (h.mode l), fun l hl => (k.ctl l (by rwa [h.mode])).trans (h.ctl l hl)⟩

theorem foldl {α : Type} {g : State → α → State} (h : ∀ (s : State) (a : α), s.Marks (g s a)) :
    ∀ (xs : List α) (s : State), s.Marks (xs.foldl g s)
  | [], s => refl s
  | x :: xs, s => (h s x).trans (foldl h xs (g s x))

theorem setCtl {s : State} {x : Lane} (hx : s.mode x = .resync) {f : LaneCtl → LaneCtl} (hf : ∀ c, (f c).mode = c.mode) :
    s.Marks (s.setCtl x f) where
  rest := rfl
  mode l := by
    by_cases e : l = x
    · rw [e, State.mode, State.setCtl, LaneVec.get_set_self, hf, State.mode]
    · rw [State.mode, State.setCtl, LaneVec.get_set_of_ne _ _ e, State.mode]
  ctl l hl := by
    have e : l ≠ x := by
      rintro rfl
      exact hl hx
    rw [State.setCtl, LaneVec.get_set_of_ne _ _ e]

theorem markPages (s : State) : s.Marks s.markPages := by
  unfold State.markPages
  extract_lets now old _ u
  have hu : s.Marks u := ⟨rfl, fun _ => rfl, fun _ _ => rfl⟩
  refine hu.trans (foldl (fun s x => ?_) _ u)
  split
  · next hx => exact setCtl hx fun _ => rfl
  · exact refl s

end State.Marks

/-- The pages of a copy noted, before it is compared. -/
def State.notedCopy (s : State) (c : LaneVec CopyData) : State :=
  let s := { s with power := { s.power with forceInd := decide (s.hdrState / 64 % 8 ≠ 0) } }
  let s := s.updIn s.parts fun _ L =>
    (L.noteRegs s.gen s.runId s.areas s.cyc.num L.forceCount (L.runningTimers s.file) s.power.tamper).ageClosed
  s.markPages.notePages c

/-- What is compared of a copy: every page has come, or nothing yet. -/
def State.judgedCopy (s : State) (c : LaneVec CopyData) : Bool × State := if s.xo.pagesGen = 0 then (false, s) else s.compareCopy c

theorem State.showCopy_eq (s : State) (c : LaneVec CopyData) : s.showCopy c
    = ((if ((s.notedCopy c).judgedCopy c).1 then
        ((s.notedCopy c).judgedCopy c).2.copyConfirmed (c.get (s.notedCopy c).leadLane).gen.toNat
      else ((s.notedCopy c).judgedCopy c).2).noteSeen) := rfl

/-- A module that has noted a copy which it holds: its pages are counted, the lanes that resynchronise have them marked. -/
structure State.NotesCopy (c : LaneVec CopyData) (s w : State) : Prop where
  drv       : w.drv = s.drv
  pending   : w.pending = s.pending
  mode      : ∀ l : Lane, w.mode l = s.mode l
  ctl       : ∀ l : Lane, s.mode l ≠ .resync → w.ctl.get l = s.ctl.get l
  gen       : w.gen = (c.get s.leadLane).gen.toNat
  runId     : w.runId = (c.get s.leadLane).runId
  areas     : w.areas = (c.get s.leadLane).areas
  num       : w.cyc.num = (c.get s.leadLane).cycle.toNat
  published : ∀ l : Lane, s.parts.get l = true → (w.lane.get l).image.published = (s.lane.get l).copyImage (c.get l)
  sync      : w.xo.sync = s.xo.sync
  xoGen     : w.xo.gen = (c.get s.leadLane).gen.toNat
  pagesGen  : w.xo.pagesGen = if copyPages ≤ w.xo.pages.length then min 2 (s.xo.pagesGen + 1) else 0

theorem State.HoldsCopy.notedCopy {c : LaneVec CopyData} {s t : State} (h : s.HoldsCopy c t) : s.NotesCopy c (t.notedCopy c) := by
  unfold State.notedCopy
  extract_lets _ u v
  have hv : s.HoldsCopy c v := (h.andThen (.power ..)).andThen (.updIn u _ fun _ _ => (LaneSt.SameCopy.noteRegs ..).trans (.ageClosed _))
  clear_value v
  have hm := State.Marks.markPages v
  generalize v.markPages = w at hm
  have hmode (l : Lane) : w.mode l = s.mode l := (hm.mode l).trans (hv.mode l)
  have hlead : w.leadLane = s.leadLane := State.leadLane_of_mode hmode
  have hdrv : w.drv = v.drv ∧ w.pending = v.pending ∧ w.gen = v.gen ∧ w.runId = v.runId ∧ w.areas = v.areas ∧ w.cyc = v.cyc
      ∧ w.lane = v.lane ∧ w.xo = v.xo := by
    rw [hm.rest]
    exact ⟨rfl, rfl, rfl, rfl, rfl, rfl, rfl, rfl⟩
  obtain ⟨hd, hp, hg, hr, ha, hc, hl, hx⟩ := hdrv
  exact
    { drv := hd.trans hv.drv
      pending := hp.trans hv.pending
      mode := hmode
      ctl := fun l hl => (hm.ctl l (by rwa [hv.mode])).trans (by rw [hv.ctl])
      gen := hg.trans hv.gen
      runId := hr.trans hv.runId
      areas := ha.trans hv.areas
      num := (congrArg CycSt.num hc).trans hv.num
      published := fun l hp => by
        change (w.lane.get l).image.published = _
        rw [hl, hv.published l hp]
      sync := (congrArg XoSt.sync hx).trans hv.sync
      xoGen := by rw [← hlead]; rfl
      pagesGen := by rw [← hv.pagesGen, ← hx]; rfl }

/-! ### A copy compared -/

/-- The numbers of the module and what each lane holds are retained. -/
structure State.Retains (s t : State) : Prop where
  gen   : t.gen = s.gen
  runId : t.runId = s.runId
  areas : t.areas = s.areas
  num   : t.cyc.num = s.cyc.num
  lane  : ∀ l, (s.lane.get l).Keeps (t.lane.get l)

namespace State.Retains

variable {s t u : State}

theorem refl (s : State) : s.Retains s := ⟨rfl, rfl, rfl, rfl, fun _ => .refl _⟩

theorem trans (h : s.Retains t) (k : t.Retains u) : s.Retains u :=
  ⟨k.gen.trans h.gen, k.runId.trans h.runId, k.areas.trans h.areas, k.num.trans h.num, fun l => (h.lane l).trans (k.lane l)⟩

theorem ite {c : Prop} [Decidable c] {a b : State} (ha : s.Retains a) (hb : s.Retains b) : s.Retains (if c then a else b) := by
  split
  · exact ha
  · exact hb

theorem of_reacts {X : Lane → Prop} (h : s.Reacts X t) : s.Retains t where
  gen := by have e := congrArg State.gen h.unmoved; exact e
  runId := by have e := congrArg State.runId h.unmoved; exact e
  areas := by have e := congrArg State.areas h.unmoved; exact e
  num := congrArg CycSt.num h.cyc
  lane := h.lane

theorem setXo (s : State) (f : XoSt → XoSt) : s.Retains (s.setXo f) := ⟨rfl, rfl, rfl, rfl, fun _ => .refl _⟩

theorem ceaseSync (s : State) : s.Retains s.ceaseSync := by
  refine ite (ite (refl s) ?_) (refl s)
  exact (setXo s _).trans (of_reacts (.count (fun _ => True) _ (off := Reg.XO_EVENTS) 24 8 1 (by decide)))

theorem compareCopy (s : State) (c : LaneVec CopyData) : s.Retains (s.compareCopy c).2 := by
  unfold State.compareCopy
  extract_lets ok bad same
  split
  · exact refl s
  · split
    · exact of_reacts (.foldl (X := fun _ => True) (fun s l => .minority s trivial 0x02) _ s)
    · split
      · exact (of_reacts (.xoAlarm s 3)).trans ((ceaseSync _).trans ⟨rfl, rfl, rfl, rfl, fun _ => .refl _⟩)
      · split
        · exact of_reacts (.safeByAll (fun _ => True) s 0x02)
        · exact of_reacts (.safeByAll (fun _ => True) s 0x03)

theorem judgedCopy (s : State) (c : LaneVec CopyData) : s.Retains (s.judgedCopy c).2 := by
  unfold State.judgedCopy
  split
  · exact refl s
  · exact compareCopy s c

theorem copyConfirmed (s : State) (gen : Nat) : s.Retains (s.copyConfirmed gen) := ⟨rfl, rfl, rfl, rfl, fun _ => .refl _⟩

theorem noteSeen (s : State) : s.Retains s.noteSeen := ⟨rfl, rfl, rfl, rfl, fun _ => .refl _⟩

theorem showCopy (s : State) (c : LaneVec CopyData) : (s.notedCopy c).Retains (s.showCopy c) := by
  rw [s.showCopy_eq]
  have h := judgedCopy (s.notedCopy c) c
  exact (ite (h.trans (copyConfirmed ..)) h).trans (noteSeen _)

end State.Retains

/-- Whether a lane finds the digests of a copy depends on what it keeps. -/
theorem LaneSt.Keeps.copyAgrees {L M : LaneSt} (h : L.Keeps M) (c : CopyData) : M.copyAgrees c = L.copyAgrees c := by
  rw [LaneSt.copyAgrees, h.image, h.blkMem, h.loc, h.prv, LaneSt.copyAgrees]

/-- A copy that every ACTIVE lane finds right is agreed. -/
theorem State.compareCopy_agrees {s : State} {c : LaneVec CopyData}
    (h : ∀ l : Lane, s.isActive l = true → (s.lane.get l).copyAgrees (c.get l) = true) : s.compareCopy c = (true, s) := by
  unfold State.compareCopy
  extract_lets ok bad same
  have hok (l : Lane) : ok l = true := by
    unfold ok
    cases ha : s.isActive l with
    | false => rfl
    | true => rw [h l ha]; rfl
  have hbad : bad = [] := List.filter_eq_nil_iff.2 fun l _ => by
    rw [hok]
    decide
  rw [hbad]
  rfl

end Sys2Proof.Machine
end

section
/-! A copy of the peer's state, from its receipt to its confirmation, and the handover (R394 to R397, R409, R410, R412, R413). -/

namespace Sys2Proof.Machine

/-! ### A copy agreed -/

/-- What a copy that every ACTIVE lane finds right leaves: the drive and the modes stand, its generation is known, a full set of pages
confirms it and, the second time in a row, synchronises the standby. -/
structure State.ConfirmsCopy (c : LaneVec CopyData) (s t : State) : Prop where
  drv      : t.drv = s.drv
  pending  : t.pending = s.pending
  ctl      : ∀ l : Lane, s.mode l ≠ .resync → t.ctl.get l = s.ctl.get l
  xoGen    : t.xo.gen = (c.get s.leadLane).gen.toNat
  pagesGen : t.xo.pagesGen = if copyPages ≤ t.xo.pages.length then min 2 (s.xo.pagesGen + 1) else 0
  conf     : copyPages ≤ t.xo.pages.length → t.xo.out.conf = some (c.get s.leadLane).gen
  sync     : s.xo.sync = .catchup → 1 ≤ s.xo.pagesGen → copyPages ≤ t.xo.pages.length → t.xo.sync = .synced

theorem State.NotesCopy.confirms {c : LaneVec CopyData} {s w : State} (h : s.NotesCopy c w)
    (ha : ∀ l : Lane, w.isActive l = true → (w.lane.get l).copyAgrees (c.get l) = true) :
    s.ConfirmsCopy c (if (w.judgedCopy c).1 then (w.judgedCopy c).2.copyConfirmed (c.get w.leadLane).gen.toNat
      else (w.judgedCopy c).2).noteSeen := by
  have hpages := h.pagesGen
  have hlead : w.leadLane = s.leadLane := State.leadLane_of_mode h.mode
  by_cases h0 : w.xo.pagesGen = 0
  · have hq : w.judgedCopy c = (false, w) := if_pos h0
    have hfew : ¬ copyPages ≤ w.xo.pages.length := by
      intro hc
      rw [if_pos hc] at hpages
      omega
    rw [hq]
    change s.ConfirmsCopy c w.noteSeen
    exact
      { drv := h.drv, pending := h.pending, ctl := h.ctl, xoGen := h.xoGen, pagesGen := hpages
        conf := fun hc => absurd hc hfew
        sync := fun _ _ hc => absurd hc hfew }
  · have hq : w.judgedCopy c = (true, w) := (if_neg h0).trans (State.compareCopy_agrees ha)
    rw [hq, hlead]
    change s.ConfirmsCopy c (w.copyConfirmed (c.get s.leadLane).gen.toNat).noteSeen
    exact
      { drv := h.drv, pending := h.pending, ctl := h.ctl, xoGen := h.xoGen, pagesGen := hpages
        conf := fun _ => congrArg some (BitVec.ofNat_toNat ..)
        sync := fun hs h1 hc => by
          have hfull : copyPages ≤ w.xo.pages.length := hc
          have h2 : 2 ≤ w.xo.pagesGen := by
            rw [if_pos hfull] at hpages
            omega
          have hb : (decide (2 ≤ w.xo.pagesGen) && w.xo.sync == .catchup) = true := by
            rw [decide_eq_true h2, h.sync, hs]
            rfl
          exact if_pos hb }

/-! ### The receipt of a copy -/

theorem State.noteSkip_of_next {s : State} {gen : Nat} (h : s.xo.gen = 0 ∨ gen = s.xo.gen + 1) : s.noteSkip gen = s := by
  refine if_pos (Bool.or_eq_true_iff.2 ?_)
  exact h.imp beq_iff_eq.2 beq_iff_eq.2

/-- The standby that has received a copy, before it shows it. -/
def State.receiveCopy (s : State) (c : LaneVec CopyData) : State := (s.twinUp (.all true)).applyCopies c

section Receipt

variable {c : LaneVec CopyData} {s : State} (hs : s.xo.sync ≠ .synced) (hl : s.lead.isSome = true)
  (hb : (memLe ((s.lane.get s.leadLane).copyImage (c.get s.leadLane)) 0x18 4).testBit 10 = ((s.lane.get s.leadLane).logic.bank == 1))

include hs hl hb

theorem State.receiveCopy_holds : s.HoldsCopy c (s.receiveCopy c) := by
  have h : (s.twinUp (.all true)).HoldsCopy c (s.receiveCopy c) := State.applyCopies_holds hs hl hb
  exact ⟨h.drv, h.ctl, h.pending, h.file, h.gen, h.runId, h.areas, h.num, h.sync, h.pages, h.pagesGen, h.published, h.bank⟩

theorem execStateCopy_next (hm : s.mstate = .standby) (hg : s.xo.gen = 0 ∨ (c.get s.leadLane).gen.toNat = s.xo.gen + 1)
    (hf : BitVec.ofNat 32 (memLe ((s.lane.get s.leadLane).copyImage (c.get s.leadLane)) 0x1C 4) = s.fileDigest) :
    exec (.stateCopy c) s = .next ((s.receiveCopy c).showCopy c) := by
  have hh := State.receiveCopy_holds hs hl hb
  have hskip : (s.twinUp (.all true)).noteSkip (c.get s.leadLane).gen.toNat = s.twinUp (.all true) := State.noteSkip_of_next hg
  have hst : (s.receiveCopy c).mstate = .standby := (congrArg DriveSt.mstate hh.drv).trans hm
  have hof := hh.otherFile hl (c.get s.leadLane).gen.toNat hf
  change execStateCopy c s = _
  unfold execStateCopy
  dsimp only
  rw [if_neg (not_not.2 hm), hskip]
  change (if (s.receiveCopy c).mstate ≠ .standby then _ else _) = _
  rw [if_neg (not_not.2 hst)]
  rw [State.receiveCopy] at hof
  rw [hof]
  rfl

end Receipt

theorem State.showCopy_facts {c : LaneVec CopyData} {s t : State} (h : s.HoldsCopy c t) :
    (t.showCopy c).gen = (c.get s.leadLane).gen.toNat ∧ (t.showCopy c).runId = (c.get s.leadLane).runId
      ∧ (t.showCopy c).areas = (c.get s.leadLane).areas ∧ (t.showCopy c).cyc.num = (c.get s.leadLane).cycle.toNat
      ∧ (∀ l : Lane, s.parts.get l = true → ((t.showCopy c).lane.get l).image.published = (s.lane.get l).copyImage (c.get l))
      ∧ ((∀ l : Lane, s.isActive l = true → ((t.showCopy c).lane.get l).copyAgrees (c.get l) = true) → s.ConfirmsCopy c (t.showCopy c)) := by
  have hn := h.notedCopy
  have hr := State.Retains.showCopy t c
  refine ⟨hr.gen.trans hn.gen, hr.runId.trans hn.runId, hr.areas.trans hn.areas, hr.num.trans hn.num, fun l hp => ?_, fun ha => ?_⟩
  · rw [(hr.lane l).image]
    exact hn.published l hp
  · rw [t.showCopy_eq]
    refine hn.confirms fun l hl => ?_
    rw [← (hr.lane l).copyAgrees]
    refine ha l ?_
    rwa [State.isActive, ← hn.mode l]

/-- Settles O56: a copy is followed from its receipt (`receiveCopy_holds`) to its comparison (`showCopy_facts`), the old holder through
`standDown_standsBy`; each other event by its own lemma. -/
theorem copiesAndHandover : Obligations.CopiesAndHandover := by
  unfold Obligations.CopiesAndHandover
  intro s
  refine ⟨fun c => ⟨fun hm => if_pos hm, fun hm hs hl hg => ?_⟩, fun g => ⟨confirmation_releases g, fun h1 h2 => if_pos ⟨h1, h2⟩⟩,
    fun p d ha hd => ⟨handover_starts ha hd, fun r => handover_refused ha hd⟩,
    fun c => ⟨handoverOffer_taken c, handoverOffer_ignored c⟩, dutyTokStop_hands, dutyTokStop_waits,
    fun hr _ => ⟨fun he => ?_, oldLaddersOpen_stops hr⟩, fun hr => if_pos hr, revertiveReturn_starts, revertiveReturn_rests,
    fun hr he hs hn => ⟨roleSwap_starts hr he hs hn, roleSwap_barred hr he hs hn⟩, roleSwap_rests⟩
  · intro next hf hb
    obtain ⟨h1, h2, h3, h4, h5, h6⟩ := State.showCopy_facts (State.receiveCopy_holds hs hl hb)
    refine ⟨_, execStateCopy_next hs hl hb hm hg hf, h1, h2, h3, h4, h5, fun ha => ?_⟩
    have h := h6 ha
    exact ⟨h.drv, h.pending, h.ctl, h.xoGen, h.pagesGen, h.conf, h.sync⟩
  · obtain ⟨t, ht, h⟩ := oldLaddersOpen_stands hr he
    exact ⟨t, ht, h.mstate, h.role, h.sync, h.overdue, h.latch, h.ctl, h.units, h.cmd⟩

end Sys2Proof.Machine
end

section
/-! Register access (R67 to R95): what a refusal, an agreed write and a write of one lane leave of the state, said once for the
statements about registers; a step; `BLK_CTRL`. -/

namespace Sys2Proof.Machine

/-- Settles O1: a queue with a command at its front is the second case of a step. -/
theorem stepRunsTheFrontCommand : Obligations.StepRunsTheFrontCommand := by
  intro s c rest h
  rw [step, h]

/-! ### Lanes -/

theorem State.updIn_oneLane (s : State) (l : Lane) (f : Lane → LaneSt → LaneSt) : s.updIn (oneLane l) f = s.upd l (f l) := by
  cases l <;> rfl

/-- The state with other lanes. -/
def State.withLanes (s : State) (v : LaneVec LaneSt) : State := { s with lane := v }

/-- A pass over the lanes in which each lane of a set changes itself alone is a change of the lanes of the set. -/
theorem State.foldl_lanes {s : State} {g : State → Lane → State} (ls : LaneSet) (f : Lane → LaneSt → LaneSt)
    (h : ∀ (v : LaneVec LaneSt) (l : Lane), v.get l = s.lane.get l →
      g (s.withLanes v) l = if ls.get l then (s.withLanes v).upd l (f l) else s.withLanes v) :
    Lane.list.foldl g s = s.updIn ls f := by
  have hstep (v : LaneVec LaneSt) (l : Lane) (hv : v.get l = s.lane.get l) :
      g (s.withLanes v) l = s.withLanes (v.set l (if ls.get l then f l (s.lane.get l) else s.lane.get l)) := by
    rw [h v l hv, ← hv]
    split
    · rfl
    · rw [LaneVec.set_get_self]
  change g (g (g (s.withLanes s.lane) .A) .B) .C = s.updIn ls f
  rw [hstep _ .A, hstep _ .B, hstep _ .C] <;> rfl

/-- Only what the lanes of a set hold matters to a change of them. -/
theorem State.updIn_congr {s : State} {ls : LaneSet} {f g : Lane → LaneSt → LaneSt}
    (h : ∀ l, ls.get l = true → f l (s.lane.get l) = g l (s.lane.get l)) : s.updIn ls f = s.updIn ls g := by
  have e (l : Lane) : (if ls.get l then f l (s.lane.get l) else s.lane.get l) = if ls.get l then g l (s.lane.get l) else s.lane.get l := by
    split
    · next hl => exact h l hl
    · rfl
  exact congrArg s.withLanes ((LaneVec.mk.injEq ..).symm ▸ ⟨e .A, e .B, e .C⟩)

/-! ### Blocks -/

/-- An offset within a page names the page's block. -/
theorem Blk.ofOff_base_add (k : Blk) {o : Nat} (h : o < 0x1000) : Blk.ofOff (Blk.base k + o) = k := by
  obtain ⟨r, b⟩ := k
  have hr := r.isLt
  have hb := b.isLt
  unfold Blk.ofOff Blk.base
  rw [Blk.mk.injEq]
  constructor <;> apply BitVec.eq_of_toNat_eq <;> rw [BitVec.toNat_ofNat] <;> dsimp only <;> omega

theorem Blk.base_add_mod (k : Blk) {o : Nat} (h : o < 0x1000) : (Blk.base k + o) % 0x1000 = o := by
  unfold Blk.base
  omega

/-! ### The write journal (R93) -/

/-- An entry of the journal changes the image below the force table alone. -/
structure LaneSt.Journals (L M : LaneSt) : Prop where
  rest : M = { L with image := M.image }
  byte : ∀ b, 0x2000 ≤ b → M.imgByte b = L.imgByte b
  wf   : SMap.wf zeroByte L.image.working = true → SMap.wf zeroByte M.image.working = true

theorem LaneSt.Journals.refl (L : LaneSt) : L.Journals L := ⟨rfl, fun _ _ => rfl, id⟩

theorem LaneSt.journalPlace_lt {L : LaneSt} {addr n : Nat} (h : L.journalPlace addr = some n) : n < 512 := by
  unfold LaneSt.journalPlace at h
  dsimp only at h
  split at h
  · next m hm =>
    obtain rfl : m = n := Option.some.inj h
    exact List.mem_range.1 (List.mem_of_find?_eq_some hm)
  · exact List.mem_range.1 (List.mem_of_find?_eq_some h)

theorem LaneSt.journal_journals (L : LaneSt) (addr : Nat) (v : Word) : L.Journals (L.journal addr v) := by
  unfold LaneSt.journal
  split
  · next n hn =>
    have hlt := LaneSt.journalPlace_lt hn
    refine ⟨rfl, fun b hb => ?_, fun hw => LaneSt.imgPutLe_wf _ _ _ _ (LaneSt.imgPutLe_wf _ _ _ _ hw)⟩
    rw [LaneSt.imgByte_imgPutLe_of_outside _ _ _ _ (.inr (by unfold Img.journal; omega)),
      LaneSt.imgByte_imgPutLe_of_outside _ _ _ _ (.inr (by unfold Img.journal; omega))]
  · exact .refl L

theorem State.keepJournal_rest (s : State) (off : Nat) (d : Word) :
    s.keepJournal off d = { s with lane := (s.keepJournal off d).lane } := by
  unfold State.keepJournal
  split
  · rfl
  · rfl

theorem State.keepJournal_lane (s : State) (off : Nat) (d : Word) (l : Lane) :
    (s.lane.get l).Journals ((s.keepJournal off d).lane.get l) := by
  unfold State.keepJournal
  split
  · exact .refl _
  · rw [State.updIn_lane]
    split
    · exact LaneSt.journal_journals ..
    · exact .refl _

/-! ### `BLK_CTRL` (R79, R80, R435) -/

/-- The field of one bit. -/
theorem fieldOf_one (v : Word) (n : Nat) : fieldOf v n 1 = (v.toNat.testBit n).toNat := by
  rw [fieldOf, pow_one, Nat.toNat_testBit]

theorem testBit_setField_self (v : Word) {n : Nat} (b : Bool) (h : n < 32) : (setField v n 1 b.toNat).toNat.testBit n = b := by
  have hf := fieldOf_setField v n 1 b.toNat (by omega)
  rw [fieldOf_one] at hf
  cases hb : (setField v n 1 b.toNat).toNat.testBit n <;> cases b <;> simp_all

/-- A lane takes a value of `BLK_CTRL`. -/
def LaneSt.takeCtl (L : LaneSt) (now : Nat) (k : Blk) (d : Word) : LaneSt :=
  let M := L.setReg (Blk.base k + 0x8) (BitVec.ofNat 32 (d.toNat % 2 + d.toNat / 4 % 2 * 4))
  if d.toNat.testBit 1 then M.startReset now .block k else M

/-- A block in common mode holds no reports back (R425): the lane takes the value and reports nothing. -/
theorem State.ctlLane_of_common {s : State} {l : Lane} {k : Blk} (d : Word) (h : (s.lane.get l).bit (Blk.base k + 0x8) 2 = false) :
    s.ctlLane l k d = s.upd l fun L => L.takeCtl s.now k d := by
  unfold State.ctlLane
  dsimp only
  rw [h, Bool.false_and, if_neg Bool.false_ne_true]
  rfl

theorem State.ctlGo_of_common {s : State} {k : Blk} (d : Word) (h : ∀ l : Lane, (s.lane.get l).bit (Blk.base k + 0x8) 2 = false) :
    s.ctlGo k d = s.updIn s.parts fun _ L => L.takeCtl s.now k d :=
  State.foldl_lanes _ _ fun v l hv =>
    have hb : (v.get l).bit (Blk.base k + 0x8) 2 = false := by rw [hv]; exact h l
    congrArg (ite _ · _) (State.ctlLane_of_common (s := s.withLanes v) d hb)

theorem LaneSt.reg_takeCtl {L : LaneSt} (now : Nat) (k : Blk) {d : Word} (hd : d.toNat.testBit 1 = false) (hw : L.wf = true) :
    (L.takeCtl now k d).reg (Blk.base k + 0x8) = BitVec.ofNat 32 (d.toNat % 2 + d.toNat / 4 % 2 * 4) := by
  unfold LaneSt.takeCtl
  rw [hd, if_neg Bool.false_ne_true]
  exact LaneSt.reg_setReg_self _ _ _ (Bool.and_eq_true _ _ ▸ hw).1

/-- A block whose reset has started is in reset. -/
theorem LaneSt.inReset_startReset (L : LaneSt) (now : Nat) (k : Blk) (tag : Option Byte) : (L.startReset now .block k tag).inReset k = true := by
  obtain ⟨r, hr⟩ := Option.isSome_iff_exists.1 (L.resetOf_startReset_isSome now .block k tag)
  have hp := List.find?_some hr
  have hm := List.mem_of_find?_eq_some hr
  simp only [Bool.and_eq_true, decide_eq_true_eq] at hp
  obtain ⟨⟨hs, hk⟩, hd⟩ := hp
  refine List.any_eq_true.2 ⟨r, hm, ?_⟩
  rw [hd, Bool.true_and, ResetRec.covers, hs]
  exact decide_eq_true hk

theorem LaneSt.inReset_takeCtl (L : LaneSt) (now : Nat) (k : Blk) {d : Word} (hd : d.toNat.testBit 1 = true) :
    (L.takeCtl now k d).inReset k = true := by
  unfold LaneSt.takeCtl
  rw [hd, if_pos rfl]
  exact LaneSt.inReset_startReset ..

section BlockControl

variable {s : State} {k : Blk} {p : Port} {d : Word} (hp : (pageOf (Blk.base k)).isSome = true)

theorem page_not_isNone (hp : (pageOf (Blk.base k)).isSome = true) : ¬ (pageOf (Blk.base k)).isNone = true := by
  rw [Option.isNone_iff_eq_none]
  exact Option.ne_none_iff_isSome.2 hp

include hp

/-- A broadcast write of `BLK_CTRL` that nothing refuses: the journal holds it, and every lane that takes part takes the value. -/
theorem State.writeCtl_broadcast (hc : ∀ l : Lane, (s.lane.get l).bit (Blk.base k + 0x8) 2 = false)
    (ha : s.AgreesWb p (Blk.base k + 0x8)) (hb : s.ctlBar k d = 0) :
    s.writeCtl .broadcast k p d = (s.keepJournal (Blk.base k + 0x8) d).updIn s.parts fun _ L => L.takeCtl s.now k d := by
  have hcommon (l : Lane) : ((s.keepJournal (Blk.base k + 0x8) d).lane.get l).bit (Blk.base k + 0x8) 2 = false := by
    rw [(s.keepJournal_lane (Blk.base k + 0x8) d l).rest]
    exact hc l
  have hgo := State.ctlGo_of_common d hcommon
  rw [s.keepJournal_rest] at hgo ⊢
  unfold State.writeCtl
  dsimp only
  rw [if_neg (page_not_isNone hp), State.agreedWrite_goes ha hb, s.keepJournal_rest]
  exact hgo

/-- Through its own aperture a lane in reset refuses the write (R69). -/
theorem State.writeCtl_lane_inReset {l : Lane} (ha : s.accessOf p = .configure) (hr : (s.lane.get l).inReset k = true) :
    s.writeCtl (.lane l) k p d = s.refuseIn (oneLane l) p (l.code * 0x10000000 + (Blk.base k + 0x8)) Reason.inReset := by
  unfold State.writeCtl
  dsimp only
  rw [if_neg (page_not_isNone hp), if_neg (not_not.2 ha), if_pos hr]

/-- A lane outside the vote takes the write (R80). -/
theorem State.writeCtl_lane_out {l : Lane} (ha : s.accessOf p = .configure) (hr : (s.lane.get l).inReset k = false)
    (hm : s.mode l = .excluded ∨ s.mode l = .halted) : s.writeCtl (.lane l) k p d = s.ctlLane l k d := by
  unfold State.writeCtl
  dsimp only
  rw [if_neg (page_not_isNone hp), if_neg (not_not.2 ha), if_neg (Bool.eq_false_iff.1 hr), if_pos hm]

/-- An ACTIVE lane refuses it (R80). -/
theorem State.writeCtl_lane_active {l : Lane} (ha : s.accessOf p = .configure) (hr : (s.lane.get l).inReset k = false)
    (hm : s.isActive l = true) :
    s.writeCtl (.lane l) k p d = s.refuseIn (oneLane l) p (l.code * 0x10000000 + (Blk.base k + 0x8)) Reason.notBroadcast := by
  have hmode : s.mode l = .active := eq_of_beq hm
  have hin : ¬ (s.mode l = .excluded ∨ s.mode l = .halted) := by
    rw [hmode]
    decide
  unfold State.writeCtl
  dsimp only
  rw [if_neg (page_not_isNone hp), if_neg (not_not.2 ha), if_neg (Bool.eq_false_iff.1 hr), if_neg hin]

end BlockControl

/-- A journal entry and a change of some lanes leave the drive, the lanes' states and the queue. -/
theorem State.keepJournal_updIn_steady (s : State) (off : Nat) (d : Word) (ls : LaneSet) (f : Lane → LaneSt → LaneSt) :
    s.Steady ((s.keepJournal off d).updIn ls f) := by
  rw [s.keepJournal_rest]
  exact ⟨rfl, rfl, rfl⟩

/-- EN and INDIV by broadcast. -/
theorem State.writeCtl_broadcast_reg {s : State} {k : Blk} {p : Port} {d : Word} (hp : (pageOf (Blk.base k)).isSome = true)
    (hc : ∀ l : Lane, (s.lane.get l).bit (Blk.base k + 0x8) 2 = false ∧ (s.lane.get l).wf = true)
    (ha : s.AgreesWb p (Blk.base k + 0x8)) (hb : s.ctlBar k d = 0) (hd : d.toNat.testBit 1 = false) :
    s.Steady (s.writeCtl .broadcast k p d) ∧ ∀ l : Lane, s.parts.get l = true →
      ((s.writeCtl .broadcast k p d).lane.get l).reg (Blk.base k + 0x8)
        = BitVec.ofNat 32 (d.toNat % 2 + d.toNat / 4 % 2 * 4) := by
  rw [State.writeCtl_broadcast hp (fun l => (hc l).1) ha hb]
  refine ⟨s.keepJournal_updIn_steady .., fun l hl => ?_⟩
  rw [State.updIn_lane, if_pos hl]
  refine LaneSt.reg_takeCtl _ k hd ?_
  rw [(s.keepJournal_lane (Blk.base k + 0x8) d l).rest]
  exact (hc l).2

/-- Settles O33: every lane that the write reaches takes the value alone, since no lane holds reports back. -/
theorem blockControl : Obligations.BlockControl := by
  intro s k p d hp hc
  refine ⟨fun ha hb hd => ?enable, fun ha hb => ?reset, fun l hacc => ⟨fun hr => ?inReset, fun hr hm => ?out, fun hr hm => ?active⟩⟩
  case enable =>
    have h := State.writeCtl_broadcast_reg hp hc ha hb hd
    exact ⟨⟨_, rfl, h⟩, _, rfl, h⟩
  case reset =>
    refine ⟨_, congrArg Host.Outcome.next (State.writeCtl_broadcast hp (fun l => (hc l).1) ha hb),
      s.keepJournal_updIn_steady .., fun l hl => ?_⟩
    rw [State.updIn_lane, if_pos hl]
    exact LaneSt.inReset_takeCtl _ _ k (testBit_setField_self d true (by decide))
  case inReset => exact congrArg Host.Outcome.next (State.writeCtl_lane_inReset hp hacc hr)
  case out =>
    refine ⟨_, congrArg Host.Outcome.next ((State.writeCtl_lane_out hp hacc hr hm).trans (State.ctlLane_of_common _ (hc l).1)),
      ⟨rfl, rfl, rfl⟩, ?_, fun x hx => State.upd_lane_of_ne s _ hx⟩
    rw [State.upd_lane_self]
    exact LaneSt.inReset_takeCtl _ _ k (testBit_setField_self d true (by decide))
  case active => exact congrArg Host.Outcome.next (State.writeCtl_lane_active hp hacc hr hm)

end Sys2Proof.Machine
end

section
/-! Clearing, rejoining and restarting (R440 to R442): a write as the lanes that it reaches take it; `BLK_ERR` bits; the module reset. -/

namespace Sys2Proof.Machine

/-! ### A write as the lanes take it (R69, R75) -/

/-- What a lane answers to a write: a reset of the block, then the block's own check; 0 where it takes the write. -/
def LaneSt.writeBar (L : LaneSt) (off : Nat) (check : LaneSt → Nat) : Nat :=
  if L.inReset (Blk.ofOff off) then Reason.inReset else check L

/-- A write whose effect stays in each lane: every lane that it reaches takes it, or refuses it with its own reason. -/
theorem State.laneTake_state {s : State} (p : Port) (ap : WAper) (off : Nat) (check : LaneSt → Nat) {go : Lane → State → State}
    (f : Lane → LaneSt → LaneSt)
    (hgo : ∀ (v : LaneVec LaneSt) (l : Lane), v.get l = s.lane.get l → go l (s.withLanes v) = (s.withLanes v).upd l (f l)) :
    (s.laneTake p ap off check go (.all true)).1 = s.updIn (wLanes ap) fun l L =>
      if L.writeBar off check = 0 then f l L else L.refuse l p (WAper.addr off ap) (L.writeBar off check) s.cyc.num := by
  unfold State.laneTake
  rw [← List.foldl_hom Prod.fst (g₂ := fun (u : State) l =>
    if (wLanes ap).get l then
      (if (u.lane.get l).writeBar off check = 0 then go l u
        else u.upd l fun L => L.refuse l p (WAper.addr off ap) ((u.lane.get l).writeBar off check) u.cyc.num)
    else u)]
  · refine State.foldl_lanes _ _ fun v l hv => ?_
    split
    · by_cases hb : (v.get l).writeBar off check = 0
      · exact (if_pos hb).trans ((hgo v l hv).trans (State.upd_congr _ l (if_pos hb).symm))
      · exact (if_neg hb).trans (State.upd_congr _ l (if_neg hb).symm)
    · rfl
  · intro q l
    by_cases hr : (wLanes ap).get l = true
    · rw [if_pos hr, hr, LaneVec.get_all, if_neg (c := (!true || !true) = true) (by decide)]
      change _ = (if (q.1.lane.get l).writeBar off check = 0 then (_, _) else (_, _)).1
      split <;> rfl
    · rw [if_neg hr, Bool.eq_false_of_not_eq_true hr]
      rfl

/-- A write through a lane's own aperture that the lane takes. -/
theorem State.laneTake_own {s : State} (p : Port) {l : Lane} {off : Nat} {check : LaneSt → Nat} (go : Lane → State → State)
    (h : (s.lane.get l).writeBar off check = 0) : s.laneTake p (.lane l) off check go (.all true) = (go l s, 0) := by
  have hb : (if (s.lane.get l).inReset (Blk.ofOff off) then Reason.inReset else check (s.lane.get l)) = 0 := h
  cases l <;> exact if_pos hb

/-- A write that the port's role and the module's state allow is for the lanes to take. -/
theorem State.laneWrite_of_takes {s : State} {p : Port} {k : Blk} (h : s.TakesWrite p k) (ap : WAper) (off : Nat) (check : LaneSt → Nat)
    (go : Lane → State → State) (only : LaneSet) : s.laneWrite p ap off check go only = s.laneTake p ap off check go only := by
  obtain ⟨hoff, hrole, -⟩ := h
  rw [State.laneWrite, if_neg hoff, if_neg hrole]

theorem LaneSt.writeBar_of_takes {s : State} {p : Port} {off : Nat} (h : s.TakesWrite p (Blk.ofOff off)) (l : Lane) (check : LaneSt → Nat) :
    (s.lane.get l).writeBar off check = check (s.lane.get l) := by
  obtain ⟨-, -, hin⟩ := h
  rw [LaneSt.writeBar, hin, if_neg Bool.false_ne_true]

/-! ### `BLK_ERR` bits cleared (R440) -/

/-- A lane clears a `BLK_ERR` bit that is written 1, unless its cause is present; either is an entry in its book. -/
def LaneSt.clearOne (L : LaneSt) (l : Lane) (k : Blk) (still : Det → Bool) (m cycle n : Nat) : LaneSt :=
  let b := Blk.ofOff (Blk.base k)
  if m.testBit n && L.bit (Blk.base k + 0x10) n then
    (if still ⟨k, n⟩ then L else L.clearBits (Blk.base k + 0x10) (2 ^ n)).record (obPath l b.region.toNat b.block.toNat 0x1F)
      (obCode 6 (if still ⟨k, n⟩ then 0x00D else 0x00C)) FClass.note.code 0 cycle (obData n)
  else L

/-- What clearing leaves of a lane besides its registers. -/
structure LaneSt.Clears (L M : LaneSt) : Prop where
  standing : M.standing = L.standing
  liveOk   : M.liveOk = L.liveOk

theorem LaneSt.clearOne_clears (L : LaneSt) (l : Lane) (k : Blk) (still : Det → Bool) (m cycle n : Nat) :
    L.Clears (L.clearOne l k still m cycle n) := by
  unfold LaneSt.clearOne
  dsimp only
  split
  · rw [(LaneSt.record_frame ..).1]
    split <;> exact ⟨rfl, rfl⟩
  · exact ⟨rfl, rfl⟩

/-- A pass of changes of one lane is one change of it. -/
theorem State.foldl_upd {α : Type} {s : State} {l : Lane} {g : State → α → State} (f : LaneSt → α → LaneSt) (R : LaneSt → Prop)
    (hR : ∀ L a, R L → R (f L a)) (hg : ∀ (L : LaneSt) (a : α), R L → g (s.upd l fun _ => L) a = s.upd l fun _ => f L a) :
    ∀ (xs : List α) (L : LaneSt), R L → xs.foldl g (s.upd l fun _ => L) = s.upd l fun _ => xs.foldl f L
  | [], _, _ => rfl
  | x :: xs, L, h => by
    rw [List.foldl_cons, hg L x h]
    exact State.foldl_upd f R hR hg xs (f L x) (hR L x h)

theorem State.clearErr_eq (s : State) (l : Lane) (k : Blk) (m : Nat) :
    s.clearErr l k m = s.upd l fun L => (List.range 32).foldl (fun M n => M.clearOne l k (s.stillFaulty l) m s.cyc.num n) L := by
  have h := State.foldl_upd (s := s) (l := l) (g := fun s n =>
    if m.testBit n && (s.lane.get l).bit (Blk.base k + 0x10) n then
      if s.stillFaulty l ⟨k, n⟩ then s.eventIn l (Blk.base k) 0x00D n
      else (s.upd l fun L => L.clearBits (Blk.base k + 0x10) (2 ^ n)).eventIn l (Blk.base k) 0x00C n
    else s) (fun M n => M.clearOne l k (s.stillFaulty l) m s.cyc.num n) (s.lane.get l).Clears
    (fun L n hL => ?trans) (fun L n hL => ?turn) (List.range 32) (s.lane.get l) ⟨rfl, rfl⟩
  · rw [State.upd_id s l (f := fun _ => s.lane.get l) rfl] at h
    exact h
  case trans =>
    have hc := L.clearOne_clears l k (s.stillFaulty l) m s.cyc.num n
    exact ⟨hc.standing.trans hL.standing, hc.liveOk.trans hL.liveOk⟩
  case turn =>
    have hself : (s.upd l fun _ => L).lane.get l = L := State.upd_lane_self ..
    have hst : (s.upd l fun _ => L).stillFaulty l = s.stillFaulty l :=
      State.stillFaulty_congr (by rw [hself, hL.standing]) (by rw [hself, hL.liveOk]) rfl rfl rfl
    have hev (u : State) (e : Nat) : u.eventIn l (Blk.base k) e n = u.upd l fun L =>
        L.record (obPath l (Blk.ofOff (Blk.base k)).region.toNat (Blk.ofOff (Blk.base k)).block.toNat 0x1F) (obCode 6 e)
          FClass.note.code 0 u.cyc.num (obData n) := State.updIn_oneLane u l _
    simp only [hself, hst, hev, State.upd_upd]
    unfold LaneSt.clearOne
    dsimp only
    split
    · by_cases hs : s.stillFaulty l ⟨k, n⟩ = true
      · simp only [hs, if_true]
        rfl
      · simp only [hs]
        rfl
    · rfl

theorem LaneSt.bit_clearBits (L : LaneSt) (off n j : Nat) (hj : j < 32) (hw : SMap.wf Sys2Proof.Machine.resetOf L.regs = true) :
    (L.clearBits off (2 ^ n)).bit off j = (L.bit off j && decide (j ≠ n)) := by
  rw [LaneSt.bit, LaneSt.clearBits, LaneSt.reg_setReg_self _ _ _ hw, BitVec.testBit_toNat, BitVec.getLsbD_and, BitVec.getLsbD_not,
    BitVec.getLsbD_ofNat, Nat.testBit_two_pow, LaneSt.bit, BitVec.testBit_toNat]
  simp only [hj, decide_true, Bool.true_and, ne_eq, decide_not, eq_comm]

theorem LaneSt.record_regs_wf {L : LaneSt} (hw : SMap.wf Sys2Proof.Machine.resetOf L.regs = true) (path : Word) (code : Half)
    (cls flags cycle : Nat) (data : BitVec 48) : SMap.wf Sys2Proof.Machine.resetOf (L.record path code cls flags cycle data).regs = true := by
  unfold LaneSt.record
  dsimp only
  split
  · exact hw
  · split
    · exact SMap.put_wf _ _ _ _ hw
    · exact hw

theorem LaneSt.bit_record (L : LaneSt) (path : Word) (code : Half) (cls flags cycle : Nat) (data : BitVec 48) {o : Nat} (j : Nat)
    (h : o ≠ Reg.OB_LOST) : (L.record path code cls flags cycle data).bit o j = L.bit o j := by
  rw [LaneSt.bit, L.reg_record_of_ne _ _ _ _ _ _ h, LaneSt.bit]

theorem Blk.errOff_ne_obLost (k : Blk) : Blk.base k + 0x10 ≠ Reg.OB_LOST := fun e =>
  absurd ((Blk.base_add_mod k (by decide)).symm.trans (congrArg (· % 0x1000) e)) (by decide)

section ClearBits

variable (l : Lane) (k : Blk) (still : Det → Bool) (m cycle : Nat)

theorem LaneSt.clearOne_bit {L : LaneSt} (hw : SMap.wf Sys2Proof.Machine.resetOf L.regs = true) (n j : Nat) (hj : j < 32) :
    (L.clearOne l k still m cycle n).bit (Blk.base k + 0x10) j
      = (L.bit (Blk.base k + 0x10) j && !(decide (j = n) && m.testBit j && !still ⟨k, j⟩)) := by
  unfold LaneSt.clearOne
  dsimp only
  by_cases e : j = n
  · subst e
    split
    · next h =>
      rw [LaneSt.bit_record _ _ _ _ _ _ _ _ (Blk.errOff_ne_obLost k)]
      obtain ⟨hm, hb⟩ := Bool.and_eq_true_iff.1 h
      cases still ⟨k, j⟩
      · rw [if_neg Bool.false_ne_true, LaneSt.bit_clearBits _ _ _ _ hj hw, hb, hm]
        simp
      · rw [if_pos rfl, hb]
        simp
    · next h =>
      cases hb : L.bit (Blk.base k + 0x10) j
      · rw [Bool.false_and]
      · rw [hb, Bool.and_true] at h
        rw [Bool.eq_false_of_not_eq_true h]
        simp
  · rw [decide_eq_false e, Bool.false_and, Bool.false_and, Bool.not_false, Bool.and_true]
    split
    · rw [LaneSt.bit_record _ _ _ _ _ _ _ _ (Blk.errOff_ne_obLost k)]
      split
      · rfl
      · rw [LaneSt.bit_clearBits _ _ _ _ hj hw, decide_eq_true e, Bool.and_true]
    · rfl

theorem LaneSt.clearOne_regs_wf {L : LaneSt} (hw : SMap.wf Sys2Proof.Machine.resetOf L.regs = true) (n : Nat) :
    SMap.wf Sys2Proof.Machine.resetOf (L.clearOne l k still m cycle n).regs = true := by
  unfold LaneSt.clearOne
  dsimp only
  split
  · refine LaneSt.record_regs_wf ?_ ..
    split
    · exact hw
    · exact SMap.put_wf _ _ _ _ hw
  · exact hw

/-- A bit goes when it is among those cleared, is written 1 and its cause is gone. -/
theorem LaneSt.foldl_clearOne_bit (j : Nat) (hj : j < 32) : ∀ (xs : List Nat) (L : LaneSt),
    SMap.wf Sys2Proof.Machine.resetOf L.regs = true →
    (xs.foldl (fun M n => M.clearOne l k still m cycle n) L).bit (Blk.base k + 0x10) j
      = (L.bit (Blk.base k + 0x10) j && !(decide (j ∈ xs) && m.testBit j && !still ⟨k, j⟩))
  | [], L, _ => by simp
  | x :: xs, L, hw => by
    rw [List.foldl_cons, LaneSt.foldl_clearOne_bit j hj xs _ (LaneSt.clearOne_regs_wf l k still m cycle hw x),
      LaneSt.clearOne_bit l k still m cycle hw x j hj]
    simp only [List.mem_cons, Bool.decide_or]
    cases decide (j = x) <;> cases decide (j ∈ xs) <;> cases m.testBit j <;> cases still ⟨k, j⟩ <;> simp

end ClearBits

/-- Every lane that the write reaches clears its bits alone. -/
theorem State.writeErr_state {s : State} (ap : WAper) {k : Blk} {p : Port} (d : Word) (hk : s.TakesWrite p k) :
    (s.writeErr ap k p d).1 = s.updIn (wLanes ap) fun l L =>
      (List.range 32).foldl (fun M n => M.clearOne l k (s.stillFaulty l) d.toNat s.cyc.num n) L := by
  have hk' : s.TakesWrite p (Blk.ofOff (Blk.base k + 0x10)) := by rwa [Blk.ofOff_base_add k (by decide)]
  have hgo (v : LaneVec LaneSt) (l : Lane) (hv : v.get l = s.lane.get l) :
      (s.withLanes v).clearErr l k d.toNat = (s.withLanes v).upd l fun L =>
        (List.range 32).foldl (fun M n => M.clearOne l k (s.stillFaulty l) d.toNat s.cyc.num n) L := by
    have hst : (s.withLanes v).stillFaulty l = s.stillFaulty l :=
      State.stillFaulty_congr (congrArg LaneSt.standing hv) (congrArg LaneSt.liveOk hv) rfl rfl rfl
    rw [State.clearErr_eq, hst]
    rfl
  rw [State.writeErr, State.laneWrite_of_takes hk', State.laneTake_state p ap _ _ _ hgo]
  exact State.updIn_congr fun l _ => if_pos (LaneSt.writeBar_of_takes hk' l _)

theorem blkErrClear_clears {s : State} {p : Port} {ap : WAper} {k : Blk} (d : Word) {l : Lane} {n : Nat} (hr : k.region ≠ 0xF)
    (hp : (pageOf (Blk.base k)).isSome = true) (hk : s.TakesWrite p k) (hl : (wLanes ap).get l = true)
    (hw : (s.lane.get l).wf = true) (hn : n < 32) :
    ∃ t, exec (.blkErrClear ap k p d) s = .next t ∧ s.Steady t
      ∧ (t.lane.get l).bit (Blk.base k + 0x10) n
          = ((s.lane.get l).bit (Blk.base k + 0x10) n && (!d.toNat.testBit n || s.stillFaulty l ⟨k, n⟩)) := by
  have he : exec (.blkErrClear ap k p d) s = .next (s.writeErr ap k p d).1 := (if_neg hr).trans (if_neg (page_not_isNone hp))
  rw [State.writeErr_state ap d hk] at he
  refine ⟨_, he, ⟨rfl, rfl, rfl⟩, ?_⟩
  rw [State.updIn_lane, if_pos hl, LaneSt.foldl_clearOne_bit l k _ _ _ n hn _ _ (Bool.and_eq_true _ _ ▸ hw).1,
    decide_eq_true (List.mem_range.2 hn), Bool.true_and, Bool.not_and, Bool.not_not]

/-! ### Rejoining (R441) -/

theorem State.rejoinBar_halted {s : State} {l : Lane} (h : s.rejoinBar l = 0) : s.mode l = .halted := by
  by_contra hm
  rw [State.rejoinBar, if_pos hm] at h
  cases h

/-- The lane reset of a lane that rejoins starts. -/
def State.startRejoin (s : State) (l : Lane) : State :=
  (s.upd l fun L => L.startReset s.now .lane (Blk.ofOff Base.fc)).setCtl l fun c => { c with rejoinReq := true }

theorem State.startRejoin_ctl (s : State) (l : Lane) : (s.startRejoin l).ctl.get l = { s.ctl.get l with rejoinReq := true } :=
  LaneVec.get_set_self ..

theorem State.startRejoin_lane (s : State) (l : Lane) :
    (s.startRejoin l).lane.get l = (s.lane.get l).startReset s.now .lane (Blk.ofOff Base.fc) := LaneVec.get_set_self ..

theorem State.startRejoin_lane_of_ne (s : State) {l x : Lane} (h : x ≠ l) : (s.startRejoin l).lane.get x = s.lane.get x :=
  LaneVec.get_set_of_ne _ _ h

theorem State.writeRejoin_takes {s : State} {p : Port} {l : Lane} (hk : s.TakesWrite p (Blk.ofOff Reg.FC_REJOIN)) (hb : s.rejoinBar l = 0) :
    s.writeRejoin l p = (s.startRejoin l, 0) :=
  (State.laneWrite_of_takes hk _ _ _ _ _).trans (State.laneTake_own p _ ((LaneSt.writeBar_of_takes hk l _).trans hb))

theorem rejoin_resets {s : State} {p : Port} {l : Lane} (hk : s.TakesWrite p (Blk.ofOff Reg.FC_REJOIN)) (hb : s.rejoinBar l = 0) :
    ∃ t, exec (.rejoin l p) s = .next t ∧ t.drv = s.drv ∧ (t.ctl.get l).rejoinReq = true ∧ t.mode l = .halted
      ∧ ((t.lane.get l).resetOf .lane (Blk.ofOff Base.fc)).isSome = true ∧ ∀ x : Lane, x ≠ l → t.lane.get x = s.lane.get x := by
  have he : exec (.rejoin l p) s = .next (s.startRejoin l) :=
    congrArg (fun q : State × Nat => Host.Outcome.next q.1) (State.writeRejoin_takes hk hb)
  refine ⟨_, he, rfl, ?_, ?_, ?_, fun x hx => s.startRejoin_lane_of_ne hx⟩
  · rw [s.startRejoin_ctl]
  · rw [State.mode, s.startRejoin_ctl]
    exact State.rejoinBar_halted hb
  · rw [s.startRejoin_lane]
    exact LaneSt.resetOf_startReset_isSome ..

/-! ### Restarting (R442) -/

/-- What survives a module reset of a lane (R435, R442). -/
theorem LaneSt.moduleReset_keeps (L : LaneSt) : L.moduleReset.flash = L.flash ∧ L.moduleReset.keys = L.keys := by
  have h : L.releaseKept.flash = L.flash ∧ L.releaseKept.keys = L.keys := by
    unfold LaneSt.releaseKept
    split <;> exact ⟨rfl, rfl⟩
  exact h

/-- In SAFE the write of a restart that nothing bars goes through (R434). -/
theorem State.writeRestart_safe {s : State} {p : Port} (hm : s.mstate = .safe) (ha : s.accessOf p = .configure) (hb : s.restartBar = 0)
    (hj : ((s.lane.get s.leadLane).journalPlace Reg.FC_CTRL).isSome = true)
    (hr : ∀ l : Lane, (s.lane.get l).inReset (Blk.ofOff Reg.FC_CTRL) = false) :
    s.writeRestart p 1 = (s.keepJournal Reg.FC_CTRL 1).restartGo 1 := by
  have hw : (s.writerOf p).access = .configure := ha
  have hnone : ((s.lane.get s.leadLane).journalPlace Reg.FC_CTRL).isNone = false := by
    rw [← Option.not_isSome, hj]
    rfl
  have hbar : s.agreedBar (s.writerOf p) Reg.FC_CTRL 0 = 0 := by
    unfold State.agreedBar
    simp [hm, hw, hnone]
  have h1 : (if (1 : Word).toNat.testBit 0 then s.restartBar else 0) = 0 := (if_pos (by decide)).trans hb
  unfold State.writeRestart State.agreedWrite
  dsimp only
  rw [h1, hbar, s.resetRefusal_none p hr]
  simp [hm, MState.agrees]

theorem restart_boots {s : State} {p : Port} (hm : s.mstate = .safe) (ha : s.accessOf p = .configure) (hb : s.restartBar = 0)
    (hj : ((s.lane.get s.leadLane).journalPlace Reg.FC_CTRL).isSome = true)
    (hr : ∀ l : Lane, (s.lane.get l).inReset (Blk.ofOff Reg.FC_CTRL) = false) :
    ∃ t, exec (.restart p) s = .next t ∧ t.mstate = .boot ∧ t.gate = false ∧ t.vdrv = false ∧ t.pending = s.pending
      ∧ t.startAt = s.now ∧ ∀ l : Lane, t.mode l = .active ∧ (t.ctl.get l).permit = false
        ∧ (t.lane.get l).flash = (s.lane.get l).flash ∧ (t.lane.get l).keys = (s.lane.get l).keys := by
  have he : exec (.restart p) s = .next ((s.keepJournal Reg.FC_CTRL 1).restartGo 1) :=
    congrArg Host.Outcome.next (State.writeRestart_safe hm ha hb hj hr)
  have hgo (u : State) : u.restartGo 1 = (u.updAll fun l L =>
      L.record (obPath l 5 0 0x1F) (obCode 5 0x100) 0 0 u.cyc.num (obData u.leadLane.code)).moduleReset := if_pos (by decide)
  have hlane (l : Lane) := s.keepJournal_lane Reg.FC_CTRL 1 l
  rw [hgo, s.keepJournal_rest] at he
  refine ⟨_, he, rfl, rfl, rfl, rfl, rfl, fun l => ⟨by cases l <;> rfl, by cases l <;> rfl, ?_⟩⟩
  rw [State.moduleReset, LaneVec.get_map, State.updAll_lane]
  have hk := LaneSt.moduleReset_keeps (((s.keepJournal Reg.FC_CTRL 1).lane.get l).record (obPath l 5 0 0x1F) (obCode 5 0x100) 0 0
    s.cyc.num (obData ({ s with lane := (s.keepJournal Reg.FC_CTRL 1).lane } : State).leadLane.code))
  refine ⟨hk.1.trans ?_, hk.2.trans ?_⟩
  · rw [(LaneSt.record_frame ..).1, (hlane l).rest]
  · rw [LaneSt.record_keys, (hlane l).rest]

/-- Settles O35: the bits are cleared one by one in each lane; a rejoin is a lane reset, a restart a module reset. -/
theorem clearingRejoiningRestarting : Obligations.ClearingRejoiningRestarting := by
  intro s p
  refine ⟨fun ap k d l n hr hp hk hl hw hn => blkErrClear_clears d hr hp hk hl hw hn, fun l hk hb => rejoin_resets hk hb,
    fun hm ha hb hj hr => restart_boots hm ha hb hj hr, fun ha => ?refused⟩
  case refused =>
    have hsafe : s.mstate ≠ .safe := ha.2.2.1
    exact congrArg Host.Outcome.next (State.agreedWrite_refuses ha ((if_pos (by decide)).trans (if_pos hsafe)) (by decide) (by decide))

end Sys2Proof.Machine
end

section
/-! Words written and read by their address (R67 to R77, R87, R235, R598). -/

namespace Sys2Proof.Machine

/-! ### Addresses (R67) -/

/-- The parts of an address: aperture and offset. -/
def AtOff (addr ap off : Nat) : Prop := addr / 0x10000000 = ap ∧ addr % 0x10000000 = off

theorem atOff (ap : Nat) {off : Nat} (h : off < 0x10000000) : AtOff (ap * 0x10000000 + off) ap off := by
  unfold AtOff
  omega

theorem toNat_addr {ap off : Nat} (hap : ap < 16) (h : off < 0x10000000) :
    (BitVec.ofNat 32 (ap * 0x10000000 + off)).toNat = ap * 0x10000000 + off := by
  rw [BitVec.toNat_ofNat]
  omega

theorem Lane.code_lt (l : Lane) : l.code < 3 := by
  cases l <;> decide

theorem laneOfAper_code (l : Lane) : laneOfAper l.code = some l := by
  cases l <;> rfl

/-! ### Words written -/

section WriteWord

variable {s : State} {p : Port} {d : Word} {token : Half} {tag : Byte} {addr ap off : Nat}

theorem execRegisterWrite_off {a : Word} (h : s.mstate = .off) : exec (.registerWrite a p d token tag) s = .next s := if_pos h

theorem execRegisterWrite_on {a : Word} (h : s.mstate ≠ .off) :
    exec (.registerWrite a p d token tag) s = .next (s.writeWord p a.toNat d token tag {}).state := if_neg h

theorem State.writeWord_nowhere (ha : AtOff addr ap off) (h : 6 ≤ ap ∨ off % 4 ≠ 0) :
    s.writeWord p addr d token tag {} = ⟨s, stUnmapped, 0⟩ := by
  obtain ⟨rfl, rfl⟩ := ha
  exact if_pos h

theorem State.writeWord_module (ha : AtOff addr 5 off) (h4 : off % 4 = 0) : s.writeWord p addr d token tag {} = s.moduleWord p off d := by
  obtain ⟨h5, rfl⟩ := ha
  unfold State.writeWord
  dsimp only
  rw [h5, if_neg (by omega), if_pos rfl]

section Mapped

variable (h4 : off % 4 = 0) (hmap : mapped off = true)

include h4 hmap

theorem State.writeWord_lane {l : Lane} (ha : AtOff addr l.code off) : s.writeWord p addr d token tag {} =
    if holdsWb off then answered (s.wbByLane p l off d token) else answered (s.laneWord p (.lane l) off d) := by
  obtain ⟨hap, rfl⟩ := ha
  have hl := Lane.code_lt l
  have hans : ¬ (!(LaneVec.all true : LaneSet).get l) = true := by rw [LaneVec.get_all]; decide
  unfold State.writeWord
  dsimp only
  rw [hap, if_neg (by omega), if_neg (by omega), hmap, if_neg (by decide), laneOfAper_code]
  exact if_neg hans

theorem State.writeWord_voted (ha : AtOff addr 3 off) : s.writeWord p addr d token tag {} =
    ⟨s.refuseModule p Base.acc addr Reason.votedWrite, stRefused, Reason.votedWrite⟩ := by
  obtain ⟨hap, rfl⟩ := ha
  unfold State.writeWord
  dsimp only
  rw [hap, if_neg (by omega), if_neg (by omega), hmap, if_neg (by decide)]
  rfl

theorem State.writeWord_broadcast (ha : AtOff addr 4 off) (hwb : holdsWb off = false) : s.writeWord p addr d token tag {} =
    answered (s.laneWord p .broadcast off d) := by
  obtain ⟨hap, rfl⟩ := ha
  unfold State.writeWord
  dsimp only
  rw [hap, if_neg (by omega), if_neg (by omega), hmap, if_neg (by decide), hwb]
  rfl

end Mapped

end WriteWord

theorem answered_state (q : State × Nat) : (answered q).state = q.1 := by
  unfold answered
  split <;> rfl

/-! ### The voted aperture and addresses without a register (R67, R68) -/

theorem registerWrite_voted {s : State} {p : Port} {d : Word} {token : Half} {tag : Byte} {off : Nat} (ho : off < 0x10000000)
    (h4 : off % 4 = 0) (hmap : mapped off = true) :
    exec (.registerWrite (BitVec.ofNat 32 (0x30000000 + off)) p d token tag) s
      = .next (s.refuseModule p Base.acc (0x30000000 + off) Reason.votedWrite) := by
  by_cases hm : s.mstate = .off
  · rw [execRegisterWrite_off hm, State.refuseModule, if_pos hm]
  · rw [execRegisterWrite_on hm, toNat_addr (ap := 3) (by decide) ho, State.writeWord_voted h4 hmap (atOff 3 ho)]

theorem registerWrite_nowhere {s : State} {p : Port} {d : Word} {token : Half} {tag : Byte} {ap off : Nat} (hap : ap < 16)
    (ho : off < 0x10000000) (h : 6 ≤ ap ∨ off % 4 ≠ 0) :
    exec (.registerWrite (BitVec.ofNat 32 (ap * 0x10000000 + off)) p d token tag) s = .next s := by
  by_cases hm : s.mstate = .off
  · exact execRegisterWrite_off hm
  · rw [execRegisterWrite_on hm, toNat_addr hap ho, State.writeWord_nowhere (atOff ap ho) h]

/-! ### WB fields through a lane's own aperture (R74, R87, R88) -/

/-- A register of WB fields other than `BLK_CTRL` refuses the write, and the token presented is used up. -/
theorem State.wbByLane_refused {s : State} {p : Port} (l : Lane) {off : Nat} (d : Word) (token : Half) (ha : s.accessOf p = .configure)
    (h8 : off % 0x1000 ≠ 8) :
    (s.wbByLane p l off d token).1
      = (s.upd l fun L => L.useToken (off / 0x1000 * 0x1000) token).refuseIn (oneLane l) p (l.code * 0x10000000 + off)
          (if (s.lane.get l).inReset (Blk.ofOff off) then Reason.inReset else Reason.notBroadcast) := by
  have hacc : (s.upd l fun L => L.useToken (off / 0x1000 * 0x1000) token).accessOf p = .configure := ha
  unfold State.wbByLane
  dsimp only
  have hin : ((s.lane.get l).useToken (off / 0x1000 * 0x1000) token).inReset (Blk.ofOff off) = (s.lane.get l).inReset (Blk.ofOff off) := rfl
  rw [State.upd_lane_self, if_neg (not_not.2 hacc), hin, if_neg (c := off % 0x1000 = 8 ∧ _) (fun h => h8 h.1)]
  cases (s.lane.get l).inReset (Blk.ofOff off) <;> rfl

theorem registerWrite_wbByLane {s : State} {p : Port} {d : Word} {token : Half} {tag : Byte} {off : Nat} (l : Lane) (ho : off < 0x10000000)
    (h4 : off % 4 = 0) (hmap : mapped off = true) (hwb : holdsWb off = true) (h8 : off % 0x1000 ≠ 8) (hm : s.mstate ≠ .off)
    (ha : s.accessOf p = .configure) :
    exec (.registerWrite (BitVec.ofNat 32 (l.code * 0x10000000 + off)) p d token tag) s
      = .next ((s.upd l fun L => L.useToken (off / 0x1000 * 0x1000) token).refuseIn (oneLane l) p (l.code * 0x10000000 + off)
          (if (s.lane.get l).inReset (Blk.ofOff off) then Reason.inReset else Reason.notBroadcast)) := by
  have hl := Lane.code_lt l
  rw [execRegisterWrite_on hm, toNat_addr (by omega) ho, State.writeWord_lane h4 hmap (atOff l.code ho), if_pos hwb, answered_state,
    State.wbByLane_refused l d token ha h8]

/-! ### The units 0 to 23 (R520) -/

theorem pageOf_cvCfg : ∀ u < 24, pageOf (Reg.CV_CFG u) = some (.cv, u) := by decide

theorem State.laneWord_cvCfg (s : State) (p : Port) (ap : WAper) {u : Nat} (d : Word) (hu : u < 24) :
    s.laneWord p ap (Reg.CV_CFG u) d = s.laneWrite p ap (Reg.CV_CFG u) (fun L => plainBar L ap (Reg.CV_CFG u) d)
      fun l s => s.upd l fun L => L.plainGo p (Reg.CV_CFG u) d := by
  have hoff : Reg.CV_CFG u % 0x1000 = 0x40 := by unfold Reg.CV_CFG; omega
  have hwin : inImageWindow (Reg.CV_CFG u) = false := decide_eq_false (by unfold Reg.CV_CFG; omega)
  have hrow : (rowOf (Reg.CV_CFG u)).isNone = false := by
    rw [rowOf, pageOf_cvCfg u hu, hoff]
    rfl
  unfold State.laneWord State.plainWrite
  rw [hwin, pageOf_cvCfg u hu, hoff, hrow]
  rfl

theorem plainBar_cvCfg (L : LaneSt) (ap : WAper) {u : Nat} (d : Word) (hu : u < 24) : plainBar L ap (Reg.CV_CFG u) d = Reason.readOnly := by
  have hoff : Reg.CV_CFG u % 0x1000 = 0x40 := by unfold Reg.CV_CFG; omega
  have hrow : rowOf (Reg.CV_CFG u) = some { off := 0x40, n := 1, reset := 0, rw := 0x7FF, w1c := 0, wb := 0, wo := 0, rv := 0 } := by
    rw [rowOf, pageOf_cvCfg u hu, hoff]
    rfl
  unfold plainBar
  rw [hrow, pageOf_cvCfg u hu, hoff]
  exact (if_neg (by decide)).trans (if_pos ⟨rfl, hu, by decide⟩)

theorem registerWrite_cvCfg {s : State} {p : Port} {d : Word} {token : Half} {tag : Byte} {u : Nat} (hu : u < 24)
    (hk : s.TakesWrite p (Blk.ofOff (Base.cv u))) :
    exec (.registerWrite (BitVec.ofNat 32 (0x40000000 + Reg.CV_CFG u)) p d token tag) s
      = .next (s.updAll fun l L => L.refuse l p (0x40000000 + Reg.CV_CFG u) Reason.readOnly s.cyc.num) := by
  have hoff : Reg.CV_CFG u < 0x10000000 := by unfold Reg.CV_CFG; omega
  have hblk : Blk.ofOff (Reg.CV_CFG u) = Blk.ofOff (Base.cv u) := by
    have h1 : (0x4020040 + 0x1000 * u) / 0x1000 = (0x4020000 + 0x1000 * u) / 0x1000 := by omega
    have h2 : (0x4020040 + 0x1000 * u) / 0x1000000 = (0x4020000 + 0x1000 * u) / 0x1000000 := by omega
    unfold Blk.ofOff
    rw [h1, h2]
  have hmap : mapped (Reg.CV_CFG u) = true := by
    rw [mapped, pageOf_cvCfg u hu]
    rfl
  have hwb : holdsWb (Reg.CV_CFG u) = false := by
    have hmod : Reg.CV_CFG u % 0x1000 = 0x40 := by unfold Reg.CV_CFG; omega
    rw [holdsWb, rowOf, pageOf_cvCfg u hu, hmod]
    rfl
  rw [← hblk] at hk
  have hm : s.mstate ≠ .off := hk.1
  rw [execRegisterWrite_on hm, toNat_addr (ap := 4) (by decide) hoff,
    State.writeWord_broadcast (by unfold Reg.CV_CFG; omega) hmap (atOff 4 hoff) hwb, answered_state, State.laneWord_cvCfg _ _ _ _ hu,
    State.laneWrite_of_takes hk, State.laneTake_state p .broadcast _ _ _ fun _ _ _ => rfl]
  refine congrArg Host.Outcome.next (State.updIn_congr fun l _ => ?_)
  rw [LaneSt.writeBar_of_takes hk, plainBar_cvCfg _ _ _ hu]
  rfl

/-! ### Registers held per port (R235) -/

theorem LaneSt.sel_setSel_of_ne_default (L : LaneSt) (p : Port) (off : Nat) {v : Word}
    (h : v ≠ Sys2Proof.Machine.resetOf ((portCode p * 0x10000000 + off) % 0x10000000)) : (L.setSel p off v).sel p off = v :=
  SMap.get_put_of_ne_default (fun k => Sys2Proof.Machine.resetOf (k % 0x10000000)) v _ h L.sels

/-- The port of a code of `BLK_STAT.PORT`. -/
def portOfCode (c : Nat) : Port := if c = 0x01 then .host else if c = 0x20 then .internal else .maint (BitVec.ofNat 2 (c - 0x10))

theorem portCode_injective : Function.Injective portCode := by
  refine Function.LeftInverse.injective (g := portOfCode) fun p => ?_
  cases p with
  | host => rfl
  | maint n => exact (by decide : ∀ n : BitVec 2, portOfCode (portCode (.maint n)) = .maint n) n
  | internal => rfl

theorem LaneSt.sel_setSel_of_ne (L : LaneSt) {p q : Port} (off : Nat) (v : Word) (h : q ≠ p) : (L.setSel p off v).sel q off = L.sel q off :=
  SMap.get_put_of_ne _ _ _ _ _ fun e => h (portCode_injective (by omega))

theorem maskWrite_low (v d : Word) : (maskWrite v d 0x1fff).toNat % 8192 = d.toNat % 8192 := by
  apply Nat.eq_of_testBit_eq
  intro i
  rw [show 8192 = 2 ^ 13 by decide, Nat.testBit_mod_two_pow, Nat.testBit_mod_two_pow, BitVec.testBit_toNat, BitVec.testBit_toNat]
  by_cases hi : i < 13
  · have hm : (BitVec.ofNat 32 0x1fff).getLsbD i = true := by
      rw [BitVec.getLsbD_ofNat, show 0x1fff = 2 ^ 13 - 1 by decide, Nat.testBit_two_pow_sub_one]
      simp only [hi, decide_true, Bool.and_true, decide_eq_true_eq]
      omega
    simp only [maskWrite, BitVec.getLsbD_or, BitVec.getLsbD_and, BitVec.getLsbD_not, hm]
    simp
  · simp [hi]

theorem registerWrite_tmrSel {s : State} {p : Port} {d : Word} {token : Half} {tag : Byte} {l : Lane}
    (hk : s.TakesWrite p (Blk.ofOff Reg.TMR_SEL)) :
    exec (.registerWrite (BitVec.ofNat 32 (l.code * 0x10000000 + Reg.TMR_SEL)) p d token tag) s
      = .next (s.upd l fun L => L.setSel p Reg.TMR_SEL (maskWrite (L.sel p Reg.TMR_SEL) d 0x1fff)) := by
  have hl := Lane.code_lt l
  have hm : s.mstate ≠ .off := hk.1
  have hgo : s.laneWord p (.lane l) Reg.TMR_SEL d = s.laneWrite p (.lane l) Reg.TMR_SEL (fun L => plainBar L (.lane l) Reg.TMR_SEL d)
      fun l s => s.upd l fun L => L.plainGo p Reg.TMR_SEL d := rfl
  have hbar : plainBar (s.lane.get l) (.lane l) Reg.TMR_SEL d = 0 := rfl
  rw [execRegisterWrite_on hm, toNat_addr (by omega) (by decide), State.writeWord_lane (by decide) (by decide) (atOff l.code (by decide)),
    if_neg (by decide), answered_state, hgo, State.laneWrite_of_takes hk,
    State.laneTake_own p _ ((LaneSt.writeBar_of_takes hk l _).trans hbar)]
  rfl

theorem tmrSel_takes {s : State} {p : Port} (d : Word) (token : Half) (tag : Byte) {l : Lane} (hk : s.TakesWrite p (Blk.ofOff Reg.TMR_SEL)) :
    ∃ t, exec (.registerWrite (BitVec.ofNat 32 (l.code * 0x10000000 + Reg.TMR_SEL)) p d token tag) s = .next t
      ∧ (d.toNat % 8192 ≠ 0 → ((t.lane.get l).sel p Reg.TMR_SEL).toNat % 8192 = d.toNat % 8192)
      ∧ (∀ q : Port, q ≠ p → (t.lane.get l).sel q Reg.TMR_SEL = (s.lane.get l).sel q Reg.TMR_SEL)
      ∧ (t.lane.get l).regs = (s.lane.get l).regs ∧ s.Steady t ∧ ∀ x : Lane, x ≠ l → t.lane.get x = s.lane.get x := by
  refine ⟨_, registerWrite_tmrSel hk, fun hd => ?_, fun q hq => ?_, ?_, ⟨rfl, rfl, rfl⟩, fun x hx => State.upd_lane_of_ne s _ hx⟩
  · have hv := maskWrite_low ((s.lane.get l).sel p Reg.TMR_SEL) d
    have hne : maskWrite ((s.lane.get l).sel p Reg.TMR_SEL) d 0x1fff
        ≠ Sys2Proof.Machine.resetOf ((portCode p * 0x10000000 + Reg.TMR_SEL) % 0x10000000) := by
      rw [(atOff (portCode p) (by decide : Reg.TMR_SEL < 0x10000000)).2]
      intro e
      rw [e] at hv
      exact hd hv.symm
    rw [State.upd_lane_self, LaneSt.sel_setSel_of_ne_default _ _ _ hne, hv]
  · rw [State.upd_lane_self]
    exact LaneSt.sel_setSel_of_ne _ _ _ hq
  · rw [State.upd_lane_self]
    rfl

/-! ### The lamp test (R598) -/

theorem State.moduleWord_ledTest {s : State} {p : Port} (d : Word) (ha : s.accessOf p ≠ .view) :
    s.moduleWord p Reg.LED_TEST d = ⟨s.ledGo d, stOk, 0⟩ := by
  have hrow : modRowOf Reg.LED_TEST = some { off := 0x44, n := 1, reset := 0, rw := 1, w1c := 0, wb := 0, wo := 0, rv := 0 } := rfl
  unfold State.moduleWord
  dsimp only
  rw [if_neg (by decide), hrow]
  dsimp only
  rw [if_neg ha, if_neg (by decide), if_neg (by decide), if_neg (by decide), if_pos rfl]

theorem registerWrite_ledTest {s : State} {p : Port} {d : Word} {token : Half} {tag : Byte} (hm : s.mstate ≠ .off)
    (ha : s.accessOf p ≠ .view) (hd : d.toNat.testBit 0 = true) :
    exec (.registerWrite (BitVec.ofNat 32 (0x50000000 + Reg.LED_TEST)) p d token tag) s
      = .next { s with power := { s.power with ledTest := true, ledAt := s.now } } := by
  have hoff : Reg.LED_TEST < 0x10000000 := by decide
  rw [execRegisterWrite_on hm, toNat_addr (ap := 5) (by decide) hoff, State.writeWord_module (atOff 5 hoff) (by decide),
    State.moduleWord_ledTest d ha]
  exact congrArg Host.Outcome.next (if_pos hd)

/-! ### A word of the voted aperture (R70, R71) -/

/-- Two pairs of the three lanes meet. -/
theorem Lane.pairs_meet {x y l m : Lane} (hxy : x ≠ y) (hlm : l ≠ m) : l = x ∨ l = y ∨ m = x ∨ m = y := by
  revert hxy hlm
  cases x <;> cases y <;> cases l <;> cases m <;> decide

/-- Of the lanes of a set two hold a value: so does every pair that agrees. -/
theorem majority_of_two {α : Type} [DecidableEq α] {ls : LaneSet} {v : LaneVec α} {l m : Lane} {w : α} (hne : l ≠ m)
    (hl : ls.get l = true) (hm : ls.get m = true) (hlw : v.get l = w) (hmw : v.get m = w) : majority ls v = some w := by
  have pair {x y : Lane} (hxy : x ≠ y) (h : v.get x = v.get y) : v.get x = w := by
    rcases Lane.pairs_meet hxy hne with rfl | rfl | rfl | rfl
    · exact hlw
    · exact h.trans hlw
    · exact hmw
    · exact h.trans hmw
  have agree (x y : Lane) (h : (ls.get x && ls.get y && decide (v.get x = v.get y)) = true) : v.get x = v.get y :=
    of_decide_eq_true (Bool.and_eq_true_iff.1 h).2
  unfold majority
  split_ifs with hab hac hbc
  · exact congrArg some (pair (by decide) (agree .A .B hab))
  · exact congrArg some (pair (by decide) (agree .A .C hac))
  · exact congrArg some (pair (by decide) (agree .B .C hbc))
  · have heq : (ls.get l && ls.get m && decide (v.get l = v.get m)) = true := by
      rw [hl, hm, hlw, hmw]
      exact decide_eq_true rfl
    have heq' : (ls.get m && ls.get l && decide (v.get m = v.get l)) = true := by
      rw [hl, hm, hlw, hmw]
      exact decide_eq_true rfl
    cases l <;> cases m
    · exact absurd rfl hne
    · exact absurd heq hab
    · exact absurd heq hac
    · exact absurd heq' hab
    · exact absurd rfl hne
    · exact absurd heq hbc
    · exact absurd heq' hac
    · exact absurd heq' hbc
    · exact absurd rfl hne

/-- A register that is neither a token, a word of a group nor a word of a CAN buffer. -/
structure PlainOff (off : Nat) : Prop where
  win    : inImageWindow off = false
  token  : off % 0x1000 ≠ 0x28
  group  : groupOf off = none
  cbPort : cbPort off = none

/-- Reading such a register changes nothing. -/
theorem State.readIn_plain {s : State} {l : Lane} {p : Port} {off : Nat} (h : PlainOff off)
    (hr : (s.lane.get l).inReset (Blk.ofOff off) = false) : s.readIn l p true off = (s, 0, s.readReg l p off) := by
  have hpage : Blk.ofOff (refusalPage off) = Blk.ofOff off := by
    have h1 : off / 0x1000 * 0x1000 / 0x1000000 = off / 0x1000000 := by omega
    have h2 : off / 0x1000 * 0x1000 / 0x1000 = off / 0x1000 := by omega
    rw [refusalPage, h.win, if_neg Bool.false_ne_true, Blk.ofOff, h1, h2, Blk.ofOff]
  have hbefore : s.beforeRead l p off = s := by rw [State.beforeRead, h.cbPort]
  have hgroup : s.groupRead l p off = (s, s.readReg l p off) := by rw [State.groupRead, h.group]
  have hgen : off ≠ Reg.IMAGE_GEN := by
    rintro rfl
    exact absurd h.group (by decide)
  have hcursor : ¬ advancesCursor off = true := by
    intro hc
    have e : off = Reg.TALLY_WIN 63 := eq_of_beq hc
    exact absurd h.group (by rw [e]; decide)
  have hafter : s.afterRead l p off = s := by
    rw [State.afterRead, if_neg hgen, if_neg hcursor, h.cbPort]
  unfold State.readIn
  dsimp only
  rw [hpage, hr, if_neg Bool.false_ne_true, h.win, if_neg Bool.false_ne_true, if_neg h.token, hbefore, hgroup, hafter]

/-- Two counted lanes that give a word: the voted aperture reads it. -/
theorem State.readVoted_of_two {s : State} {p : Port} {off : Nat} {l m : Lane} {w : Word} (h : PlainOff off)
    (hr : ∀ x : Lane, (s.lane.get x).inReset (Blk.ofOff off) = false) (hne : l ≠ m) (hl : s.countedLanes.get l = true)
    (hm : s.countedLanes.get m = true) (hlw : s.readReg l p off = w) (hmw : s.readReg m p off = w) :
    s.readVoted p off = ⟨s, stOk, 0, w⟩ := by
  have hone (x : Lane) : s.readOne x p off (.all true) = (s, 0, s.readReg x p off) :=
    (if_pos (LaneVec.get_all ..)).trans (State.readIn_plain h (hr x))
  have hwords (x : Lane) : (⟨s.readReg .A p off, s.readReg .B p off, s.readReg .C p off⟩ : LaneVec Word).get x = s.readReg x p off := by
    cases x <;> rfl
  have hzero (x : Lane) : (⟨0, 0, 0⟩ : LaneVec Nat).get x = 0 := by
    cases x <;> rfl
  have hcount (x : Lane) (hx : s.countedLanes.get x = true) :
      (LaneVec.ofFn fun l => s.countedLanes.get l && (⟨0, 0, 0⟩ : LaneVec Nat).get l == 0 : LaneSet).get x = true := by
    rw [LaneVec.get_ofFn, hx, hzero]
    rfl
  have hmaj := majority_of_two hne (hcount l hl) (hcount m hm) ((hwords l).trans hlw) ((hwords m).trans hmw)
  unfold State.readVoted
  dsimp only
  rw [hone, hone, hone, hmaj]

theorem State.readWord_voted {s : State} {p : Port} {off : Nat} (ho : off < 0x10000000) (h4 : off % 4 = 0) (hmap : mapped off = true)
    (hc : advancesCursor off = false ∨ s.accessOf p ≠ .view) : s.readWord p (0x30000000 + off) = s.readVoted p off := by
  obtain ⟨hap, hoff⟩ := atOff 3 ho
  have hcur : ¬ (advancesCursor off = true ∧ s.accessOf p = .view) := fun h =>
    hc.elim (fun e => Bool.false_ne_true (e.symm.trans h.1)) fun e => e h.2
  unfold State.readWord
  dsimp only
  rw [show 0x30000000 + off = 3 * 0x10000000 + off by omega, hap, hoff, if_neg (by omega), if_neg (by omega), hmap, if_neg (by decide), if_neg (by omega),
    if_neg hcur]
  rfl

/-- Settles O37: each clause is one branch of the word written or read, by the parts of its address. -/
theorem registerWrites : Obligations.RegisterWrites := by
  intro s p d token tag
  refine ⟨fun off ho => ⟨fun h4 hmap => registerWrite_voted ho h4 hmap, fun ap hap h => registerWrite_nowhere hap ho h,
    fun l h4 hmap hwb h8 hm ha => registerWrite_wbByLane l ho h4 hmap hwb h8 hm ha⟩, ?read, fun u hu hk => registerWrite_cvCfg hu hk,
    fun l hk => tmrSel_takes d token tag hk, fun hm ha hd => registerWrite_ledTest hm ha hd⟩
  case read =>
    intro off w l m ho hwin h4 hmap htok hgroup hcb hcur hr hne hl hm hlw hmw
    rw [State.readWord_voted ho h4 hmap hcur, State.readVoted_of_two ⟨hwin, htok, hgroup, hcb⟩ hr hne hl hm hlw hmw]
    exact ⟨rfl, rfl⟩

end Sys2Proof.Machine
end

section
/-! What a read does besides (R69, R86, R87, R92, R110, R140, R564): tokens, groups latched, pins, the cursor; writes dropped. -/

namespace Sys2Proof.Machine

/-! ### An entry that replaces its own kind -/

theorem find?_filter_not {α : Type} {q r : α → Bool} (h : ∀ x, r x = true → q x = true) (xs : List α) :
    (xs.filter fun x => !q x).find? r = none := by
  rw [List.find?_eq_none]
  intro x hx hr
  have hq := (List.mem_filter.1 hx).2
  rw [h x hr] at hq
  exact Bool.false_ne_true hq

theorem find?_filter_not_append {α : Type} {q r : α → Bool} (h : ∀ x, r x = true → q x = true) (xs : List α) (y : α) :
    ((xs.filter fun x => !q x) ++ [y]).find? r = if r y then some y else none := by
  rw [List.find?_append, find?_filter_not h, Option.none_or, List.find?_singleton]

/-! ### The effect of a read (R69, R112) -/

/-- A refusal touches the registers of a lane and its book alone. -/
theorem LaneSt.refuse_frame (L : LaneSt) (l : Lane) (p : Port) (addr reason cycle : Nat) :
    let R := L.refuse l p addr reason cycle
    R = { L with obKept := R.obKept, obRing := R.obRing, obNext := R.obNext, obCount := R.obCount, regs := R.regs } :=
  (LaneSt.record_frame ..).1

theorem LaneSt.refuse_pend (L : LaneSt) (l : Lane) (p : Port) (addr reason cycle : Nat) : (L.refuse l p addr reason cycle).pend = L.pend := by
  rw [LaneSt.refuse_frame]

theorem LaneSt.refuse_tokens (L : LaneSt) (l : Lane) (p : Port) (addr reason cycle : Nat) : (L.refuse l p addr reason cycle).tokens = L.tokens := by
  rw [LaneSt.refuse_frame]

/-- Through a lane's own aperture. -/
theorem State.readEffect_own (s : State) (l : Lane) (p : Port) (off : Nat) (go : Lane → State → State) :
    s.readEffect (.lane l) p off go = if (s.lane.get l).inReset (Blk.ofOff off) then
        s.refuseIn (oneLane l) p (l.code * 0x10000000 + off) Reason.inReset
      else go l s := by
  cases l <;> rfl

/-- Through the voted aperture, an effect that stays in each lane: every lane takes it, or refuses it where the block is in reset. -/
theorem State.readEffect_voted {s : State} (p : Port) (off : Nat) {go : Lane → State → State} (f : LaneSt → LaneSt)
    (hgo : ∀ (u : State) (l : Lane), go l u = u.upd l f) :
    s.readEffect .voted p off go = s.updAll fun l L =>
      if L.inReset (Blk.ofOff off) then L.refuse l p (3 * 0x10000000 + off) Reason.inReset s.cyc.num else f L := by
  unfold State.readEffect
  refine State.foldl_lanes (.all true) _ fun v l _ => ?_
  have hall : (rLanes .voted).get l = true := LaneVec.get_all ..
  rw [hall, LaneVec.get_all, if_pos rfl, if_neg (by decide)]
  split
  · next hr => exact (State.updIn_oneLane ..).trans (State.upd_congr _ l (if_pos hr).symm)
  · next hr => exact (hgo ..).trans (State.upd_congr _ l (if_neg hr).symm)

/-! ### Write tokens (R86, R87) -/

/-- The token issued last is the page's current one. -/
theorem LaneSt.tokenOf_issueToken (L : LaneSt) (p : Port) (page : Nat) : (L.issueToken p page).tokenOf page
    = some ⟨page, Config.token L.seed page (getD 0 L.gens page + 1), p, L.clock⟩ := by
  have hfilter : (fun t : Token => decide (t.page ≠ page)) = fun t => !(t.page == page) := by
    funext t
    exact decide_not
  unfold LaneSt.tokenOf LaneSt.issueToken
  dsimp only
  rw [hfilter, find?_filter_not_append fun _ => id, if_pos (beq_self_eq_true page)]

/-- A token that has been presented serves no more. -/
theorem LaneSt.tokenCheck_useToken (L : LaneSt) (p : Port) (page : Nat) (v : Half) : (L.useToken page v).tokenCheck p page v ≠ 0 := by
  unfold LaneSt.tokenCheck
  split
  · decide
  · cases ht : (L.useToken page v).tokenOf page with
    | none => exact (by decide : Reason.tokenInvalid ≠ 0)
    | some t =>
      have hpage := List.find?_some ht
      have hmem := (List.mem_filter.1 (List.mem_of_find?_eq_some ht)).2
      rw [hpage, Bool.true_and, Bool.not_eq_true', beq_eq_false_iff_ne] at hmem
      dsimp only
      rw [if_pos (.inl hmem)]
      decide

theorem tokenIssue_issues {s : State} (p : Port) {k : Blk} (hm : s.mstate ≠ .off) (hp : (pageOf (Blk.base k)).isSome = true) :
    ∃ t, exec (.tokenIssue k p) s = .next t ∧ s.Steady t
      ∧ ∀ l : Lane, ((s.lane.get l).inReset k = true → (t.lane.get l).tokens = (s.lane.get l).tokens)
        ∧ ((s.lane.get l).inReset k = false →
          (t.lane.get l).tokenOf (Blk.base k) = some ⟨Blk.base k,
              Config.token (s.lane.get l).seed (Blk.base k) (getD 0 (s.lane.get l).gens (Blk.base k) + 1), p, (s.lane.get l).clock⟩
          ∧ ∀ v : Half, ((t.lane.get l).useToken (Blk.base k) v).tokenCheck p (Blk.base k) v ≠ 0) := by
  have hgoes : ¬ (s.mstate = .off ∨ (pageOf (Blk.base k)).isNone = true) := not_or.2 ⟨hm, page_not_isNone hp⟩
  have he : exec (.tokenIssue k p) s = .next (s.readEffect .voted p (Blk.base k + 0x28) fun l s => s.upd l fun L => L.issueToken p (Blk.base k)) :=
    if_neg hgoes
  rw [State.readEffect_voted p _ _ fun _ _ => rfl] at he
  refine ⟨_, he, ⟨rfl, rfl, rfl⟩, fun l => ?_⟩
  rw [State.updAll_lane, Blk.ofOff_base_add k (by decide)]
  refine ⟨fun hr => ?_, fun hr => ?_⟩
  · rw [if_pos hr, LaneSt.refuse_tokens]
  · rw [if_neg (Bool.eq_false_iff.1 hr)]
    exact ⟨LaneSt.tokenOf_issueToken .., LaneSt.tokenCheck_useToken _ p _⟩

/-! ### A write that a lane lacks (R92) -/

/-- The result ring is outside the lanes. -/
theorem State.ringResult_frame (s : State) (p : Port) (tag : Byte) (reason : Nat) :
    ∃ mregs held, s.ringResult p tag reason = { s with mregs := mregs, held := held } := by
  unfold State.ringResult
  split
  · exact ⟨_, _, rfl⟩
  · split
    · exact ⟨_, _, rfl⟩
    · split
      · exact ⟨_, _, rfl⟩
      · exact ⟨_, _, rfl⟩

/-- A pending write of an offset, a port and a tag. -/
def PendWrite.isOf (off : Nat) (p : Port) (tag : Byte) (w : PendWrite) : Bool := decide (w.addr = off ∧ w.port = p ∧ w.tag = tag)

theorem Lane.any_of {q : Lane → Bool} (l : Lane) (h : q l = true) : Lane.list.any q = true :=
  List.any_eq_true.2 ⟨l, by cases l <;> decide, h⟩

/-- The pending writes that are hit leave every lane. -/
def State.dropHit (s : State) (hit : PendWrite → Bool) : State := s.updAll fun _ L => { L with pend := L.pend.filter fun w => !hit w }

/-- Some lane holds the write and a counted one lacks it: it leaves every lane. -/
theorem missing_drops {s : State} {p : Port} {addr : Word} {tag : Byte} (l m : Lane) (hc : s.counting.get l = true)
    (hlacks : (s.lane.get l).pend.any (PendWrite.isOf (addr.toNat % 0x10000000) p tag) = false)
    (hheld : (s.lane.get m).pend.any (PendWrite.isOf (addr.toNat % 0x10000000) p tag) = true) :
    ∃ t, exec (.missing addr p tag) s = .next t ∧ s.Steady t ∧ ∀ x : Lane, (t.lane.get x).pend
      = (s.lane.get x).pend.filter fun w => !PendWrite.isOf (addr.toNat % 0x10000000) p tag w := by
  have hhit (w : PendWrite) : (w.addr == addr.toNat % 0x10000000 && w.port == p && w.tag == tag)
      = PendWrite.isOf (addr.toNat % 0x10000000) p tag w := by
    rw [PendWrite.isOf, Bool.decide_and, Bool.decide_and, Bool.and_assoc]
    rfl
  have hany : (Lane.list.any (fun l => (s.lane.get l).pend.any (PendWrite.isOf (addr.toNat % 0x10000000) p tag))
      && Lane.list.any fun l => s.counting.get l && !(s.lane.get l).pend.any (PendWrite.isOf (addr.toNat % 0x10000000) p tag)) = true := by
    rw [Lane.any_of m hheld, Lane.any_of l (by rw [hc, hlacks]; rfl)]
    rfl
  have he : exec (.missing addr p tag) s = execMissing addr p tag s := rfl
  unfold execMissing at he
  simp only [hhit] at he
  rw [if_pos hany] at he
  obtain ⟨mregs, held, hring⟩ := State.ringResult_frame ((s.dropHit (PendWrite.isOf (addr.toNat % 0x10000000) p tag)).refuseIn
    (s.refusedIn (PendWrite.isOf (addr.toNat % 0x10000000) p tag)) p (0x40000000 + addr.toNat % 0x10000000) Reason.missing)
    p tag Reason.missing
  refine ⟨_, he.trans (congrArg Host.Outcome.next hring), ⟨rfl, rfl, rfl⟩, fun x => ?_⟩
  dsimp only
  unfold State.refuseIn State.dropHit
  rw [State.updIn_lane, State.updAll_lane]
  split
  · exact LaneSt.refuse_pend ..
  · rfl

/-! ### Groups latched (R110) -/

/-- A copy stands for 1 ms. -/
theorem findHolding_putHolding (hs : List Holding) (h : Holding) (now : Nat) :
    findHolding (putHolding hs h) h.port h.base now = if now < h.at_ + 1000000 then some h.words else none := by
  unfold findHolding putHolding
  rw [find?_filter_not_append fun x hx => (Bool.and_eq_true_iff.1 hx).1, beq_self_eq_true, beq_self_eq_true, Bool.true_and,
    Bool.true_and]
  split_ifs with hd hn hn
  · rfl
  · exact absurd (of_decide_eq_true hd) hn
  · exact absurd (decide_eq_true hn) hd
  · rfl

section Latch

variable {s : State} {a : BitVec 28} {n : Nat} (p : Port) (l : Lane) (hg : groupOf a.toNat = some (a.toNat, n))

include hg

theorem execMultiwordLatch_own (hm : s.mstate ≠ .off) : exec (.multiwordLatch (.lane l) a p) s = .next
    (if (s.lane.get l).inReset (Blk.ofOff a.toNat) then s.refuseIn (oneLane l) p (l.code * 0x10000000 + a.toNat) Reason.inReset
      else s.latch l p (a.toNat, n)) := by
  have he : exec (.multiwordLatch (.lane l) a p) s = execMultiwordLatch (.lane l) a p s := rfl
  unfold execMultiwordLatch at he
  rw [hg] at he
  rw [he]
  exact (if_pos ⟨rfl, hm⟩).trans (congrArg Host.Outcome.next (State.readEffect_own ..))

theorem multiwordLatch_latches (hm : s.mstate ≠ .off) (hr : (s.lane.get l).inReset (Blk.ofOff a.toNat) = false) :
    ∃ t, exec (.multiwordLatch (.lane l) a p) s = .next t ∧ s.Steady t ∧ (t.lane.get l).regs = (s.lane.get l).regs
      ∧ findHolding (t.lane.get l).holds p a.toNat (s.now + 999999) = some (s.groupWords l p (a.toNat, n))
      ∧ findHolding (t.lane.get l).holds p a.toNat (s.now + 1000000) = none := by
  have hfind (now : Nat) := findHolding_putHolding (s.lane.get l).holds ⟨p, a.toNat, s.now, s.groupWords l p (a.toNat, n)⟩ now
  refine ⟨_, (execMultiwordLatch_own p l hg hm).trans (congrArg Host.Outcome.next (if_neg (Bool.eq_false_iff.1 hr))), ⟨rfl, rfl, rfl⟩, ?_⟩
  unfold State.latch
  rw [State.upd_lane_self]
  exact ⟨rfl, (hfind _).trans (if_pos (Nat.add_lt_add_left (by decide) _)), (hfind _).trans (if_neg (Nat.lt_irrefl _))⟩

theorem holdingCopyExpiry_drops : ∃ t, exec (.holdingCopyExpiry l a p) s = .next t ∧ s.Steady t ∧ (t.lane.get l).regs = (s.lane.get l).regs
    ∧ ∀ now : Nat, findHolding (t.lane.get l).holds p a.toNat now = none := by
  have he : exec (.holdingCopyExpiry l a p) s = execHoldingCopyExpiry l a p s := rfl
  unfold execHoldingCopyExpiry at he
  rw [hg] at he
  refine ⟨_, he, ⟨rfl, rfl, rfl⟩, ?_⟩
  rw [State.upd_lane_self]
  exact ⟨rfl, fun now => Option.map_eq_none_iff.2 (find?_filter_not (fun x hx => (Bool.and_eq_true_iff.1 hx).1) _)⟩

end Latch

/-! ### Pins (R140, R143) -/

theorem LaneSt.pinOf_setPin {L : LaneSt} (p : Port) (h : L.pubGen ≠ 0) : (L.setPin p).pinOf p = some { port := p, gen := L.pubGen, expired := false } := by
  unfold LaneSt.setPin
  rw [if_neg h]
  exact (find?_filter_not_append (q := fun q : Pin => q.port == p) (fun _ => id) _ _).trans (if_pos (beq_self_eq_true p))

/-- A pin changes its lane's image alone. -/
theorem State.pinIn_eq (s : State) (l : Lane) (p : Port) : s.pinIn l p = s ∨ s.pinIn l p = s.upd l fun L => L.setPin p := by
  unfold State.pinIn
  cases s.mode l
  case active => exact .inr rfl
  case probation => exact .inr rfl
  case excluded => exact .inl rfl
  case resync => exact .inl rfl
  case halted => exact .inl rfl

theorem State.pinIn_active {s : State} {l : Lane} (p : Port) (h : s.isActive l = true) : s.pinIn l p = s.upd l fun L => L.setPin p := by
  have hmode : s.mode l = .active := eq_of_beq h
  rw [State.pinIn, hmode]

theorem State.pinIn_none {s : State} {l : Lane} (p : Port)
    (h : s.mode l = .excluded ∨ s.mode l = .halted ∨ s.mode l = .resync ∨ (s.lane.get l).pubGen = 0) : s.pinIn l p = s := by
  obtain hm | hm | hm | hg := h
  · rw [State.pinIn, hm]
  · rw [State.pinIn, hm]
  · rw [State.pinIn, hm]
  · exact (s.pinIn_eq l p).elim id fun e => e.trans (State.upd_id s l (if_pos hg))

theorem execPin_own {s : State} (p : Port) {l : Lane} (hm : s.mstate ≠ .off) (hr : (s.lane.get l).inReset (Blk.ofOff Reg.IMAGE_GEN) = false) :
    exec (.pin (.lane l) p) s = .next (s.pinIn l p) :=
  congrArg Host.Outcome.next ((if_neg hm).trans ((State.readEffect_own ..).trans (if_neg (Bool.eq_false_iff.1 hr))))

/-! ### The tally cursor (R564) -/

theorem LaneSt.sel_advanceTally {L : LaneSt} (p : Port) (hw : L.wf = true) :
    ((L.advanceTally p).sel p Reg.TALLY_CUR).toNat = ((L.sel p Reg.TALLY_CUR).toNat % 16384 + 1) % 16384 := by
  have hsels := (Bool.and_eq_true_iff.1 hw).2
  have hget : (L.advanceTally p).sel p Reg.TALLY_CUR = BitVec.ofNat 32 (((L.sel p Reg.TALLY_CUR).toNat % 16384 + 1) % 16384) :=
    SMap.get_put_self _ _ _ _ hsels
  rw [hget, BitVec.toNat_ofNat]
  omega

theorem tallyCursorAdvance_advances {s : State} {p : Port} (hm : s.mstate ≠ .off) (ha : s.accessOf p ≠ .view) :
    ∃ t, exec (.tallyCursorAdvance .voted p) s = .next t ∧ s.Steady t
      ∧ ∀ l : Lane, (s.lane.get l).wf = true → (s.lane.get l).inReset (Blk.ofOff (Reg.TALLY_WIN 63)) = false →
        ((t.lane.get l).sel p Reg.TALLY_CUR).toNat = (((s.lane.get l).sel p Reg.TALLY_CUR).toNat % 16384 + 1) % 16384 := by
  have he : exec (.tallyCursorAdvance .voted p) s
      = .next (s.readEffect .voted p (Reg.TALLY_WIN 63) fun l s => s.upd l fun L => L.advanceTally p) :=
    (if_neg hm).trans (if_neg ha)
  rw [State.readEffect_voted p _ _ fun _ _ => rfl] at he
  refine ⟨_, he, ⟨rfl, rfl, rfl⟩, fun l hw hr => ?_⟩
  rw [State.updAll_lane, if_neg (Bool.eq_false_iff.1 hr)]
  exact LaneSt.sel_advanceTally p hw

/-- Settles O40: what a read does besides stays in the lanes that it reaches. -/
theorem tokensGroupsAndPins : Obligations.TokensGroupsAndPins := by
  intro s p
  refine ⟨fun k hm hp => tokenIssue_issues p hm hp, ?missing, ?group, ?pin, fun hm ha => (if_neg hm).trans (if_pos ha),
    fun hm ha => tallyCursorAdvance_advances hm ha⟩
  case missing =>
    intro addr tag l m w hc hlacks hw haddr hport htag
    exact missing_drops l m hc (List.any_eq_false.2 fun x hx => fun h => hlacks x hx (of_decide_eq_true h))
      (List.any_eq_true.2 ⟨w, hw, decide_eq_true ⟨haddr, hport, htag⟩⟩)
  case group =>
    intro l a n hg hm
    exact ⟨fun hr => (execMultiwordLatch_own p l hg hm).trans (congrArg Host.Outcome.next (if_pos hr)),
      multiwordLatch_latches p l hg hm, holdingCopyExpiry_drops p l hg⟩
  case pin =>
    intro l hm hr
    refine ⟨_, execPin_own p hm hr, ?_, fun ha hg => ?_, State.pinIn_none p⟩
    · obtain e | e := s.pinIn_eq l p <;> rw [e] <;> exact ⟨rfl, rfl, rfl⟩
    · rw [State.pinIn_active p ha, State.upd_lane_self]
      exact LaneSt.pinOf_setPin p hg

end Sys2Proof.Machine
end

section
/-! The host port and the maintenance sessions (R69, R102, R106 to R108, R603): POLL, responses, missing answers, TLS. -/

namespace Sys2Proof.Machine

/-! ### Sessions -/

theorem State.maintSt_setMaint_of_ne_default (s : State) (n : Nat) (f : MaintSt → MaintSt) (h : f (s.maintSt n) ≠ {}) :
    (s.setMaint n f).maintSt n = f (s.maintSt n) :=
  SMap.get_put_of_ne_default (fun _ => ({} : MaintSt)) (f (s.maintSt n)) n h s.maint

theorem State.maintSt_setMaint_self (s : State) (n : Nat) (f : MaintSt → MaintSt) (h : SMap.wf (fun _ => ({} : MaintSt)) s.maint = true) :
    (s.setMaint n f).maintSt n = f (s.maintSt n) :=
  SMap.get_put_self _ _ _ _ h

theorem State.maintSt_setMaint_of_ne (s : State) {n m : Nat} (f : MaintSt → MaintSt) (h : m ≠ n) :
    (s.setMaint n f).maintSt m = s.maintSt m :=
  SMap.get_put_of_ne _ _ _ _ _ h

/-! ### POLL and RESPONSE_READY (R102, R108) -/

theorem execHpPoll_pending {s : State} (hs : s.hostSilent = false) (hr : s.hp.ready = false) :
    exec .hpPoll s = .next { s with hp := { s.hp with polled := some (plainResp stPending s.hp.tag).frame } } := by
  refine (if_neg (Bool.eq_false_iff.1 hs)).trans ?_
  rw [hr]
  cases s.hp.resp <;> rfl

theorem execHpPoll_ready {s : State} {r : Resp} (hs : s.hostSilent = false) (hp : s.hp.resp = some r) (hr : s.hp.ready = true) :
    exec .hpPoll s = .next { s with hp := { s.hp with fetched := true, polled := some r.frame } } := by
  refine (if_neg (Bool.eq_false_iff.1 hs)).trans ?_
  rw [hp, hr]

/-- A response that is ready shows in the status of the endpoints as READY, not as a request in hand. -/
theorem State.hpStat_ready (s : State) (L : LaneSt) : State.hpStat { s with hp := { s.hp with ready := true } } L % 4 = 2 := by
  unfold State.hpStat
  dsimp only
  rw [Bool.not_true, Bool.and_false]
  simp only [Bool.toNat_false, Bool.toNat_true]
  omega

theorem responseReady_sends {s : State} {n : BitVec 2} {r : Resp} {rs : List Resp} (hq : (s.maintSt n.toNat).queue = r :: rs) :
    ∃ t, exec (.responseReady (.maint n)) s = .next t ∧ t.maintSt n.toNat = { s.maintSt n.toNat with queue := rs, sent := some r.body }
      ∧ t.lane = s.lane ∧ s.Steady t := by
  have he : exec (.responseReady (.maint n)) s = execResponseReady (.maint n) s := rfl
  unfold execResponseReady at he
  dsimp only at he
  rw [hq] at he
  refine ⟨_, he, State.maintSt_setMaint_of_ne_default _ _ _ fun e => ?_, rfl, rfl, rfl, rfl⟩
  exact Option.some_ne_none _ (congrArg MaintSt.sent e)

/-! ### A lane that does not answer (R69) -/

/-- A refusal on a lane's behalf stands in the module aperture and in the books. -/
theorem State.refuseModule_frame (s : State) (p : Port) (page addr reason : Nat) :
    ∃ mregs lane, s.refuseModule p page addr reason = { s with mregs := mregs, lane := lane } := by
  unfold State.refuseModule
  split
  · exact ⟨_, _, rfl⟩
  · exact ⟨_, _, rfl⟩

theorem noAnswer_refused {s : State} {l : Lane} {addr : Word} (ha : addr.toNat / 0x10000000 = l.code) (hs : s.hostSilent = false) :
    ∃ t, exec (.noAnswer l .host addr) s = .next t
      ∧ t.hp.resp = some { status := 3, tag := s.hp.tag, reason := 0x12, data := [] } ∧ t.hp.ready = false ∧ s.Steady t := by
  have he : exec (.noAnswer l .host addr) s = execNoAnswer l .host addr s := rfl
  obtain ⟨mregs, lane, hm⟩ := s.refuseModule_frame .host Base.acc addr.toNat Reason.noAnswer
  have hsilent : ¬ State.hostSilent { s with mregs := mregs, lane := lane } = true := Bool.eq_false_iff.1 hs
  unfold execNoAnswer at he
  dsimp only at he
  rw [if_neg (not_not.2 ha), hm, if_neg hsilent] at he
  exact ⟨_, he, rfl, rfl, rfl, rfl, rfl⟩

/-! ### The TLS handshake (R106, R107) -/

/-- The suite taken is one that the client offers. -/
theorem pickSuite_offered {offered : List Half} {suite : Half} (h : pickSuite offered = some suite) :
    offered.contains suite = true ∧ (suite = 0x1301 ∨ suite = 0x1302) := by
  unfold pickSuite at h
  split_ifs at h with h1 h2
  · obtain rfl := Option.some.inj h
    exact ⟨h1, .inl rfl⟩
  · obtain rfl := Option.some.inj h
    exact ⟨h2, .inr rfl⟩

/-- What a client that is admitted meets. -/
theorem State.admitsClient_meets {s : State} {c : Client} {suite : Half} {cert : Bytes} {r : Nat} (h : s.admitsClient c = some (suite, cert, r)) :
    pickSuite c.suites = some suite ∧ c.cert = some cert ∧ certRole cert = some r
      ∧ (c.tls13 && c.groups.contains 0x0017 && c.schemes.contains 0x0403 && c.proofOk && (s.lane.get s.leadLane).keys.chainsTo cert) = true := by
  unfold State.admitsClient at h
  dsimp only at h
  split at h
  · next suite' cert' r' hsuite hcert hrole =>
    split at h
    · next hall =>
      cases h
      rw [hcert] at hrole
      exact ⟨hsuite, hcert, hrole, hall⟩
    · cases h
  · cases h

theorem KeySt.presented_eq (k : KeySt) : k.presented = if k.op = [] then Config.mfgCert else k.op :=
  if_congr List.isEmpty_iff rfl rfl

theorem State.maintSt_openMaint (s : State) (n role : Nat) (possession : Bool) (cert : Bytes) :
    (s.openMaint n role possession cert).maintSt n
      = { isOpen := true, access := Access.ofCode role, cert := possession, certId := certHash cert } := by
  unfold State.openMaint
  refine State.maintSt_setMaint_of_ne_default _ n _ fun e => ?_
  exact Bool.false_ne_true (congrArg MaintSt.isOpen e).symm

theorem State.maintSt_openMaint_of_ne (s : State) {n m : Nat} (role : Nat) (possession : Bool) (cert : Bytes) (h : m ≠ n) :
    (s.openMaint n role possession cert).maintSt m = s.maintSt m := by
  unfold State.openMaint
  exact State.maintSt_setMaint_of_ne _ _ h

section Handshake

variable {s : State} {c : Client}

theorem execTlsHandshake_silent (h : s.maintListens = false ∨ c.port ≠ 5380) : exec (.tlsHandshake c) s = .next s :=
  if_pos (h.imp (fun e => by rw [e]; rfl) id)

variable (hl : s.maintListens = true) (hp : c.port = 5380)

include hl hp

theorem execTlsHandshake_answers : exec (.tlsHandshake c) s = match s.admitsClient c, s.freeSession with
    | some (suite, cert, r), some n => .next { s.openMaint n r (certPossession cert) cert with
        tlsReply := some (.opened n suite (s.lane.get s.leadLane).keys.presented) }
    | _, _ => .next { s with tlsReply := some .alert } :=
  if_neg (not_or.2 ⟨by rw [hl]; decide, not_not.2 hp⟩)

theorem execTlsHandshake_alert (h : s.admitsClient c = none ∨ s.freeSession = none) :
    exec (.tlsHandshake c) s = .next { s with tlsReply := some .alert } := by
  rw [execTlsHandshake_answers hl hp]
  obtain h | h := h
  · rw [h]
  · rw [h]
    cases s.admitsClient c <;> rfl

theorem tlsHandshake_opens {suite : Half} {cert : Bytes} {r n : Nat} (ha : s.admitsClient c = some (suite, cert, r))
    (hf : s.freeSession = some n) : ∃ t, exec (.tlsHandshake c) s = .next t
      ∧ t.maintSt n = { isOpen := true, access := Access.ofCode r, cert := certPossession cert, certId := certHash cert }
      ∧ t.tlsReply = some (.opened n suite (if (s.lane.get s.leadLane).keys.op = [] then Config.mfgCert else (s.lane.get s.leadLane).keys.op))
      ∧ (∀ m : Nat, m ≠ n → t.maintSt m = s.maintSt m) ∧ s.Steady t := by
  have he := execTlsHandshake_answers hl hp
  rw [ha, hf, KeySt.presented_eq] at he
  exact ⟨_, he, s.maintSt_openMaint n r _ cert, rfl, fun m hm => s.maintSt_openMaint_of_ne r _ cert hm, rfl, rfl, rfl⟩

end Handshake

/-- Settles O39: each clause is one branch of its command; a session opened or sent is no default of the session map. -/
theorem responsesAndSessions : Obligations.ResponsesAndSessions := by
  intro s
  refine ⟨fun h => if_pos h, fun r => execHpPoll_ready, execHpPoll_pending, fun hr hs => ⟨if_pos ?ready, fun l => s.hpStat_ready _⟩,
    fun n r rs => responseReady_sends, fun l addr => noAnswer_refused, ?admits,
    fun c => ⟨execTlsHandshake_silent, execTlsHandshake_alert⟩, ?idle⟩
  case ready =>
    rw [hr, hs]
    rfl
  case admits =>
    intro c suite cert r ha
    obtain ⟨hsuite, hcert, hrole, hall⟩ := State.admitsClient_meets ha
    obtain ⟨hoffered, hwhich⟩ := pickSuite_offered hsuite
    simp only [Bool.and_eq_true] at hall
    obtain ⟨⟨⟨⟨htls, hgroup⟩, hscheme⟩, hproof⟩, hchain⟩ := hall
    exact ⟨htls, hoffered, hwhich, hgroup, hscheme, hproof, hcert, hrole, hchain, fun n hl hp hf => tlsHandshake_opens hl hp ha hf⟩
  case idle =>
    intro n hw
    exact ⟨_, rfl, State.maintSt_setMaint_self _ _ _ hw, ⟨rfl, rfl, rfl⟩, fun l => State.updAll_lane .., fun m => State.maintSt_setMaint_of_ne _ _⟩

end Sys2Proof.Machine
end

section
/-! Forces, possession areas and COMMISSIONING (R83, R88, R487 to R491): the force table through the journal, the stores and the records. -/

namespace Sys2Proof.Machine

/-! ### The fields of `SV_FORCE` (R509) -/

theorem fcOp_withOp (d : Word) {op : Nat} (h : op < 4) : fcOp (withOp d op) = op :=
  (fieldOf_setField d 24 2 op (by decide)).trans (Nat.mod_eq_of_lt h)

theorem fcIdent_withOp (d : Word) (op : Nat) : fcIdent (withOp d op) = fcIdent d :=
  fieldOf_setField_below d 24 2 op 0 16 (by decide) (by decide)

theorem fcBit_withOp (d : Word) (op : Nat) : fcBit (withOp d op) = fcBit d :=
  fieldOf_setField_below d 24 2 op 16 5 (by decide) (by decide)

theorem fcKind_withOp (d : Word) (op : Nat) : fcKind (withOp d op) = fcKind d :=
  fieldOf_setField_below d 24 2 op 22 2 (by decide) (by decide)

/-! ### The force table (R490) -/

/-- Entry `n` is its 16 bytes. -/
theorem LaneSt.forceAt_of_bytes {L M : LaneSt} {n : Nat} (h : ∀ i < 16, M.imgByte (Img.force n + i) = L.imgByte (Img.force n + i)) :
    M.forceAt n = L.forceAt n := by
  have hle : M.imgLe (Img.force n) 2 = L.imgLe (Img.force n) 2 := by
    refine congrArg ofLe (List.map_congr_left fun i hi => BitVec.eq_of_toNat_eq (h i ?_))
    have := List.mem_range.1 hi
    omega
  unfold LaneSt.forceAt
  dsimp only
  rw [hle, h 2 (by decide), h 3 (by decide), h 4 (by decide), h 5 (by decide)]

/-- Two lanes hold the same forces, the second in a working buffer of canonical form where the first does. -/
structure LaneSt.SameForces (L M : LaneSt) : Prop where
  at_ : ∀ n, M.forceAt n = L.forceAt n
  wf  : SMap.wf zeroByte L.image.working = true → SMap.wf zeroByte M.image.working = true

namespace LaneSt.SameForces

variable {L M : LaneSt}

theorem of_image (h : M.image = L.image) : L.SameForces M :=
  ⟨fun _ => forceAt_of_bytes fun _ _ => imgByte_congr h _, fun hw => h ▸ hw⟩

theorem of_journals (h : L.Journals M) : L.SameForces M :=
  ⟨fun _ => forceAt_of_bytes fun _ _ => h.byte _ (by unfold Img.force; omega), h.wf⟩

theorem trans {N : LaneSt} (h : L.SameForces M) (k : M.SameForces N) : L.SameForces N :=
  ⟨fun n => (k.at_ n).trans (h.at_ n), k.wf ∘ h.wf⟩

theorem forces (h : L.SameForces M) : M.forces = L.forces := by
  unfold LaneSt.forces
  simp only [h.at_]

theorem forcePlace (h : L.SameForces M) (ident kind bit : Nat) : M.forcePlace ident kind bit = L.forcePlace ident kind bit := by
  unfold LaneSt.forcePlace
  rw [h.forces]

theorem freeForce (h : L.SameForces M) : M.freeForce = L.freeForce := by
  unfold LaneSt.freeForce
  simp only [h.at_]

end LaneSt.SameForces

theorem LaneSt.mem_forces {L : LaneSt} {n : Nat} {f : Force} : (n, f) ∈ L.forces ↔ n < 256 ∧ L.forceAt n = some f := by
  unfold LaneSt.forces
  simp [List.mem_filterMap]

/-! ### Entries put and emptied -/

/-- The force goes into its own entry, or into the lowest free one. -/
theorem LaneSt.putForce_at {L : LaneSt} {ident kind bit n : Nat} (e : Bytes)
    (h : L.forcePlace ident kind bit = some n ∨ (L.forcePlace ident kind bit = none ∧ L.freeForce = some n)) :
    L.putForce ident kind bit e = L.imgPut (Img.force n) e := by
  unfold LaneSt.putForce
  obtain h | ⟨h, hfree⟩ := h
  · rw [h]
  · rw [h, hfree]

theorem State.length_forceEntry (s : State) (w : Writer) (d : Word) : (s.forceEntry w d).length = 16 := by
  unfold State.forceEntry
  simp [length_toLe]

section Dropped

variable {L : LaneSt} (hw : SMap.wf zeroByte L.image.working = true)

theorem LaneSt.forceAt_dropForce_of_ne (L : LaneSt) {n m : Nat} (h : m ≠ n) : (L.dropForce n).forceAt m = L.forceAt m := by
  refine LaneSt.forceAt_of_bytes fun i hi => LaneSt.imgByte_imgPut_of_outside _ _ _ ?_
  rw [List.length_replicate]
  unfold Img.force
  omega

include hw

/-- A byte of those stored reads back. -/
theorem LaneSt.imgByte_imgPut (a : Nat) {bs : Bytes} {i : Nat} (hi : i < bs.length) : (L.imgPut a bs).imgByte (a + i) = bs[i].toNat := by
  have hb : (memBytes (L.imgPut a bs).image.working a bs.length)[i]? = bs[i]? := congrArg (·[i]?) (memBytes_memPuts bs L.image.working a hw)
  rw [memBytes, List.getElem?_map, List.getElem?_range hi, List.getElem?_eq_getElem hi] at hb
  exact congrArg BitVec.toNat (Option.some.inj hb)

theorem LaneSt.forceAt_dropForce_self (n : Nat) : (L.dropForce n).forceAt n = none := by
  have h2 : (L.dropForce n).imgByte (Img.force n + 2) = 0 := LaneSt.imgByte_imgPut hw _ (by decide : 2 < (List.replicate 16 0 : Bytes).length)
  unfold LaneSt.forceAt
  dsimp only
  rw [if_pos h2]

/-- Emptying the entries that a test picks: of a list of entries, only those picked change, and they are empty. -/
theorem LaneSt.forceAt_foldl_dropForce (pick : Force → Bool) (n : Nat) (es : List (Nat × Force)) :
    (es.foldl (fun L e => if pick e.2 then L.dropForce e.1 else L) L).forceAt n
      = if es.any fun e => pick e.2 && e.1 == n then none else L.forceAt n := by
  induction es generalizing L with
  | nil => rfl
  | cons e es ih =>
    rw [List.foldl_cons, List.any_cons]
    by_cases hp : pick e.2 = true
    · have hdrop : SMap.wf zeroByte (L.dropForce e.1).image.working = true := L.imgPut_wf _ _ hw
      rw [if_pos hp, ih hdrop, hp, Bool.true_and]
      by_cases he : n = e.1
      · rw [← he, beq_self_eq_true, Bool.true_or, if_pos rfl, LaneSt.forceAt_dropForce_self hw, ite_self]
      · rw [beq_false_of_ne (Ne.symm he), Bool.false_or, LaneSt.forceAt_dropForce_of_ne L he]
    · rw [if_neg hp, ih hw, Bool.eq_false_iff.2 hp, Bool.false_and, Bool.false_or]

/-- A force that remains was there and is not picked. -/
theorem LaneSt.forceAt_dropForces {pick : Force → Bool} {n : Nat} {f : Force} (hn : n < 256)
    (h : (L.dropForces pick).forceAt n = some f) : L.forceAt n = some f ∧ pick f = false := by
  unfold LaneSt.dropForces at h
  rw [LaneSt.forceAt_foldl_dropForce hw] at h
  split at h
  · cases h
  · next hany =>
    refine ⟨h, Bool.eq_false_iff.2 fun hp => hany (List.any_eq_true.2 ⟨(n, f), LaneSt.mem_forces.2 ⟨hn, h⟩, ?_⟩)⟩
    rw [hp, beq_self_eq_true]
    rfl

end Dropped

/-! ### An accepted value on its way (R93) -/

/-- The state in which an accepted value takes its effect: the journal and the register hold it. -/
def State.accepted (s : State) (off : Nat) (d : Word) : State := (s.keepJournal off d).storeWb off d

theorem State.accepted_rest (s : State) (off : Nat) (d : Word) : s.accepted off d = { s with lane := (s.accepted off d).lane } := by
  unfold State.accepted
  rw [s.keepJournal_rest]
  rfl

theorem State.accepted_forces (s : State) (off : Nat) (d : Word) (l : Lane) : (s.lane.get l).SameForces ((s.accepted off d).lane.get l) := by
  refine (LaneSt.SameForces.of_journals (s.keepJournal_lane off d l)).trans (.of_image ?_)
  unfold State.accepted State.storeWb
  rw [State.updIn_lane]
  split <;> rfl

theorem State.event_image (s : State) (base n data : Nat) (l : Lane) : ((s.event base n data).lane.get l).image = (s.lane.get l).image := by
  unfold State.event State.recordIn
  rw [State.updIn_lane]
  split
  · exact LaneSt.record_image ..
  · rfl

/-- A record leaves the force table. -/
theorem State.forceAt_event (s : State) (base n data : Nat) (l : Lane) (m : Nat) :
    ((s.event base n data).lane.get l).forceAt m = (s.lane.get l).forceAt m :=
  (LaneSt.SameForces.of_image (s.event_image base n data l)).at_ m

end Sys2Proof.Machine
end

section
/-! The commands of forces, possession areas and COMMISSIONING (R487 to R491). -/

namespace Sys2Proof.Machine

/-! ### Forces (R490, R491) -/

theorem State.parts_accepted (s : State) (off : Nat) (d : Word) : (s.accepted off d).parts = s.parts := by
  rw [s.accepted_rest]
  rfl

theorem State.accepted_stands (s : State) (off : Nat) (d : Word) :
    (s.accepted off d).runId = s.runId ∧ (s.accepted off d).areas = s.areas ∧ (s.accepted off d).ctl = s.ctl := by
  rw [s.accepted_rest]
  exact ⟨rfl, rfl, rfl⟩

/-- What an accepted value does to the lanes, and its record, leave the drive, the lanes' states and the queue. -/
theorem State.accepted_event_steady (s : State) (off : Nat) (d : Word) (ls : LaneSet) (f : Lane → LaneSt → LaneSt) (base n data : Nat) :
    s.Steady (((s.accepted off d).updIn ls f).event base n data) := by
  rw [s.accepted_rest]
  exact ⟨rfl, rfl, rfl⟩

/-- The channel that a force names: a variable has none. -/
def fcChan (d : Word) : Nat := if fcKind d + 1 = 1 then 0 else fcBit d

theorem fcChan_withOp (d : Word) (op : Nat) : fcChan (withOp d op) = if fcKind d = 0 then 0 else fcBit d := by
  unfold fcChan
  rw [fcKind_withOp, fcBit_withOp]
  exact if_congr Nat.succ_inj rfl rfl

/-- A force of that kind and channel leaves its entry. -/
def LaneSt.removeForce (L : LaneSt) (ident kind bit : Nat) : LaneSt :=
  match L.forcePlace ident kind bit with
  | some n => L.dropForce n
  | none => L

section Forces

variable {s : State} {p : Port} {d : Word} (ha : s.AgreesWb p Reg.SV_FORCE)

include ha

theorem State.writeForce_refused {r : Nat} (hb : s.forceBar (s.writerOf p) d = r) (h0 : r ≠ 0) (hr : r ≠ Reason.role) :
    s.writeForce p d = s.refuseIn s.parts p (0x40000000 + Reg.SV_FORCE) r := State.agreedWrite_refuses ha hb h0 hr

variable (hb : s.forceBar (s.writerOf p) d = 0)

include hb

theorem State.writeForce_goes : s.writeForce p d = (s.keepJournal Reg.SV_FORCE d).forceGo (s.writerOf p) d := State.agreedWrite_goes ha hb

theorem State.writeForce_set (hop : fcOp d = 0) : s.writeForce p d = ((s.accepted Reg.SV_FORCE d).updIn s.parts fun _ L =>
    L.putForce (fcIdent d) (fcKind d + 1) (fcChan d) (s.forceEntry (s.writerOf p) d)).event Base.sv 0x109 d.toNat := by
  have hentry : (s.keepJournal Reg.SV_FORCE d).forceEntry (s.writerOf p) d = s.forceEntry (s.writerOf p) d := by
    rw [s.keepJournal_rest]
    rfl
  rw [State.writeForce_goes ha hb, State.forceGo, hentry, hop, ← s.parts_accepted Reg.SV_FORCE d]
  rfl

theorem State.writeForce_remove (hop : fcOp d = 1) {l : Lane} (hl : s.parts.get l = true)
    (hn : ((s.lane.get l).forcePlace (fcIdent d) (fcKind d + 1) (fcChan d)).isSome = true) :
    s.writeForce p d = ((s.accepted Reg.SV_FORCE d).updIn s.parts fun _ L =>
      L.removeForce (fcIdent d) (fcKind d + 1) (fcChan d)).event Base.sv 0x10A d.toNat := by
  have hall : ¬ (Lane.list.all fun l => !(s.accepted Reg.SV_FORCE d).parts.get l
      || (((s.accepted Reg.SV_FORCE d).lane.get l).forcePlace (fcIdent d) (fcKind d + 1) (fcChan d)).isNone) = true := by
    intro h
    have hx := List.all_eq_true.1 h l (by cases l <;> decide)
    rw [s.parts_accepted, hl, (s.accepted_forces Reg.SV_FORCE d l).forcePlace, ← Option.not_isSome, hn] at hx
    exact Bool.false_ne_true hx
  rw [State.writeForce_goes ha hb, State.forceGo, hop, ← s.parts_accepted Reg.SV_FORCE d]
  exact if_neg hall

/-- REMOVE_ALL writes and records nothing where no lane holds a force of the kind. -/
theorem State.writeForce_removeAll (hop : fcOp d = 2) :
    (s.writeForce p d = s.accepted Reg.SV_FORCE d
      ∧ ∀ l : Lane, s.parts.get l = true → (s.lane.get l).forces.all (fun e => e.2.kind != fcKind d + 1) = true)
    ∨ s.writeForce p d = ((s.accepted Reg.SV_FORCE d).updIn s.parts fun _ L =>
      L.dropForces fun f => f.kind == fcKind d + 1).event Base.sv 0x10A d.toNat := by
  have hgo : s.writeForce p d = if Lane.list.all fun l => !(s.accepted Reg.SV_FORCE d).parts.get l
        || ((s.accepted Reg.SV_FORCE d).lane.get l).forces.all fun e => e.2.kind != fcKind d + 1 then s.accepted Reg.SV_FORCE d
      else ((s.accepted Reg.SV_FORCE d).updIn s.parts fun _ L =>
        L.dropForces fun f => f.kind == fcKind d + 1).event Base.sv 0x10A d.toNat := by
    rw [State.writeForce_goes ha hb, State.forceGo, hop, ← s.parts_accepted Reg.SV_FORCE d]
    rfl
  rw [hgo]
  split
  · next hall =>
    refine .inl ⟨rfl, fun l hl => ?_⟩
    have hx := List.all_eq_true.1 hall l (by cases l <;> decide)
    rwa [s.parts_accepted, hl, (s.accepted_forces Reg.SV_FORCE d l).forces] at hx
  · exact .inr rfl

end Forces

/-- The table of a lane that takes part, after an accepted value's effect and its record. -/
theorem State.forceAt_accepted (s : State) (off : Nat) (d : Word) {f : Lane → LaneSt → LaneSt} (base n data : Nat) {l : Lane}
    (hl : s.parts.get l = true) (m : Nat) : ((((s.accepted off d).updIn s.parts f).event base n data).lane.get l).forceAt m
      = (f l ((s.accepted off d).lane.get l)).forceAt m := by
  rw [State.forceAt_event, State.updIn_lane, if_pos hl]

section Force

variable {s : State} {p : Port} {d : Word} {l : Lane} (ha : s.AgreesWb p Reg.SV_FORCE) (hl : s.parts.get l = true)
  (hw : (s.lane.get l).memWf = true)

include ha hl hw

theorem svForceSet_puts {n : Nat} (hb : s.forceBar (s.writerOf p) (withOp d 0) = 0)
    (hn : (s.lane.get l).forcePlace (fcIdent d) (fcKind d + 1) (if fcKind d = 0 then 0 else fcBit d) = some n
      ∨ ((s.lane.get l).forcePlace (fcIdent d) (fcKind d + 1) (if fcKind d = 0 then 0 else fcBit d) = none
        ∧ (s.lane.get l).freeForce = some n)) :
    ∃ t, exec (.svForceSet p d) s = .next t ∧ s.Steady t
      ∧ memBytes (t.lane.get l).image.working (Img.force n) 16 = s.forceEntry (s.writerOf p) (withOp d 0) := by
  have hsame := s.accepted_forces Reg.SV_FORCE (withOp d 0) l
  rw [← hsame.forcePlace, ← hsame.freeForce, ← fcChan_withOp d 0, ← fcKind_withOp d 0, ← fcIdent_withOp d 0] at hn
  refine ⟨_, congrArg Host.Outcome.next (State.writeForce_set ha hb (fcOp_withOp d (by decide))), s.accepted_event_steady .., ?_⟩
  rw [State.event_image, State.updIn_lane, if_pos hl, LaneSt.putForce_at _ hn, ← s.length_forceEntry (s.writerOf p) (withOp d 0)]
  exact memBytes_memPuts _ _ _ (hsame.wf (LaneSt.memWf_working hw))

theorem svForceRemove_empties {n : Nat} (hb : s.forceBar (s.writerOf p) (withOp d 1) = 0)
    (hn : (s.lane.get l).forcePlace (fcIdent d) (fcKind d + 1) (if fcKind d = 0 then 0 else fcBit d) = some n) :
    ∃ t, exec (.svForceRemove p d) s = .next t ∧ s.Steady t ∧ (t.lane.get l).forceAt n = none := by
  have hsame := s.accepted_forces Reg.SV_FORCE (withOp d 1) l
  rw [← fcChan_withOp d 1, ← fcKind_withOp d 1, ← fcIdent_withOp d 1] at hn
  refine ⟨_, congrArg Host.Outcome.next (State.writeForce_remove ha hb (fcOp_withOp d (by decide)) hl (Option.isSome_iff_exists.2 ⟨n, hn⟩)),
    s.accepted_event_steady .., ?_⟩
  rw [State.forceAt_accepted s _ _ _ _ _ hl, LaneSt.removeForce, hsame.forcePlace, hn]
  exact LaneSt.forceAt_dropForce_self (hsame.wf (LaneSt.memWf_working hw)) n

theorem svForceRemoveAll_empties (hb : s.forceBar (s.writerOf p) (withOp d 2) = 0) :
    ∃ t, exec (.svForceRemoveAll p d) s = .next t ∧ s.Steady t
      ∧ ∀ (n : Nat) (f : Force), n < 256 → (t.lane.get l).forceAt n = some f → f.kind ≠ fcKind d + 1 := by
  have hsame := s.accepted_forces Reg.SV_FORCE (withOp d 2) l
  rw [← fcKind_withOp d 2]
  obtain ⟨he, hnone⟩ | he := State.writeForce_removeAll ha hb (fcOp_withOp d (by decide))
  · refine ⟨_, congrArg Host.Outcome.next he, ?_, fun n f hn hf => ?_⟩
    · rw [s.accepted_rest]
      exact ⟨rfl, rfl, rfl⟩
    · rw [hsame.at_] at hf
      exact bne_iff_ne.1 (List.all_eq_true.1 (hnone l hl) (n, f) (LaneSt.mem_forces.2 ⟨hn, hf⟩))
  · refine ⟨_, congrArg Host.Outcome.next he, s.accepted_event_steady .., fun n f hn hf => ?_⟩
    rw [State.forceAt_accepted s _ _ _ _ _ hl] at hf
    exact beq_eq_false_iff_ne.1 (LaneSt.forceAt_dropForces (hsame.wf (LaneSt.memWf_working hw)) hn hf).2

end Force

/-! ### Possession areas (R487) -/

/-- The areas after one is declared or withdrawn. -/
def areasWith (areas : Word) (a : Nat) (on : Bool) : Word :=
  if on then areas ||| BitVec.ofNat 32 (2 ^ a) else areas &&& ~~~BitVec.ofNat 32 (2 ^ a)

theorem testBit_areasWith (areas : Word) (a : Nat) (on : Bool) {b : Nat} (hb : b < 32) :
    (areasWith areas a on).toNat.testBit b = if on then areas.toNat.testBit b || b == a else areas.toNat.testBit b && b != a := by
  have hbit : (BitVec.ofNat 32 (2 ^ a)).getLsbD b = (b == a) := by
    rw [BitVec.getLsbD_ofNat, Nat.testBit_two_pow, decide_eq_true hb, Bool.true_and]
    exact decide_eq_decide.2 eq_comm
  unfold areasWith
  cases on with
  | true => rw [if_pos rfl, if_pos rfl, BitVec.testBit_toNat, BitVec.getLsbD_or, hbit, BitVec.testBit_toNat]
  | false =>
    rw [if_neg Bool.false_ne_true, if_neg Bool.false_ne_true, BitVec.testBit_toNat, BitVec.getLsbD_and, BitVec.getLsbD_not, hbit,
      decide_eq_true hb, Bool.true_and, BitVec.testBit_toNat]
    rfl

theorem writePoss_areas {s : State} {p : Port} {d : Word} (ha : s.AgreesWb p Reg.SV_POSS) (on : Bool)
    (hb : s.possBar (s.writerOf p) (setField d 8 1 on.toNat) = 0) :
    s.Steady (s.writePoss p (setField d 8 1 on.toNat))
      ∧ (s.writePoss p (setField d 8 1 on.toNat)).areas = areasWith s.areas (fieldOf d 0 5) on := by
  have hgo : s.writePoss p (setField d 8 1 on.toNat) = (s.keepJournal Reg.SV_POSS (setField d 8 1 on.toNat)).possGo (setField d 8 1 on.toNat) :=
    State.agreedWrite_goes ha hb
  rw [hgo, s.keepJournal_rest, State.possGo, testBit_setField_self d on (by decide),
    fieldOf_setField_below d 8 1 _ 0 5 (by decide) (by decide)]
  exact ⟨⟨rfl, rfl, rfl⟩, rfl⟩

/-! ### COMMISSIONING (R489) -/

theorem fieldOf_modeReq (d : Word) {m : Nat} (h : m < 4) : fieldOf (setField d 0 2 m) 0 2 = m :=
  (fieldOf_setField d 0 2 m (by decide)).trans (Nat.mod_eq_of_lt h)

/-- COMMISSIONING left: no force remains, every window is closed, and the module is in RESTART_LOCKED. -/
def State.leaveComm (s : State) : State :=
  ((({ s with comm := false, prepare := none, confirmed := false, lockedGens := [] }).updIn s.parts fun _ L =>
    (L.dropForces fun _ => true).closeShadows).enter .restartLocked).event Base.sv 0x10E 0

theorem State.leaveComm_state (s : State) : s.leaveComm.comm = false ∧ s.leaveComm.mstate = .restartLocked
    ∧ s.leaveComm.runId = s.runId ∧ s.leaveComm.areas = s.areas ∧ s.leaveComm.ctl = s.ctl := by
  unfold State.leaveComm
  rw [State.event_frame, (State.enter_shows _ _).rest]
  exact ⟨rfl, rfl, rfl, rfl, rfl⟩

theorem State.leaveComm_forceAt {s : State} {l : Lane} (hl : s.parts.get l = true) (hw : SMap.wf zeroByte (s.lane.get l).image.working = true)
    {n : Nat} (hn : n < 256) : (s.leaveComm.lane.get l).forceAt n = none := by
  unfold State.leaveComm
  rw [State.forceAt_event, (LaneSt.SameForces.of_image ((State.enter_shows _ _).lane l).image).at_]
  dsimp only
  rw [State.updIn_lane, if_pos hl, (LaneSt.SameForces.of_image (LaneSt.Keeps.closeShadows _).image).at_, Option.eq_none_iff_forall_ne_some]
  exact fun f hf => Bool.false_ne_true (LaneSt.forceAt_dropForces hw hn hf).2.symm

section Mode

variable {s : State} {p : Port} (d : Word) (ha : s.AgreesWb p Reg.SV_MODE_REQ)

include ha

theorem commissioningEnter_enters (hb : s.modeBar (s.writerOf p) (setField d 0 2 1) = 0) :
    ∃ t, exec (.commissioningEnter p d) s = .next t ∧ s.Steady t ∧ t.comm = true := by
  have hgo : s.writeMode p (setField d 0 2 1) = (s.keepJournal Reg.SV_MODE_REQ (setField d 0 2 1)).modeGo (setField d 0 2 1) :=
    State.agreedWrite_goes ha hb
  rw [s.keepJournal_rest, State.modeGo, if_pos (fieldOf_modeReq d (by decide))] at hgo
  exact ⟨_, congrArg Host.Outcome.next hgo, ⟨rfl, rfl, rfl⟩, rfl⟩

theorem commissioningLeave_refused (hc : s.comm = false) :
    exec (.commissioningLeave p d) s = .next (s.refuseIn s.parts p (0x40000000 + Reg.SV_MODE_REQ) Reason.wrongState) := by
  have hb : s.modeBar (s.writerOf p) (setField d 0 2 2) = Reason.wrongState := by
    rw [State.modeBar, fieldOf_modeReq d (by decide), hc]
    rfl
  exact congrArg Host.Outcome.next (State.agreedWrite_refuses ha hb (by decide) (by decide))

theorem commissioningLeave_leaves (hc : s.comm = true) :
    ∃ t, exec (.commissioningLeave p d) s = .next t ∧ t.comm = false ∧ t.mstate = .restartLocked
      ∧ t.runId = s.runId ∧ t.areas = s.areas ∧ t.ctl = s.ctl ∧ ∀ l : Lane, s.parts.get l = true → (s.lane.get l).memWf = true →
        ∀ n : Nat, n < 256 → (t.lane.get l).forceAt n = none := by
  have hfield : fieldOf (setField d 0 2 2) 0 2 = 2 := fieldOf_modeReq d (by decide)
  have hb : s.modeBar (s.writerOf p) (setField d 0 2 2) = 0 := by
    rw [State.modeBar, hfield, hc]
    rfl
  have hgo : s.writeMode p (setField d 0 2 2) = (s.keepJournal Reg.SV_MODE_REQ (setField d 0 2 2)).modeGo (setField d 0 2 2) :=
    State.agreedWrite_goes ha hb
  have hmode : s.writeMode p (setField d 0 2 2) = (s.accepted Reg.SV_MODE_REQ (setField d 0 2 2)).leaveComm := by
    rw [hgo, State.modeGo, if_neg (by rw [hfield]; decide)]
    rfl
  obtain ⟨hrunOld, hareasOld, hctlOld⟩ := s.accepted_stands Reg.SV_MODE_REQ (setField d 0 2 2)
  obtain ⟨hcomm, hstate, hrun, hareas, hctl⟩ := (s.accepted Reg.SV_MODE_REQ (setField d 0 2 2)).leaveComm_state
  refine ⟨_, congrArg Host.Outcome.next hmode, hcomm, hstate, hrun.trans hrunOld, hareas.trans hareasOld,
    hctl.trans hctlOld, fun l hl hw n hn => ?_⟩
  exact State.leaveComm_forceAt (by rwa [s.parts_accepted]) ((s.accepted_forces _ _ l).wf (LaneSt.memWf_working hw)) hn

end Mode

/-- Settles O57: the journal, the stores and the records leave the force table to the command. -/
theorem forcesAndPossessions : Obligations.ForcesAndPossessions := by
  intro s p d
  refine ⟨fun ha l hl hw => ?forces, fun r ha hb h0 hr => ?refused, fun ha => ?areas, fun ha => ?modes⟩
  case forces =>
    exact ⟨fun n hb hn _ => svForceSet_puts ha hl hw hb hn, fun n hb hn _ => svForceRemove_empties ha hl hw hb hn,
      svForceRemoveAll_empties ha hl hw⟩
  case refused => exact congrArg Host.Outcome.next (State.writeForce_refused ha hb h0 hr)
  case areas =>
    refine ⟨fun hb => ?_, fun hb => ?_⟩
    · obtain ⟨hsteady, hareas⟩ := writePoss_areas ha true hb
      refine ⟨_, rfl, hsteady, fun a ha => ?_⟩
      exact (congrArg (·.toNat.testBit a) hareas).trans (testBit_areasWith _ _ true ha)
    · obtain ⟨hsteady, hareas⟩ := writePoss_areas ha false hb
      refine ⟨_, rfl, hsteady, fun a ha => ?_⟩
      exact (congrArg (·.toNat.testBit a) hareas).trans (testBit_areasWith _ _ false ha)
  case modes => exact ⟨commissioningEnter_enters d ha, commissioningLeave_leaves d ha, commissioningLeave_refused d ha⟩

end Sys2Proof.Machine
end

section
/-! The evaluation of a cycle (R120, R122, R125): what a reaction leaves of how far each lane has come in it, of the writes that wait
in the lane, and of the RESTART_AUTH telegrams. -/

namespace Sys2Proof.Machine

/-! ### How far a lane has come -/

/-- A lane stands where it stood in its evaluation, with the same held writes and cell bits; it evaluates no more than before, and no
write waits that did not. -/
structure LaneSt.SamePhase (L M : LaneSt) : Prop where
  held  : M.logic.held = L.logic.held
  phase : M.logic.phase = L.logic.phase
  ended : M.logic.ended = L.logic.ended
  loc   : M.logic.loc = L.logic.loc
  prv   : M.logic.prv = L.logic.prv
  idle  : L.logic.evaluating = false → M.logic.evaluating = false
  pend  : L.pend = [] → M.pend = []

namespace LaneSt.SamePhase

theorem refl (L : LaneSt) : L.SamePhase L := ⟨rfl, rfl, rfl, rfl, rfl, id, id⟩

theorem trans {L M N : LaneSt} (h : L.SamePhase M) (k : M.SamePhase N) : L.SamePhase N :=
  ⟨k.held.trans h.held, k.phase.trans h.phase, k.ended.trans h.ended, k.loc.trans h.loc, k.prv.trans h.prv, k.idle ∘ h.idle,
    k.pend ∘ h.pend⟩

/-- What every step of a fold leaves, the fold leaves. -/
theorem foldl {α : Type} {f : LaneSt → α → LaneSt} (h : ∀ (L : LaneSt) (a : α), L.SamePhase (f L a)) :
    ∀ (xs : List α) (L : LaneSt), L.SamePhase (xs.foldl f L)
  | [], L => refl L
  | x :: xs, L => (h L x).trans (foldl h xs (f L x))

theorem ite {c : Prop} [Decidable c] {L M N : LaneSt} (hM : L.SamePhase M) (hN : L.SamePhase N) :
    L.SamePhase (if c then M else N) := by
  split
  · exact hM
  · exact hN

/-- A change of a lane outside its logic and the writes that wait in it. -/
theorem of_logic {L M : LaneSt} (hl : M.logic = L.logic) (hp : M.pend = L.pend) : L.SamePhase M := by
  refine ⟨?_, ?_, ?_, ?_, ?_, ?_, fun h => hp.trans h⟩ <;> rw [hl]
  exact id

/-- A lane that stops its evaluation where it stands. -/
theorem stopping (L : LaneSt) : L.SamePhase { L with logic := { L.logic with evaluating := false } } :=
  ⟨rfl, rfl, rfl, rfl, rfl, fun _ => rfl, id⟩

theorem setReg (L : LaneSt) (off : Nat) (v : Word) : L.SamePhase (L.setReg off v) := of_logic rfl rfl

theorem setBits (L : LaneSt) (off m : Nat) : L.SamePhase (L.setBits off m) := setReg ..

theorem addFld (L : LaneSt) (off lo w n : Nat) : L.SamePhase (L.addFld off lo w n) := setReg ..

theorem setFld (L : LaneSt) (off lo w x : Nat) : L.SamePhase (L.setFld off lo w x) := setReg ..

theorem maxFld (L : LaneSt) (off lo w x : Nat) : L.SamePhase (L.maxFld off lo w x) := setFld ..

theorem record (L : LaneSt) (path : Word) (code : Half) (cls flags cycle : Nat) (data : BitVec 48) :
    L.SamePhase (L.record path code cls flags cycle data) := by
  obtain ⟨h, -⟩ := L.record_frame path code cls flags cycle data
  rw [h]
  exact of_logic rfl rfl

theorem recordOnce (L : LaneSt) (l : Lane) (d : Det) (code : Half) (cycle data : Nat) :
    L.SamePhase (L.recordOnce l d code cycle data) := by
  unfold LaneSt.recordOnce
  exact ite (refl L) ((record ..).trans (of_logic rfl rfl))

theorem takeReport (L : LaneSt) (l : Lane) (k : Blk) (bit : Nat) (cls : FClass) (flags cycle data : Nat) :
    L.SamePhase (L.takeReport l k bit cls flags cycle data) := by
  unfold LaneSt.takeReport
  extract_lets cell R C
  have hC : L.SamePhase C := (record ..).trans (addFld ..)
  refine hC.trans ?_
  cases cls with
  | corrected => exact (addFld ..).trans (setBits ..)
  | moduleSafe => exact refl C
  | note | laneRecover | laneHalt => exact addFld ..

theorem noteFirst (L : LaneSt) (k : Blk) : L.SamePhase (L.noteFirst k) := ite (refl L) (setFld ..)

theorem closeShadow (L : LaneSt) (b : Nat) : L.SamePhase ((L.setReg (Reg.LF_SHD_STAT b) 0).clearBits (Reg.LF_SHD_CTRL b) 1) :=
  (setReg ..).trans (setReg ..)

theorem closeShadows (L : LaneSt) : L.SamePhase L.closeShadows := foldl (fun L b => ite (closeShadow L b) (refl L)) _ L

theorem emptyShadow (L : LaneSt) : L.SamePhase L.emptyShadow := by
  unfold LaneSt.emptyShadow
  extract_lets _ M
  have hM : L.SamePhase M := ⟨rfl, rfl, rfl, rfl, rfl, id, id⟩
  exact hM.trans (foldl closeShadow _ M)

theorem startReset (L : LaneSt) (now : Nat) (scope : RScope) (k : Blk) (tag : Option Byte) :
    L.SamePhase (L.startReset now scope k tag) := by
  unfold LaneSt.startReset
  extract_lets r
  refine ite (refl L) ⟨rfl, rfl, rfl, rfl, rfl, id, fun h => ?_⟩
  change L.pend.filter _ = []
  rw [h, List.filter_nil]

theorem leaveVote (L : LaneSt) (cause : Nat) (cls : FClass) (det : Option Det) : L.SamePhase (L.leaveVote cause cls det) := by
  unfold LaneSt.leaveVote
  extract_lets place _ _ M
  have hM : L.SamePhase M := (stopping L).trans (of_logic rfl rfl)
  exact hM.trans ((setReg ..).trans (setBits ..))

theorem stop (L : LaneSt) (req : Bool) : L.SamePhase (L.stop req) := by
  have h := closeShadows L
  unfold LaneSt.stop
  generalize L.closeShadows = M at h ⊢
  exact ⟨rfl, rfl, rfl, rfl, rfl, fun _ => rfl, h.pend⟩

theorem tellSafe (L : LaneSt) (l : Lane) (req : Bool) (cause who : Nat) (tag : Option Byte) (cycle : Nat) :
    L.SamePhase (L.tellSafe l req cause who tag cycle) := ((stop L req).trans (setBits ..)).trans (record ..)

end LaneSt.SamePhase

end Sys2Proof.Machine
end

section
/-! The evaluation of a cycle: what the reactions (R420 to R447) leave of the cycle, of what waits in it, and of how far each lane has
come. -/

namespace Sys2Proof.Machine

/-- The cycle, the queue and the generation stand; the module enters SAFE, or goes on with the RESTART_AUTH telegrams that wait. -/
structure State.InCycle (s t : State) : Prop where
  cyc     : t.cyc = s.cyc
  pending : t.pending = s.pending
  gen     : t.gen = s.gen
  auths   : t.mstate = .safe ∨ t.mstate = s.mstate ∧ t.auths = s.auths

theorem State.InCycle.trans {s t u : State} (h : s.InCycle t) (k : t.InCycle u) : s.InCycle u where
  cyc := k.cyc.trans h.cyc
  pending := k.pending.trans h.pending
  gen := k.gen.trans h.gen
  auths := k.auths.elim .inl fun ⟨hm, ha⟩ => h.auths.imp hm.trans fun ⟨hm', ha'⟩ => ⟨hm.trans hm', ha.trans ha'⟩

/-- The module stands in its cycle, and every lane where it stood in its evaluation. -/
structure State.Proceeds (s t : State) : Prop extends State.InCycle s t where
  lane : ∀ l, (s.lane.get l).SamePhase (t.lane.get l)

namespace State.Proceeds

variable {s t u : State}

theorem trans (h : s.Proceeds t) (k : t.Proceeds u) : s.Proceeds u :=
  ⟨h.toInCycle.trans k.toInCycle, fun l => (h.lane l).trans (k.lane l)⟩

/-- A change outside the drive, the cycle, what waits in it and the lanes. -/
theorem of_same (hc : t.cyc = s.cyc) (hp : t.pending = s.pending) (hg : t.gen = s.gen) (hm : t.mstate = s.mstate)
    (ha : t.auths = s.auths) (hl : t.lane = s.lane) : s.Proceeds t := ⟨⟨hc, hp, hg, .inr ⟨hm, ha⟩⟩, fun _ => hl ▸ .refl _⟩

theorem refl (s : State) : s.Proceeds s := of_same rfl rfl rfl rfl rfl rfl

/-- What every step of a fold does, the fold does. -/
theorem foldl {α : Type} {g : State → α → State} (h : ∀ (s : State) (a : α), s.Proceeds (g s a)) :
    ∀ (xs : List α) (s : State), s.Proceeds (xs.foldl g s)
  | [], s => refl s
  | x :: xs, s => (h s x).trans (foldl h xs (g s x))

theorem ite {c : Prop} [Decidable c] {a b : State} (ha : s.Proceeds a) (hb : s.Proceeds b) : s.Proceeds (if c then a else b) := by
  split
  · exact ha
  · exact hb

theorem updIn (s : State) (ls : LaneSet) {f : Lane → LaneSt → LaneSt} (h : ∀ (l : Lane) (L : LaneSt), L.SamePhase (f l L)) :
    s.Proceeds (s.updIn ls f) :=
  ⟨⟨rfl, rfl, rfl, .inr ⟨rfl, rfl⟩⟩, fun l => by
    rw [State.updIn_lane]
    exact .ite (h l _) (.refl _)⟩

theorem updAll (s : State) {f : Lane → LaneSt → LaneSt} (h : ∀ (l : Lane) (L : LaneSt), L.SamePhase (f l L)) :
    s.Proceeds (s.updAll f) := updIn s _ h

theorem upd (s : State) (l : Lane) {f : LaneSt → LaneSt} (h : (s.lane.get l).SamePhase (f (s.lane.get l))) : s.Proceeds (s.upd l f) :=
  ⟨⟨rfl, rfl, rfl, .inr ⟨rfl, rfl⟩⟩, fun m => by
    by_cases e : m = l
    · rw [e, State.upd_lane_self]
      exact h
    · rw [State.upd_lane_of_ne _ _ e]
      exact .refl _⟩

/-! ### The books, counts and interrupts -/

theorem recordIn (s : State) (ls : LaneSet) (k : Blk) (code : Half) (cls : FClass) (data flags : Nat) :
    s.Proceeds (s.recordIn ls k code cls data flags) := updIn s _ fun _ _ => .record ..

theorem event (s : State) (base n data : Nat) : s.Proceeds (s.event base n data) := recordIn ..

theorem count (s : State) (off lo w n : Nat) : s.Proceeds (s.count off lo w n) := updIn s _ fun _ _ => .addFld ..

theorem irq (s : State) (base m : Nat) : s.Proceeds (s.irq base m) := updIn s _ fun _ _ => .setBits ..

theorem laneEntry (s : State) (ls : LaneSet) (x : Lane) (m : LaneMode) (cause : Nat) (cls : FClass) (tag : Option Byte) :
    s.Proceeds (s.laneEntry ls x m cause cls tag) := recordIn ..

/-! ### Channels, banks and tests -/

theorem setChan (s : State) (n : Nat) (f : ChanSt → ChanSt) : s.Proceeds (s.setChan n f) := of_same rfl rfl rfl rfl rfl rfl

theorem setBank (s : State) (b : Nat) (f : BankSt → BankSt) : s.Proceeds (s.setBank b f) := of_same rfl rfl rfl rfl rfl rfl

theorem refreshIsolators (s : State) : s.Proceeds s.refreshIsolators := foldl (fun s b => setBank s b _) _ s

theorem settleTest (s : State) (b : Nat) : s.Proceeds (s.settleTest b) := by
  unfold State.settleTest
  split
  · exact ite (of_same rfl rfl rfl rfl rfl rfl) (refl s)
  · exact refl s

theorem abortTest (s : State) (b : Nat) : s.Proceeds (s.abortTest b) := by
  unfold State.abortTest
  split
  · exact (setBank s b _).trans (count ..)
  · exact refl s

theorem abortTests (s : State) (pick : RunTest → Bool) : s.Proceeds (s.abortTests pick) := by
  refine (foldl settleTest _ s).trans (foldl (fun s b => ?_) _ _)
  split
  · exact ite (abortTest s b) (refl s)
  · exact refl s

/-! ### What entry to 2-out-of-2 operation ends (R59) -/

theorem abandonChange (s : State) : s.Proceeds s.abandonChange := by
  refine ite ?_ (refl s)
  have h : s.Proceeds { s with chg := {} } := of_same rfl rfl rfl rfl rfl rfl
  refine h.trans (updAll _ fun _ L => ?_)
  have hL := LaneSt.SamePhase.emptyShadow L
  generalize L.emptyShadow = M at hL ⊢
  exact hL.trans (.of_logic rfl rfl)

theorem disarm (s : State) : s.Proceeds s.disarm := by
  refine ite ?_ (refl s)
  have h : s.Proceeds { s with chg := { s.chg with st := .verified, target := 0 } } := of_same rfl rfl rfl rfl rfl rfl
  exact h.trans (event ..)

theorem autoHandover (s : State) : s.Proceeds s.autoHandover := by
  refine ite (refl s) ?_
  split
  · exact of_same rfl rfl rfl rfl rfl rfl
  · have h : s.Proceeds { s with xo := { s.xo with retryAt := s.now + 10000000000 } } := of_same rfl rfl rfl rfl rfl rfl
    exact h.trans (recordIn ..)

theorem enterTwoOfTwo (s : State) : s.Proceeds s.enterTwoOfTwo := by
  unfold State.enterTwoOfTwo
  extract_lets _ u v w
  have hu : s.Proceeds u := of_same rfl rfl rfl rfl rfl rfl
  have hw : v.Proceeds w := updAll v fun _ _ => .closeShadows _
  exact hu.trans (((disarm u).trans (abandonChange _)).trans (hw.trans (ite (autoHandover w) (refl w))))

/-! ### The entry into SAFE (R433) -/

theorem leaveStandby (s : State) : s.Proceeds s.leaveStandby := ite (updAll s fun _ _ => .of_logic rfl rfl) (refl s)

theorem giveUpRole (s : State) : s.Proceeds s.giveUpRole := ite (leaveStandby s) ((leaveStandby s).trans (irq ..))

theorem latchGate (s : State) (act : LaneSet) : s.Proceeds (s.latchGate act) := ⟨⟨rfl, rfl, rfl, .inl rfl⟩, fun _ => .refl _⟩

theorem openBanks (s : State) : s.Proceeds s.openBanks := foldl (fun s b => setBank s b _) _ s

theorem stopAll (s : State) (cause who : Nat) (req : LaneSet) (tag : Option Byte) : s.Proceeds (s.stopAll cause who req tag) :=
  ((((giveUpRole s).trans (latchGate _ _)).trans (openBanks _)).trans (abandonChange _)).trans (updAll _ fun _ _ => .tellSafe ..)

theorem enterSafe (s : State) (cause who : Nat) (req : LaneSet) (tag : Option Byte) : s.Proceeds (s.enterSafe cause who req tag) := by
  by_cases hg : s.gate = true
  · rw [State.enterSafe, if_pos hg]
    exact updIn s _ fun _ _ => .of_logic rfl rfl
  · obtain ⟨seq, h⟩ := s.enterSafe_of_open cause who req tag (Bool.eq_false_iff.2 hg)
    rw [h]
    exact (stopAll s cause who req tag).trans (updAll _ fun _ _ => .setReg ..)

theorem safeByLane (s : State) (l : Lane) (cause : Nat) (tag : Option Byte) : s.Proceeds (s.safeByLane l cause tag) :=
  ite (enterSafe ..) (refl s)

theorem safeByAll (s : State) (cause : Nat) : s.Proceeds (s.safeByAll cause) := by
  unfold State.safeByAll
  split
  · exact enterSafe ..
  · exact refl s

theorem checkLast (s : State) : s.Proceeds s.checkLast := ite (safeByAll ..) (refl s)

/-! ### The exclusion of a lane (R44, R45, R51) -/

theorem setCtl (s : State) (x : Lane) (f : LaneCtl → LaneCtl) : s.Proceeds (s.setCtl x f) := of_same rfl rfl rfl rfl rfl rfl

theorem noteExclusion (s : State) (x : Lane) (cls : FClass) (cause : Nat) (third : Bool) (tag : Option Byte) :
    s.Proceeds (s.noteExclusion x cls cause third tag) := by
  unfold State.noteExclusion
  extract_lets books t
  have ht : s.Proceeds t := laneEntry ..
  exact ht.trans (ite (laneEntry ..) (ite (laneEntry ..) (refl t)))

theorem abandonResync (s : State) (x : Lane) : s.Proceeds (s.abandonResync x) := foldl (fun s y => ite (setCtl s y _) (refl s)) _ s

theorem closeSessions (s : State) : s.Proceeds s.closeSessions := by
  have h : s.Proceeds (s.updAll fun _ L => { L with tlsKeys := [] }) := updAll s fun _ _ => .of_logic rfl rfl
  exact h.trans (of_same rfl rfl rfl rfl rfl rfl)

theorem disownCan (s : State) (x : Lane) : s.Proceeds (s.disownCan x) := by
  unfold State.disownCan
  refine foldl (fun s p => ?_) _ s
  exact ite (of_same rfl rfl rfl rfl rfl rfl) (refl s)

theorem refreshDrive (s : State) : s.Proceeds s.refreshDrive := of_same rfl rfl rfl rfl rfl rfl

theorem setPermit_false (s : State) (x : Lane) : s.Proceeds (s.setPermit x false) := by
  unfold State.setPermit
  extract_lets t u _ v
  have hv : s.Proceeds v := of_same rfl rfl rfl rfl rfl rfl
  refine hv.trans (trans ?_ (refreshDrive _))
  exact updAll v fun _ _ => .of_logic rfl rfl

theorem markOut (s : State) (x : Lane) (cls : FClass) (cause : Nat) (det : Option Det) (tag : Option Byte) :
    s.Proceeds (s.markOut x cls cause det tag) := (noteExclusion ..).trans (setCtl ..)

theorem openSwitches (s : State) (x : Lane) (was : Bool) (cls : FClass) (cause : Nat) (det : Option Det) :
    s.Proceeds (s.openSwitches x was cls cause det) := by
  unfold State.openSwitches
  extract_lets t u
  have hu : t.Proceeds u := ite (abortTests t _) (refl t)
  have hv : u.Proceeds (u.updAll fun _ L => L.newReaction) := updAll u fun _ _ => .of_logic rfl rfl
  exact (setPermit_false s x).trans (hu.trans (hv.trans (upd _ x (.leaveVote ..))))

theorem afterLeaving (s : State) (x : Lane) (was conducts two : Bool) : s.Proceeds (s.afterLeaving x was conducts two) := by
  unfold State.afterLeaving
  extract_lets t u v w
  have hu : t.Proceeds u := ite (abandonResync t x) (refl t)
  have hv : u.Proceeds v := ite (closeSessions u) (refl u)
  exact (refreshIsolators s).trans (hu.trans (hv.trans ((disownCan v x).trans (ite (enterTwoOfTwo w) (refl w)))))

theorem leave (s : State) (x : Lane) (cls : FClass) (cause : Nat) (det : Option Det) (tag : Option Byte) :
    s.Proceeds (s.leave x cls cause det tag) := by
  obtain ⟨was, conducts, two, h⟩ := s.leave_stages x cls cause det tag
  rw [h]
  exact (markOut ..).trans ((openSwitches ..).trans (afterLeaving ..))

theorem exclude (s : State) (x : Lane) (cls : FClass) (cause : Nat) (det : Option Det) (tag : Option Byte) :
    s.Proceeds (s.exclude x cls cause det tag) := ite (safeByLane ..) (leave ..)

/-! ### Resets and reports (R420 to R437) -/

theorem reactReset (s : State) (l : Lane) (r : Report) (tag : Option Byte) : s.Proceeds (s.reactReset l r tag) := by
  have start (s : State) (scope : RScope) (k : Blk) : s.Proceeds (s.upd l fun L => L.startReset s.now scope k tag) :=
    upd s l (.startReset ..)
  unfold State.reactReset
  extract_lets page t
  exact ite (start ..) (ite (start ..) (ite (refl s) ((start ..).trans (ite (start ..) (refl t)))))

theorem resetFor (s : State) (l : Lane) (rs : List Report) (tag : Option Byte) : s.Proceeds (s.resetFor l rs tag) :=
  (setCtl ..).trans (foldl (fun s r => reactReset s l r tag) _ _)

theorem haltFor (s : State) (l : Lane) (cls : FClass) (tag : Option Byte) : s.Proceeds (s.haltFor l cls tag) :=
  (laneEntry ..).trans (setCtl ..)

theorem react (s : State) (l : Lane) (cls : FClass) (r : Report) (rs : List Report) (tag : Option Byte) :
    s.Proceeds (s.react l cls r rs tag) := by
  refine ite (refl s) ?_
  cases cls with
  | note => exact refl s
  | corrected => exact refl s
  | laneRecover =>
    dsimp only
    split
    · exact refl s
    · exact resetFor ..
    · exact (exclude ..).trans (ite (refl _) (resetFor ..))
  | laneHalt =>
    dsimp only
    split
    · exact refl s
    · exact haltFor ..
    · exact exclude ..
  | moduleSafe =>
    dsimp only
    split
    · exact safeByLane ..
    · exact refl s
    · exact haltFor ..
    · exact exclude ..

theorem raise (s : State) (l : Lane) (r : Report) : s.Proceeds (s.raise l r) :=
  upd s l ((LaneSt.SamePhase.ite (.refl _) (.noteFirst ..)).trans (.setBits ..))

theorem takeIn (s : State) (l : Lane) (r : Report) : s.Proceeds (s.takeIn l r).1 := by
  unfold State.takeIn
  split
  · dsimp only
    exact upd s l (.recordOnce ..)
  · extract_lets coin tag t c cls flags
    have ht : s.Proceeds t := by
      have h : s.Proceeds { s with inj := s.inj.map InjSt.unforce } := of_same rfl rfl rfl rfl rfl rfl
      exact ite (h.trans (event ..)) (refl s)
    dsimp only
    exact ht.trans (upd t l (.takeReport ..))

theorem takeEach (s : State) (l : Lane) (rs : List Report) : s.Proceeds (s.takeEach l rs).1 := by
  induction rs generalizing s with
  | nil => exact refl s
  | cons r rs ih =>
    unfold State.takeEach
    exact (takeIn s l r).trans (ih _)

theorem reactTo (s : State) (l : Lane) (rs : List (Report × FClass)) : s.Proceeds (s.reactTo l rs) := by
  unfold State.reactTo
  split
  · exact refl s
  · exact react ..

theorem report (s : State) (l : Lane) (k : Blk) (bit data : Nat) : s.Proceeds (s.report l k bit data) :=
  (foldl (fun s r => raise s l r) _ s).trans ((takeEach _ l _).trans (reactTo ..))

theorem reportAll (s : State) (base bit data : Nat) : s.Proceeds (s.reportAll base bit data) :=
  foldl (fun s l => ite (report s l ..) (refl s)) _ s

end State.Proceeds

end Sys2Proof.Machine
end

section
/-! INPUT_AGREEMENT (R30 to R33, R120, R122, R232, R250, R251, R479, R578, R579): what its parts leave of the cycle and of what waits in
it. -/

namespace Sys2Proof.Machine

/-! ### Block memories and images -/

namespace LaneSt.SamePhase

theorem blkPut (L : LaneSt) (block byte : Nat) (bs : Bytes) : L.SamePhase (L.blkPut block byte bs) := ⟨rfl, rfl, rfl, rfl, rfl, id, id⟩

theorem imgPut (L : LaneSt) (a : Nat) (bs : Bytes) : L.SamePhase (L.imgPut a bs) := of_logic rfl rfl

theorem imgPutLe (L : LaneSt) (a n x : Nat) : L.SamePhase (L.imgPutLe a n x) := imgPut ..

theorem imgKeep (L : LaneSt) (a : Nat) (bs : Bytes) : L.SamePhase (L.imgKeep a bs) := ite (refl L) (imgPut ..)

theorem eachSlot (L : LaneSt) (pick : Nat → Bool) {f : LaneSt → SlotCfg → LaneSt}
    (h : ∀ (L : LaneSt) (c : SlotCfg), L.SamePhase (f L c)) : L.SamePhase (L.eachSlot pick f) :=
  foldl (fun L c => ite (h L c) (refl L)) _ L

theorem putStamp (L : LaneSt) (c : SlotCfg) (rise : Bool) (time unc : Nat) : L.SamePhase (L.putStamp c rise time unc) :=
  (((blkPut ..).trans (blkPut ..)).trans (blkPut ..)).trans (blkPut ..)

theorem dropStamp (L : LaneSt) (c : SlotCfg) (rise : Bool) : L.SamePhase (L.dropStamp c rise) := blkPut ..

theorem clearSlot (L : LaneSt) (block slot : Nat) : L.SamePhase (L.clearSlot block slot) := blkPut ..

theorem expireTimer (L : LaneSt) (n : Nat) : L.SamePhase (L.expireTimer n) := ite ((imgPutLe ..).trans (imgPutLe ..)) (refl L)

end LaneSt.SamePhase

namespace State.Proceeds

/-! ### Codes of channels (R245, R269, R277) -/

theorem faultIrq (before after : State) (b : Nat) : after.Proceeds (State.faultIrq before after b) := by
  unfold State.faultIrq
  exact ite ((irq after _ _).trans (ite (refl _) (irq ..))) (refl after)

theorem chanEntry (s : State) (n code x : Nat) : s.Proceeds (s.chanEntry n code x) := recordIn ..

theorem latchIsolator (s : State) (b : Nat) : s.Proceeds (s.latchIsolator b) := by
  unfold State.latchIsolator
  refine ite (refl s) ?_
  extract_lets u v w
  have hv : u.Proceeds v := foldl (fun s n => ite ((setChan ..).trans (chanEntry ..)) (refl s)) _ u
  exact (setBank s b _).trans (hv.trans ((reportAll v ..).trans (faultIrq s w b)))

theorem addCodeActing (s : State) (n code switch partner : Nat) (acts : Bool) :
    s.Proceeds (s.addCodeActing n code switch partner acts) := by
  unfold State.addCodeActing
  refine ite (refl s) ?_
  extract_lets t u v w x
  have hu : s.Proceeds u := (setChan s n _).trans (ite (setBank t _ _) (refl t))
  have hw : v.Proceeds w := by
    unfold w
    split
    · exact reportAll ..
    · exact refl v
  have hx : s.Proceeds x := hu.trans ((chanEntry u ..).trans (hw.trans (faultIrq s w _)))
  refine hx.trans (ite ?_ (refl x))
  split
  · exact latchIsolator ..
  · exact safeByAll ..
  · exact refl x

theorem addCode (s : State) (n code switch partner : Nat) : s.Proceeds (s.addCode n code switch partner) := addCodeActing ..

theorem takeDue (s : State) : s.Proceeds s.takeDue := by
  unfold State.takeDue
  extract_lets due _ u
  have hu : s.Proceeds u := of_same rfl rfl rfl rfl rfl rfl
  refine hu.trans (foldl (fun s c => ?_) _ u)
  refine (addCodeActing s ..).trans (ite (foldl (fun s l => ?_) _ _) (refl _))
  exact ite (of_same rfl rfl rfl rfl rfl rfl) (refl s)

theorem wireBreaks (s : State) : s.Proceeds s.wireBreaks := by
  unfold State.wireBreaks
  extract_lets br gp
  refine ite (refl s) (foldl (fun s n => ?_) _ s)
  exact (ite (addCode ..) (refl s)).trans (ite (addCode ..) (refl _))

theorem dropEdgeLost (s : State) : s.Proceeds s.dropEdgeLost := foldl (fun s (e : Nat × ChanSt) => setChan s e.1 _) _ s

/-! ### The agreed inputs (R30 to R33, R251, R281) -/

theorem settleTests (s : State) : s.Proceeds s.settleTests := foldl settleTest _ s

theorem checkSchedules (s : State) : s.Proceeds s.checkSchedules := by
  unfold State.checkSchedules
  exact foldl (fun s l => ite (report s ..) (refl s)) _ s

theorem countMinorities (s : State) : s.Proceeds s.countMinorities := by
  unfold State.countMinorities
  extract_lets now out _ u
  have hu : s.Proceeds u := of_same rfl rfl rfl rfl rfl rfl
  refine hu.trans (foldl (fun s e => ?_) _ u)
  exact ite (of_same rfl rfl rfl rfl rfl rfl) (refl s)

theorem formInputs (s : State) : s.Proceeds s.formInputs := by
  unfold State.formInputs
  extract_lets image _ m
  exact of_same rfl rfl rfl rfl rfl rfl

theorem seedProbation (s : State) : s.Proceeds s.seedProbation := by
  unfold State.seedProbation
  refine foldl (fun s x => ?_) _ s
  exact ite (upd s x (.of_logic rfl rfl)) (refl s)

theorem voteRequests (s : State) : s.Proceeds s.voteRequests := by
  unfold State.voteRequests
  refine foldl (fun s c => updIn s _ fun _ L => ?_) _ s
  exact .ite (.refl L) (.of_logic rfl rfl)

theorem takeEdges (s : State) (slots : Bool) (forced : List (Nat × Nat × Bool)) : s.Proceeds (s.takeEdges slots forced) := by
  unfold State.takeEdges
  refine foldl (fun s e => ?_) _ s
  split
  · exact (ite (updIn s _ fun _ L => .eachSlot L _ fun _ _ => .dropStamp ..) (refl s)).trans (ite (addCode ..) (refl _))
  · refine (ite (updIn s _ fun _ L => .eachSlot L _ fun _ _ => .putStamp ..) (refl s)).trans (ite ?_ (refl _))
    exact of_same rfl rfl rfl rfl rfl rfl

theorem takeUnitEdges (s : State) (u : Nat) : s.Proceeds (s.takeUnitEdges u) := by
  unfold State.takeUnitEdges
  extract_lets ls v own
  split
  · exact refl s
  · refine ite (updIn s _ fun _ L => .eachSlot L _ fun _ _ => .clearSlot ..) (updIn s _ fun _ L => ?_)
    refine .foldl (fun L e => .eachSlot L _ fun L c => ?_) _ L
    exact .ite (.putStamp ..) (.refl L)

theorem takeRemoteEdges (s : State) (forced : List (Nat × Nat × Bool)) : s.Proceeds (s.takeRemoteEdges forced) := by
  unfold State.takeRemoteEdges
  extract_lets u
  have hu : s.Proceeds u := foldl (fun s c => ite (takeUnitEdges s _) (refl s)) _ s
  exact hu.trans (updIn u _ fun _ L =>
    (LaneSt.SamePhase.eachSlot L _ fun _ _ => .clearSlot ..).trans (.eachSlot _ _ fun _ _ => .clearSlot ..))

theorem voteTimer (s : State) (n : Nat) : s.Proceeds (s.voteTimer n) := by
  unfold State.voteTimer
  extract_lets ex u v
  have hu : s.Proceeds u := ite (updIn s _ fun _ L => .ite (.addFld ..) (.refl L)) (refl s)
  have hv : u.Proceeds v := updAll u fun _ _ => .of_logic rfl rfl
  exact hu.trans (hv.trans (ite (updIn v _ fun _ _ => .expireTimer ..) (refl v)))

theorem voteTimers (s : State) : s.Proceeds s.voteTimers := foldl (fun s (t : Nat × TimerCfg) => voteTimer s t.1) _ s

theorem noteLoad (s : State) : s.Proceeds s.noteLoad := by
  have h : s.Proceeds s.fresh.2 := of_same rfl rfl rfl rfl rfl rfl
  exact h.trans (updIn _ _ fun _ _ => .of_logic rfl rfl)

/-- The agreed inputs and what follows from them leave the cycle, or the module enters SAFE. -/
theorem agreeInputs (s : State) : s.Proceeds s.agreeInputs := by
  unfold State.agreeInputs
  extract_lets u v w forced works x
  have hu : s.Proceeds u := (settleTests s).trans <| (checkSchedules _).trans (countMinorities _)
  have hv : u.Proceeds v := (dropEdgeLost u).trans <| (takeDue _).trans (wireBreaks _)
  have hw : v.Proceeds w := (formInputs v).trans <| (seedProbation _).trans (voteRequests _)
  have hx : w.Proceeds x := takeEdges ..
  exact hu.trans <| hv.trans <| ite (refl v) <| hw.trans <| hx.trans <| ite ((takeRemoteEdges ..).trans (voteTimers _)) (refl x)

/-! ### The starting image (R199 to R204, R492, R578, R579) -/

theorem hwReport (s : State) (page bit : Nat) (c : FClass) : s.Proceeds (s.hwReport page bit c) := by
  unfold State.hwReport
  extract_lets u v w
  have hv : s.Proceeds v := of_same rfl rfl rfl rfl rfl rfl
  have hw : v.Proceeds w := updIn v _ fun _ _ => (LaneSt.SamePhase.record ..).trans (.ite (.addFld ..) (.refl _))
  exact hv.trans (hw.trans (ite (safeByAll w _) (refl w)))

theorem agreeHardware (s : State) : s.Proceeds s.agreeHardware := by
  unfold State.agreeHardware
  extract_lets found _ u
  have hu : s.Proceeds u := of_same rfl rfl rfl rfl rfl rfl
  exact hu.trans (foldl (fun s d => hwReport s ..) _ u)

theorem confirmArmed (s : State) : s.Proceeds s.confirmArmed := by
  refine ite ?_ (refl s)
  have h : s.Proceeds { s with chg := { s.chg with st := .failed, reason := 0x4D, target := 0, revert := false } } :=
    of_same rfl rfl rfl rfl rfl rfl
  exact ite (refl s) (h.trans (event ..))

theorem formForced (s : State) : s.Proceeds s.formForced := by
  unfold State.formForced
  extract_lets forced u
  have hu : s.Proceeds u := of_same rfl rfl rfl rfl rfl rfl
  exact hu.trans (updIn u _ fun _ L => .eachSlot L _ fun _ _ => .clearSlot ..)

theorem putStarting (s : State) (forced : List (Nat × Nat × Bool)) : s.Proceeds (s.putStarting forced) := by
  unfold State.putStarting
  extract_lets hs rs num
  refine updIn s _ fun _ L => ?_
  extract_lets u v
  have hu : L.SamePhase u := .foldl (fun L a => .imgPut ..) _ L
  have hv : u.SamePhase v := .foldl (fun L h => (LaneSt.SamePhase.imgKeep ..).trans (.ite (.refl _) (.imgKeep ..))) _ u
  refine hu.trans (hv.trans (.foldl (fun L r => ?_) _ v))
  exact ((LaneSt.SamePhase.imgKeep ..).trans (.ite (.refl _) (.imgKeep ..))).trans (.imgKeep ..)

theorem putForcedVars (s : State) : s.Proceeds s.putForcedVars := by
  unfold State.putForcedVars
  exact updIn s _ fun _ L => .foldl (fun L v => .ite (.refl L) (.imgPut ..)) _ L

end State.Proceeds

/-! ### RESTART_AUTH telegrams (R122, R479) -/

namespace State.InCycle

variable {s t : State}

theorem refl (s : State) : s.InCycle s := (Proceeds.refl s).toInCycle

theorem of_sends (h : s.Sends t) : s.InCycle t := by
  rw [h.rest]
  exact ⟨rfl, rfl, rfl, .inr ⟨rfl, rfl⟩⟩

theorem foldl {α : Type} {g : State → α → State} (h : ∀ (s : State) (a : α), s.InCycle (g s a)) :
    ∀ (xs : List α) (s : State), s.InCycle (xs.foldl g s)
  | [], s => refl s
  | x :: xs, s => (h s x).trans (foldl h xs (g s x))

theorem formTelegram (s : State) (session type : Nat) (payload : Bytes) (gen : Nat) (code : Option TgCode) :
    s.InCycle (s.formTelegram session type payload gen code) := by
  unfold State.formTelegram
  split
  · exact ⟨rfl, rfl, rfl, .inr ⟨rfl, rfl⟩⟩
  · unfold State.formNow
    extract_lets seq u v fl
    have hv : s.InCycle v := ⟨rfl, rfl, rfl, .inr ⟨rfl, rfl⟩⟩
    split
    · exact hv.trans ⟨rfl, rfl, rfl, .inr ⟨rfl, rfl⟩⟩
    · exact hv.trans (of_sends (Sends.completeTelegram ..))

theorem authDecide (s : State) (c : SessCfg) (b : Bytes) (draw : Half) : s.InCycle (s.authDecide c b draw) := by
  unfold State.authDecide
  extract_lets r step fresh challenge gen ev u v
  have hv : s.InCycle v := (Proceeds.event s ..).toInCycle.trans (formTelegram u ..)
  refine hv.trans ?_
  split
  · exact refl v
  · split <;> exact ⟨rfl, rfl, rfl, .inr ⟨rfl, rfl⟩⟩

/-- The first telegram of each session is decided, the others wait (log 123). -/
theorem decideAuths (s : State) : ({ s with auths := (firstAuths s.auths).2 } : State).InCycle s.decideAuths := by
  unfold State.decideAuths
  refine foldl (fun s a => ?_) _ _
  split
  · exact authDecide ..
  · exact refl s

end State.InCycle

/-! ### The step -/

/-- No write waits in any lane. -/
theorem State.agreeWrites_of_none {s : State} (h : ∀ l : Lane, (s.lane.get l).pend = []) : s.agreeWrites = s := by
  have hnone : s.pendingWrites = [] := by
    simp [State.pendingWrites, h, Lane.list]
  rw [State.agreeWrites, hnone, List.foldl_nil]

/-- The step as it begins: it ends the assembly of the cycle's inputs, and the transfers of the next cycle start afresh. -/
def State.beginAgreement (s : State) : State :=
  { s with cyc := { s.cyc with step := .agreed }, lx := { s.lx with retry := [], missed := [] } }

/-- The starting image of a module that forms one. -/
def State.formStarting (s : State) : State :=
  if s.worksImage then
    let s := s.formForced
    (s.putStarting s.forcedInputs).putForcedVars
  else s

theorem State.Proceeds.formStarting (s : State) : s.Proceeds s.formStarting :=
  ite ((formForced s).trans ((putStarting ..).trans (putForcedVars _))) (refl s)

theorem execInputAgreement_of_frozen {s : State} (ha : s.mstate.agrees = true) (hf : s.cyc.step = .frozen) :
    exec .inputAgreement s
      = .next s.beginAgreement.noteLoad.agreeInputs.agreeWrites.decideAuths.agreeHardware.confirmArmed.formStarting.checkLast := by
  refine if_neg ?_
  rw [ha, hf]
  decide

/-- INPUT_AGREEMENT without writes that wait. -/
theorem inputAgreement_next {s : State} (ha : s.mstate.agrees = true) (hf : s.cyc.step = .frozen)
    (hp : ∀ l : Lane, (s.lane.get l).pend = []) :
    ∃ t, exec .inputAgreement s = .next t ∧ t.cyc = { s.cyc with step := .agreed }
      ∧ (t.mstate ≠ .safe → t.auths = (firstAuths s.auths).2) ∧ t.pending = s.pending ∧ t.gen = s.gen := by
  refine ⟨_, execInputAgreement_of_frozen ha hf, ?_⟩
  have hin : s.beginAgreement.Proceeds s.beginAgreement.noteLoad.agreeInputs := (State.Proceeds.noteLoad _).trans (.agreeInputs _)
  generalize s.beginAgreement.noteLoad.agreeInputs = u at hin ⊢
  rw [State.agreeWrites_of_none fun l => (hin.lane l).pend (hp l)]
  have hout := (State.InCycle.decideAuths u).trans <| State.Proceeds.toInCycle <|
    (State.Proceeds.agreeHardware _).trans <| (State.Proceeds.confirmArmed _).trans <| (State.Proceeds.formStarting _).trans
      (.checkLast _)
  generalize u.decideAuths.agreeHardware.confirmArmed.formStarting.checkLast = t at hout ⊢
  refine ⟨hout.cyc.trans hin.cyc, fun hsafe => ?_, hout.pending.trans hin.pending, hout.gen.trans hin.gen⟩
  obtain ⟨hm, ha⟩ := hout.auths.resolve_left hsafe
  obtain ⟨-, ha'⟩ := hin.auths.resolve_left fun h => hsafe (hm.trans h)
  exact ha.trans (congrArg (fun xs => (firstAuths xs).2) ha')

end Sys2Proof.Machine
end

section
/-! TIMER_EXPIRY and EVALUATION_START (R125, R157, R164, R231, R232), and the statement about them and INPUT_AGREEMENT. -/

namespace Sys2Proof.Machine

/-! ### A bit put into a number -/

theorem testBit_setBitOf_self (x n : Nat) (b : Bool) : (setBitOf x n b).testBit n = b := by
  unfold setBitOf
  split
  · assumption
  · next hne =>
    cases b with
    | true =>
      have hx : x.testBit n = false := Bool.eq_false_iff.2 hne
      rw [if_pos rfl, Nat.add_comm, Nat.testBit_two_pow_add_eq, hx]
      rfl
    | false =>
      have hx : x.testBit n = true := (Bool.eq_false_or_eq_true _).resolve_right hne
      obtain ⟨y, rfl⟩ := Nat.exists_eq_add_of_le (Nat.ge_two_pow_of_testBit hx)
      rw [Nat.testBit_two_pow_add_eq] at hx
      rw [if_neg Bool.false_ne_true, Nat.add_sub_cancel_left]
      simpa using hx

/-- A bit put into a number leaves the lower bits. -/
theorem testBit_setBitOf_below (x : Nat) {n m : Nat} (b : Bool) (h : m < n) : (setBitOf x n b).testBit m = x.testBit m := by
  unfold setBitOf
  split
  · rfl
  · next hne =>
    cases b with
    | true => rw [if_pos rfl, Nat.add_comm, Nat.testBit_two_pow_add_gt h]
    | false =>
      have hx : x.testBit n = true := (Bool.eq_false_or_eq_true _).resolve_right hne
      obtain ⟨y, rfl⟩ := Nat.exists_eq_add_of_le (Nat.ge_two_pow_of_testBit hx)
      rw [if_neg Bool.false_ne_true, Nat.add_sub_cancel_left, Nat.testBit_two_pow_add_gt h]

/-! ### A timer that expires (R231, R232) -/

theorem LaneSt.expireTimer_record {L : LaneSt} {n : Nat} (hw : SMap.wf zeroByte L.image.working = true)
    (hr : (L.timerFlags n).testBit 0 = true) :
    ((L.expireTimer n).timerFlags n).testBit 0 = false ∧ ((L.expireTimer n).timerFlags n).testBit 1 = true
      ∧ (L.expireTimer n).timerExpiry n = 0 := by
  have hgo : L.expireTimer n = (L.imgPutLe (Img.timer n) 8 0).imgPutLe (Img.timer n + 12) 1
      (setBitOf (setBitOf (L.timerFlags n) 0 false) 1 true) := if_pos hr
  have hflags : (L.expireTimer n).timerFlags n = setBitOf (setBitOf (L.timerFlags n) 0 false) 1 true % 2 ^ 8 := by
    rw [hgo]
    exact LaneSt.imgByte_imgPutLe_self _ _ _ (L.imgPutLe_wf _ _ _ hw)
  refine ⟨?_, ?_, ?_⟩
  · rw [hflags, Nat.testBit_mod_two_pow, testBit_setBitOf_below _ _ Nat.zero_lt_one, testBit_setBitOf_self]
    rfl
  · rw [hflags, Nat.testBit_mod_two_pow, testBit_setBitOf_self]
    rfl
  · rw [hgo, LaneSt.timerExpiry, LaneSt.imgLe_imgPutLe_of_outside _ _ _ _ (.inl (by omega)), LaneSt.imgLe_imgPutLe_self _ _ _ _ hw]
    rfl

/-- The vote on a timer leaves the drive, the states of the lanes and the queue; every lane that takes part expires a timer that the
marks expire, in the image that it has. -/
theorem State.voteTimer_lane (s : State) (n : Nat) : s.Steady (s.voteTimer n)
    ∧ ∀ l : Lane, s.timerVoted n (s.runsWatchdog n) = true → s.parts.get l = true →
      ∃ M : LaneSt, M.image = (s.lane.get l).image ∧ (s.voteTimer n).lane.get l = M.expireTimer n := by
  unfold State.voteTimer
  extract_lets ex u v
  have hu : s.Steady u ∧ ∀ l, (u.lane.get l).image = (s.lane.get l).image := by
    unfold u
    split
    · refine ⟨⟨rfl, rfl, rfl⟩, fun l => ?_⟩
      rw [State.updIn_lane]
      split
      · split <;> rfl
      · rfl
    · exact ⟨⟨rfl, rfl, rfl⟩, fun _ => rfl⟩
  clear_value u
  obtain ⟨⟨hdrv, hctl, hpend⟩, himg⟩ := hu
  refine ⟨?_, fun l hex hl => ?_⟩
  · split <;> exact ⟨hdrv, hctl, hpend⟩
  · have hparts : v.parts = s.parts := by
      change u.parts = s.parts
      simp only [State.parts, State.mstate, State.inStep, State.mode, hdrv, hctl]
    rw [if_pos hex, State.updIn_lane, hparts, if_pos hl]
    exact ⟨_, (congrArg LaneSt.image (State.updAll_lane ..)).trans (himg l), rfl⟩

theorem timerExpiry_next {s : State} {n : BitVec 13} {c : TimerCfg} (he : s.mstate.evaluates = true) (hc : s.timerCfg n.toNat = some c)
    (hv : s.timerVoted n.toNat (s.runsWatchdog n.toNat) = true) :
    ∃ t, exec (.timerExpiry n) s = .next t ∧ s.Steady t
      ∧ ∀ l : Lane, s.parts.get l = true → (s.lane.get l).memWf = true → ((s.lane.get l).timerFlags n.toNat).testBit 0 = true →
        ((t.lane.get l).timerFlags n.toNat).testBit 0 = false ∧ ((t.lane.get l).timerFlags n.toNat).testBit 1 = true
          ∧ (t.lane.get l).timerExpiry n.toNat = 0 := by
  obtain ⟨hsteady, hlane⟩ := s.voteTimer_lane n.toNat
  refine ⟨s.voteTimer n.toNat, if_neg ?_, hsteady, fun l hl hw hr => ?_⟩
  · rw [he, hc]
    exact Bool.false_ne_true
  · obtain ⟨M, himg, hM⟩ := hlane l hv hl
    rw [hM]
    refine LaneSt.expireTimer_record ?_ ?_
    · rw [himg]
      exact LaneSt.memWf_working hw
    · rw [LaneSt.timerFlags, LaneSt.imgByte_congr himg]
      exact hr

/-! ### The start of evaluation (R125, R164) -/

/-- A change of every cell changes the cells alone. -/
theorem LaneSt.eachCell_frame (L : LaneSt) (f : CellSt → CellSt) :
    ∃ cells, L.eachCell f = { L with logic := { L.logic with cells := cells } } := by
  unfold LaneSt.eachCell
  generalize L.logic.cells = es
  induction es generalizing L with
  | nil => exact ⟨L.logic.cells, rfl⟩
  | cons e es ih =>
    obtain ⟨cells, h⟩ := ih (L.setCell e.1 f)
    exact ⟨cells, h⟩

theorem LaneSt.startEvaluation_frame (L : LaneSt) :
    ∃ cells, L.startEvaluation = { L with logic := { L.logic with
      cells := cells, evaluating := true, ended := false, phase := 0, evalClk := 0, held := [], holdPeak := [], tcCmds := []
      asserts := [], out := [], decided := 0, answers := [], throws := [] } } := by
  obtain ⟨cells, h⟩ := L.eachCell_frame CellSt.cycleStart
  exact ⟨cells, by rw [LaneSt.startEvaluation, h]⟩

theorem evaluationStart_next {s : State} {l : Lane} (hw : s.worksImage = true) (ha : s.cyc.step = .agreed) (hl : s.inStep.get l = true)
    (he : (s.lane.get l).logic.evaluating = false) (hd : (s.lane.get l).logic.ended = false) :
    ∃ t, exec (.evaluationStart l) s = .next t ∧ s.Steady t
      ∧ (t.lane.get l).logic.evaluating = true ∧ (t.lane.get l).logic.phase = 0 ∧ (t.lane.get l).logic.held = []
      ∧ (t.lane.get l).logic.out = [] ∧ (t.lane.get l).logic.tcCmds = [] ∧ (t.lane.get l).logic.loc = (s.lane.get l).logic.loc
      ∧ (t.lane.get l).logic.prv = (s.lane.get l).logic.prv ∧ (t.lane.get l).image = (s.lane.get l).image
      ∧ ∀ x : Lane, x ≠ l → t.lane.get x = s.lane.get x := by
  refine ⟨s.upd l LaneSt.startEvaluation, if_pos ⟨hw, ha, hl, he, hd⟩, ⟨rfl, rfl, rfl⟩, ?_⟩
  obtain ⟨cells, h⟩ := (s.lane.get l).startEvaluation_frame
  rw [State.upd_lane_self, h]
  exact ⟨rfl, rfl, rfl, rfl, rfl, rfl, rfl, rfl, fun x hx => State.upd_lane_of_ne _ _ hx⟩

/-- Settles O21: the agreement stands in its cycle or ends in SAFE; a timer's record is written once; the cells alone change besides
what evaluation starts from. -/
theorem agreementTimersAndStart : Obligations.AgreementTimersAndStart := by
  intro s
  refine ⟨inputAgreement_next, fun n c he hc hv => timerExpiry_next he hc hv, fun l => evaluationStart_next⟩

end Sys2Proof.Machine
end

section
/-! PUBLICATION, ROLL_FORWARD and PIN_EXPIRY (R131, R133, R134, R138, R140 to R142), and the statement about them. -/

namespace Sys2Proof.Machine

/-! ### What the first publication settles (R134) -/

/-- What a publication finds of the module: its drive, its queue, its generation, its lanes and their states. -/
def State.pubView (s : State) : DriveSt × List Instr × Nat × LaneVec LaneSt × (Lane → LaneMode) :=
  (s.drv, s.pending, s.gen, s.lane, s.mode)

theorem State.firstPublication_pubView (s : State) :
    s.firstPublication.pubView = (s.drv, s.pending, s.nextGen, s.lane, s.mode) := by
  unfold State.firstPublication
  extract_lets L published cyc u v w power
  have hu : u.pubView = (s.drv, s.pending, s.nextGen, s.lane, s.mode) := rfl
  have hv : v.pubView = u.pubView := by
    refine foldl_keeps State.pubView _ (fun s c => ?_) _ u
    rfl
  have hw : w.pubView = v.pubView := by
    unfold w
    split <;> rfl
  have hsent (t : State) : t.sendLinkMirrors.noteSeen.pubView = t.pubView := by
    unfold State.sendLinkMirrors
    split <;> rfl
  exact (hsent _).trans (hw.trans (hv.trans hu))

theorem State.mode_setCtl_of_same (s : State) (x : Lane) {f : LaneCtl → LaneCtl} (h : (f (s.ctl.get x)).mode = s.mode x) :
    (s.setCtl x f).mode = s.mode := by
  funext l
  by_cases e : l = x
  · rw [e, State.mode, State.setCtl, LaneVec.get_set_self, h]
  · rw [State.mode, State.setCtl, LaneVec.get_set_of_ne _ _ e, State.mode]

/-- The pages marked for a lane in RESYNC (R47) are no part of what is published. -/
theorem State.markPages_pubView (s : State) : s.markPages.pubView = s.pubView := by
  unfold State.markPages
  extract_lets now old _ u
  have hu : u.pubView = s.pubView := rfl
  refine (foldl_keeps State.pubView _ (fun s x => ?_) _ u).trans hu
  split
  · rw [State.pubView, State.mode_setCtl_of_same _ _ rfl, State.pubView]
    rfl
  · rfl

/-! ### The buffers of a lane (R131, R138) -/

/-- Pins expired by a test: the pins, what the store then holds, and a count. -/
theorem LaneSt.expirePins_image (L : LaneSt) (lo w : Nat) (hit : Pin → Bool) : ∃ store,
    (L.expirePins lo w hit).image = { L.image with
      pins := L.image.pins.map fun q => if hit q then { q with expired := true } else q, store := store } := ⟨_, rfl⟩

theorem LaneSt.imgPut_published (L : LaneSt) (a : Nat) (bs : Bytes) : (L.imgPut a bs).image.published = L.image.published := rfl

/-- The header takes the first 32 bytes of the working buffer. -/
theorem LaneSt.putHeader_buffers (L : LaneSt) (s : State) (gen : Nat) :
    (L.putHeader s gen).image.published = L.image.published
      ∧ ∀ a : Nat, 32 ≤ a → memGet (L.putHeader s gen).image.working a = memGet L.image.working a := by
  refine ⟨L.imgPut_published .., fun a h => BitVec.eq_of_toNat_eq (L.imgByte_imgPut_of_outside 0 _ (.inr ?_))⟩
  simpa only [List.length_append, length_toLe, Nat.zero_add] using h

/-- The buffers exchange their roles; what was written is to be rolled forward. -/
def LaneSt.exchange (L : LaneSt) : LaneSt :=
  { L with image := { L.image with
      working := L.image.published, published := L.image.working, rolling := L.image.dirty, dirty := [], done := true, rolled := false } }

theorem LaneSt.noteRegs_image (L : LaneSt) (gen : Nat) (runId areas : Word) (cycle forces timers : Nat) (tamper : Bool) :
    (L.noteRegs gen runId areas cycle forces timers tamper).image = L.image := rfl

/-- What a lane publishes: the buffers exchanged, the header written; the pins and the store follow the generation. -/
theorem LaneSt.publish_image (L : LaneSt) (s : State) (gen : Nat) : ∃ pins store,
    (L.publish s gen).image = { (L.putHeader s gen).exchange.image with pins := pins, store := store } := by
  unfold LaneSt.publish
  extract_lets P n _ X N A v
  obtain ⟨store, hA⟩ := N.expirePins_image 0 16 fun q => decide (q.gen + 3 ≤ gen)
  exact ⟨_, store, (A.noteRegs_image ..).trans hA⟩

/-- What the first lane of a cycle to publish settles for all before it does. -/
def State.openPublication (s : State) : State :=
  if Lane.list.all fun x => !(s.lane.get x).image.done then s.firstPublication.markPages else s

theorem State.openPublication_pubView (s : State) : s.openPublication.pubView
    = (s.drv, s.pending, if Lane.list.all fun x => !(s.lane.get x).image.done then s.nextGen else s.gen, s.lane, s.mode) := by
  unfold State.openPublication
  split
  · rw [State.markPages_pubView, State.firstPublication_pubView]
  · rfl

theorem execPublication_of_due {s : State} {l : Lane} (hw : s.worksImage = true) (ho : s.cyc.step = .output)
    (hl : s.inStep.get l = true) (hd : (s.lane.get l).image.done = false) :
    exec (.publication l) s
      = .next (s.openPublication.upd l fun L => (L.publish s.openPublication s.openPublication.gen).ageClosed) := by
  refine if_neg ?_
  rw [hw, ho, hl, hd]
  decide

theorem publication_next {s : State} {l : Lane} (hw : s.worksImage = true) (ho : s.cyc.step = .output) (hl : s.inStep.get l = true)
    (hd : (s.lane.get l).image.done = false) :
    ∃ t, exec (.publication l) s = .next t ∧ t.drv = s.drv ∧ t.pending = s.pending ∧ (∀ x : Lane, t.mode x = s.mode x)
      ∧ t.gen = (if Lane.list.all fun x => !(s.lane.get x).image.done then s.nextGen else s.gen)
      ∧ (t.lane.get l).image.done = true ∧ (t.lane.get l).image.rolled = false ∧ (t.lane.get l).image.dirty = []
      ∧ (t.lane.get l).image.working = (s.lane.get l).image.published
      ∧ (∀ a : Nat, 32 ≤ a → memGet (t.lane.get l).image.published a = memGet (s.lane.get l).image.working a)
      ∧ ∀ x : Lane, x ≠ l → t.lane.get x = s.lane.get x := by
  refine ⟨_, execPublication_of_due hw ho hl hd, ?_⟩
  have hu := s.openPublication_pubView
  generalize s.openPublication = u at hu ⊢
  simp only [State.pubView, Prod.mk.injEq] at hu
  obtain ⟨hdrv, hpend, hgen, hlane, hmode⟩ := hu
  obtain ⟨pins, store, himg⟩ := (s.lane.get l).publish_image u u.gen
  obtain ⟨hpublished, hworking⟩ := (s.lane.get l).putHeader_buffers u u.gen
  have hpub : ((u.upd l fun L => (L.publish u u.gen).ageClosed).lane.get l).image = ((s.lane.get l).publish u u.gen).image := by
    rw [State.upd_lane_self, hlane]
    rfl
  refine ⟨hdrv, hpend, congrFun hmode, hgen, ?_⟩
  rw [hpub, himg]
  generalize (s.lane.get l).putHeader u u.gen = P at hpublished hworking ⊢
  exact ⟨rfl, rfl, rfl, hpublished, hworking, fun x hx => by rw [State.upd_lane_of_ne _ _ hx, hlane]⟩

/-! ### Roll-forward (R133) -/

theorem LaneSt.fitStore_published (n : Nat) (L : LaneSt) (k : Nat) :
    (LaneSt.fitStore n L k).image.published = L.image.published := by
  induction n generalizing L with
  | zero => rfl
  | succ n ih =>
    unfold LaneSt.fitStore
    split
    · rfl
    · split
      · exact ih _
      · rfl

/-- What is kept for pins is no part of the published buffer. -/
theorem LaneSt.keepLines_published (L : LaneSt) (gen : Nat) (buf : List Host.Cell) (lines : List Nat) :
    (L.keepLines gen buf lines).image.published = L.image.published := by
  unfold LaneSt.keepLines
  extract_lets M needed _ N
  have hM : M.image.published = L.image.published := LaneSt.fitStore_published ..
  have hN : N.image.published = M.image.published := by
    unfold N
    split <;> rfl
  exact hN.trans hM

theorem LaneSt.rollForward_image {L : LaneSt} (h : L.image.rolled = false) :
    L.rollForward.image.working = L.image.published ∧ L.rollForward.image.published = L.image.published
      ∧ L.rollForward.image.rolled = true := by
  unfold LaneSt.rollForward
  rw [h, if_neg Bool.false_ne_true]
  exact ⟨L.keepLines_published .., L.keepLines_published .., rfl⟩

/-- A copy that is abandoned sends what was held for it (R147): the drive, the states of the lanes and the queue stand, and the
images. -/
theorem State.copyAbandoned_keeps (s : State) :
    s.Steady s.copyAbandoned ∧ ∀ l, (s.copyAbandoned.lane.get l).image = (s.lane.get l).image := by
  have hcount (t : State) : t.Sends (t.count Reg.XO_EVENTS 16 8 1) := Sends.count t _ _ _ (by decide)
  unfold State.copyAbandoned
  split
  · have hf := ((s.setXo fun x => { x with sentPages := [], peer := x.peer.map fun b => { b with sync := 1 } }).count
      Reg.XO_EVENTS 16 8 1).flushHeld_sends
    refine ⟨?_, fun l => (hf.lane l).image.trans ((hcount _).lane l).image⟩
    rw [hf.rest]
    exact ⟨rfl, rfl, rfl⟩
  · split
    · exact ⟨⟨rfl, rfl, rfl⟩, fun l => ((hcount _).lane l).image⟩
    · exact ⟨⟨rfl, rfl, rfl⟩, fun _ => rfl⟩

theorem rollForward_next {s : State} {l : Lane} (copied : Bool) (hr : (s.lane.get l).image.rolled = false) :
    ∃ t, exec (.rollForward l copied false) s = .next t ∧ s.Steady t
      ∧ (t.lane.get l).image.working = (s.lane.get l).image.published
      ∧ (t.lane.get l).image.published = (s.lane.get l).image.published ∧ (t.lane.get l).image.rolled = true := by
  obtain ⟨hstands, himages⟩ := s.copyAbandoned_keeps
  have hcopy : s.Steady (if copied then s else s.copyAbandoned)
      ∧ ((if copied then s else s.copyAbandoned).lane.get l).image = (s.lane.get l).image := by
    split
    · exact ⟨⟨rfl, rfl, rfl⟩, rfl⟩
    · exact ⟨hstands, himages l⟩
  have hnot : ¬ (s.lane.get l).image.rolled = true := by
    rw [hr]
    exact Bool.false_ne_true
  refine ⟨(if copied then s else s.copyAbandoned).upd l LaneSt.rollForward, if_neg hnot, ?_⟩
  generalize (if copied then s else s.copyAbandoned) = u at hcopy ⊢
  obtain ⟨hsteady, himg⟩ := hcopy
  rw [State.upd_lane_self, ← himg]
  exact ⟨hsteady, LaneSt.rollForward_image (himg ▸ hr)⟩

/-! ### Pins that expire (R141) -/

theorem pinExpiry_next (s : State) (l : Lane) (p : Port) :
    ∃ t, exec (.pinExpiry l p) s = .next t ∧ s.Steady t
      ∧ (t.lane.get l).image.pins = (s.lane.get l).image.pins.map (fun q =>
          if q.port == p && decide (q.gen + 3 ≤ (s.lane.get l).pubGen) then { q with expired := true } else q)
      ∧ (t.lane.get l).image.published = (s.lane.get l).image.published ∧ ∀ x : Lane, x ≠ l → t.lane.get x = s.lane.get x := by
  refine ⟨_, rfl, ⟨rfl, rfl, rfl⟩, ?_⟩
  obtain ⟨store, h⟩ := (s.lane.get l).expirePins_image 0 16 fun q => q.port == p && decide (q.gen + 3 ≤ (s.lane.get l).pubGen)
  rw [State.upd_lane_self, h]
  exact ⟨rfl, rfl, fun x hx => State.upd_lane_of_ne _ _ hx⟩

/-- Settles O25: the first lane to publish settles the generation for all, and each lane's command changes the buffers, or the pins,
of that lane. -/
theorem publicationAndRollForward : Obligations.PublicationAndRollForward := fun s l =>
  ⟨publication_next, fun copied => rollForward_next copied, fun p => pinExpiry_next s l p⟩

end Sys2Proof.Machine
end

section
/-! What a barrier makes of a lane (R127, R128, R173, R174, R202, R218): the held writes committed, the routes judged. -/

namespace Sys2Proof.Machine

namespace LaneSt.SamePhase

theorem commitWord (L : LaneSt) (forced : List Nat) (c : CommitWord) : L.SamePhase (L.commitWord forced c) := by
  unfold LaneSt.commitWord
  split
  · exact blkPut ..
  · exact ite (refl L) (imgPutLe ..)
  · exact ⟨rfl, rfl, rfl, rfl, rfl, id, id⟩

theorem notePeak (L : LaneSt) : L.SamePhase L.notePeak := ⟨rfl, rfl, rfl, rfl, rfl, id, id⟩

theorem routeMoved (L : LaneSt) (s : State) (r st : Nat) : L.SamePhase (L.routeMoved s r st) := by
  unfold LaneSt.routeMoved
  extract_lets cf sl u _ v
  have hu : L.SamePhase u := imgPutLe ..
  have hv : u.SamePhase v :=
    ite ((imgPutLe ..).trans (ite ((imgPutLe ..).trans (imgPutLe ..)) (imgPutLe ..))) (refl u)
  exact hu.trans (hv.trans (ite ((imgPutLe ..).trans (imgPutLe ..)) (ite (imgPutLe ..) (refl v))))

theorem checkRoutes (L : LaneSt) (s : State) (before : LaneSt) (routes : List Nat) : L.SamePhase (L.checkRoutes s before routes).1 := by
  unfold LaneSt.checkRoutes
  suffices h : ∀ p : LaneSt × List Nat, L.SamePhase p.1 → L.SamePhase (routes.foldl _ p).1 from h (L, []) (refl L)
  induction routes with
  | nil => exact fun p hp => hp
  | cons r rs ih =>
    intro p hp
    refine ih _ ?_
    dsimp only
    split
    · exact hp
    · split
      · exact hp.trans (routeMoved ..)
      · exact hp.trans ((imgPutLe ..).trans (imgPutLe ..))

end LaneSt.SamePhase

namespace State.Proceeds

theorem noteClash (s : State) (l : Lane) (c : CommitWord) : s.Proceeds (s.noteClash l c) := by
  unfold State.noteClash
  refine foldl (fun s i => ?_) _ s
  split <;> exact report ..

theorem noteOwned (s : State) (l : Lane) (h : HeldW) : s.Proceeds (s.noteOwned l h) := by
  unfold State.noteOwned
  exact ite ((upd s l (.addFld ..)).trans (report ..)) (refl s)

theorem noteRefused (s : State) (l : Lane) (r : Nat) : s.Proceeds (s.noteRefused l r) :=
  (upd s l ((LaneSt.SamePhase.addFld ..).trans (.setBits ..))).trans (report ..)

end State.Proceeds

/-- The buffers of held writes emptied, with the clocks that it took and the throws that wait for the recorder. -/
def LaneSt.freeHeld (L : LaneSt) (clk : Nat) (throws : List Nat) : LaneSt :=
  { L with logic := { L.logic with held := [], evalClk := clk, throws := throws } }

/-- The barrier's commit: the lane stands in its phase with nothing held, and what the commit meets is reported from there. -/
theorem State.commitPhase_stages (s : State) (l : Lane) : ∃ M : LaneSt, M.logic.held = []
    ∧ M.logic.phase = (s.lane.get l).logic.phase ∧ M.logic.ended = (s.lane.get l).logic.ended
    ∧ (s.upd l fun _ => M).Proceeds (s.commitPhase l) := by
  unfold State.commitPhase
  extract_lets L hs cs forced put q spent _ _ u v w
  have hput : L.SamePhase put := (LaneSt.SamePhase.notePeak L).trans (.foldl (fun L c => .commitWord L forced c) cs _)
  have hq : L.SamePhase q.1 := hput.trans (.checkRoutes ..)
  refine ⟨q.1.freeHeld (L.logic.evalClk + spent) ((s.throwsOf cs).foldl (fun xs n => insertNat n xs) L.logic.throws), rfl,
    hq.phase, hq.ended, ?_⟩
  have hv : u.Proceeds v := .foldl (fun s c => .noteClash s l c) cs u
  have hw : v.Proceeds w := .foldl (fun s h => .noteOwned s l h) _ v
  exact hv.trans (hw.trans (.foldl (fun s r => .noteRefused s l r) _ w))

end Sys2Proof.Machine
end

section
/-! The end of evaluation (R157, R176 to R178, R205 to R212, R230 to R234), and the statement about BARRIER. -/

namespace Sys2Proof.Machine

/-! ### The Booking Office's part (R207, R208, R212) -/

namespace LaneSt.SamePhase

theorem bookRefuse (L : LaneSt) (l : Lane) (code session ident cycle : Nat) :
    L.SamePhase (L.bookRefuse l code session ident cycle) := by
  unfold LaneSt.bookRefuse
  extract_lets noted k recorded
  have hn : L.SamePhase noted := (addFld ..).trans (setReg ..)
  have hr : noted.SamePhase recorded := record ..
  exact hn.trans (hr.trans (ite (setBits ..) (refl recorded)))

theorem forgetClosed (L : LaneSt) (slot : Nat) : L.SamePhase (L.forgetClosed slot) := ⟨rfl, rfl, rfl, rfl, rfl, id, id⟩

theorem admitRoute (L : LaneSt) (s : State) (rc : RouteCfg) (slot origin session tag : Nat) :
    L.SamePhase (L.admitRoute s rc slot origin session tag) := by
  unfold LaneSt.admitRoute
  extract_lets a r u cf v w
  have hu : L.SamePhase u := imgPut ..
  have hv : u.SamePhase v := ((imgPutLe ..).trans (imgPutLe ..)).trans (imgPutLe ..)
  have hw : v.SamePhase w := (imgPutLe ..).trans (imgPutLe ..)
  exact hu.trans (hv.trans (hw.trans ((addFld ..).trans (forgetClosed ..))))

theorem decline (L : LaneSt) (l : Lane) (s : State) (code session ident state : Nat) :
    L.SamePhase (L.decline l s code session ident state).lane := bookRefuse ..

theorem decideSet (L : LaneSt) (l : Lane) (s : State) (session : Nat) (r : ReqRec) : L.SamePhase (L.decideSet l s session r).lane := by
  unfold LaneSt.decideSet
  dsimp only
  split
  · split <;> exact decline ..
  · split
    · exact decline ..
    · split
      · exact decline ..
      · split
        · exact refl L
        · split
          · exact decline ..
          · exact admitRoute ..

theorem acceptCancel (L : LaneSt) (s : State) (r tag : Nat) : L.SamePhase (L.acceptCancel s r tag) := by
  unfold LaneSt.acceptCancel
  extract_lets st u
  have hu : L.SamePhase u := ite (imgPutLe ..) (refl L)
  exact ite (refl L) (hu.trans (ite (((imgPutLe ..).trans (imgPutLe ..)).trans (routeMoved ..)) (imgPutLe ..)))

theorem decideCancel (L : LaneSt) (l : Lane) (s : State) (session : Nat) (r : ReqRec) :
    L.SamePhase (L.decideCancel l s session r).lane := by
  unfold LaneSt.decideCancel
  dsimp only
  split
  · split <;> exact decline ..
  · split
    · exact decline ..
    · split
      · exact decline ..
      · split
        · exact refl L
        · split
          · exact decline ..
          · split
            · exact decline ..
            · exact acceptCancel ..

theorem decideQuery (L : LaneSt) (l : Lane) (s : State) (session : Nat) (r : ReqRec) : L.SamePhase (L.decideQuery l s session r).lane := by
  unfold LaneSt.decideQuery
  dsimp only
  split
  · exact decline ..
  · exact refl L

theorem countRecord (L : LaneSt) : L.SamePhase L.countRecord := by
  have h : L.SamePhase { L with logic := { L.logic with decided := L.logic.decided + 1 } } := ⟨rfl, rfl, rfl, rfl, rfl, id, id⟩
  exact h.trans ((setFld ..).trans (maxFld ..))

theorem decideOp (L : LaneSt) (l : Lane) (s : State) (session : Nat) (r : ReqRec) : L.SamePhase (L.decideOp l s session r).lane := by
  unfold LaneSt.decideOp
  dsimp only
  split
  · exact decline ..
  · refine (countRecord L).trans ?_
    split
    · split
      · exact decline ..
      · exact decideSet ..
    · split
      · exact decline ..
      · exact decideCancel ..
    · split
      · exact decline ..
      · exact decideQuery ..
    · exact decline ..

theorem bookOne (L : LaneSt) (l : Lane) (s : State) (session : Nat) (r : ReqRec) : L.SamePhase (L.bookOne l s session r) := by
  unfold LaneSt.bookOne
  refine ite (refl L) ?_
  have h := decideOp L l s session r
  generalize L.decideOp l s session r = d at h ⊢
  exact h.trans ⟨rfl, rfl, rfl, rfl, rfl, id, id⟩

theorem decideAuto (L : LaneSt) (l : Lane) (s : State) (rc : RouteCfg) : L.SamePhase (L.decideAuto l s rc) := by
  unfold LaneSt.decideAuto
  exact ite (bookRefuse ..) (ite (bookRefuse ..) (admitRoute ..))

theorem bookingOffice (L : LaneSt) (l : Lane) (s : State) : L.SamePhase (L.bookingOffice l s).1 := by
  unfold LaneSt.bookingOffice
  extract_lets recs L0 L1 autos L2
  have h0 : L.SamePhase L0 := setFld ..
  have h1 : L0.SamePhase L1 := foldl (fun L e => bookOne L l s e.1 e.2) recs L0
  exact h0.trans (h1.trans (foldl (fun L rc => decideAuto L l s rc) autos L1))

/-! ### Timers and counters (R176 to R178, R234) -/

theorem timerCommand (L : LaneSt) (s : State) (k : TcCmd) : L.SamePhase (L.timerCommand s k) := by
  unfold LaneSt.timerCommand
  split
  · exact refl L
  · refine ite ?_ (ite (refl L) ?_)
    · exact (imgPutLe ..).trans (imgPutLe ..)
    · exact ((imgPutLe ..).trans (imgPutLe ..)).trans (imgPutLe ..)

theorem counterCommand (L : LaneSt) (s : State) (k : TcCmd) : L.SamePhase (L.counterCommand s k) := by
  unfold LaneSt.counterCommand
  split
  · exact refl L
  · exact imgPutLe ..

theorem counterFlags (L : LaneSt) (n : Nat) (c : CounterCfg) : L.SamePhase (L.counterFlags n c) := imgKeep ..

/-! ### What a cycle leaves in the registers and the recorder (R152, R561, R562) -/

theorem showHold (L : LaneSt) : L.SamePhase L.showHold := foldl (fun _ _ => (setFld ..).trans (maxFld ..)) _ L

theorem payPut (L : LaneSt) (r off n v : Nat) : L.SamePhase (L.payPut r off n v) := of_logic rfl rfl

theorem payAdd (L : LaneSt) (r off n k : Nat) : L.SamePhase (L.payAdd r off n k) := payPut ..

theorem tallySample (L : LaneSt) (b r : Nat) (v : Int) : L.SamePhase (L.tallySample b r v) := by
  unfold LaneSt.tallySample
  extract_lets first raw low high u v w
  have hu : L.SamePhase u := payAdd ..
  have hv : u.SamePhase v := ite ((payPut ..).trans (payPut ..)) (refl u)
  have hw : v.SamePhase w := ite ((payPut ..).trans (payPut ..)) (refl v)
  exact hu.trans (hv.trans (hw.trans (payAdd ..)))

theorem tallyThrow (L : LaneSt) (b n : Nat) : L.SamePhase (L.tallyThrow b n) := (tallySample ..).trans (payPut ..)

theorem tallyEval (L : LaneSt) (t : Nat) : L.SamePhase (L.tallyEval t) := of_logic rfl rfl

end LaneSt.SamePhase

namespace State.Proceeds

theorem applyCommands (s : State) (l : Lane) : s.Proceeds (s.applyCommands l) := by
  unfold State.applyCommands
  extract_lets ks s' u v
  have hu : s.Proceeds u := upd s l <| (LaneSt.SamePhase.foldl (fun L k => .ite (.counterCommand ..) (.timerCommand ..)) _ _).trans
    (.foldl (fun L c => .counterFlags ..) _ _)
  have hv : u.Proceeds v := foldl (fun s n => (upd s l (.addFld ..)).trans (report ..)) _ u
  exact hu.trans (hv.trans (foldl (fun s n => (upd s l (.addFld ..)).trans (report ..)) _ v))

theorem noteEvalTime (s : State) (l : Lane) : s.Proceeds (s.noteEvalTime l) := by
  unfold State.noteEvalTime
  extract_lets L t u v due
  have hu : s.Proceeds u :=
    upd s l <| ((LaneSt.SamePhase.setFld ..).trans (.maxFld ..)).trans (.ite (.tallyEval ..) (.refl _))
  have hv : u.Proceeds v := upd u l (.addFld ..)
  refine hu.trans (ite (hv.trans (ite ?_ (refl v))) (refl u))
  exact (upd v l ⟨rfl, rfl, rfl, rfl, rfl, id, id⟩).trans (recordIn ..)

end State.Proceeds

/-! ### The end of evaluation (R157) -/

/-- The evaluation of a lane ends: every previous-state bit takes its local bit. -/
def LaneSt.endPhases (L : LaneSt) : LaneSt :=
  { L with logic := { L.logic with prv := L.logic.loc, evaluating := false, ended := true } }

/-- Evaluation ends between what the Booking Office and the engines do and what the registers and the recorder then show. -/
theorem State.endEvaluation_stages (s : State) (l : Lane) :
    ∃ u, s.Proceeds u ∧ (u.upd l LaneSt.endPhases).Proceeds (s.endEvaluation l) := by
  unfold State.endEvaluation
  extract_lets q _ _ u v tallies b w
  have hu : s.Proceeds u := .upd s l ((LaneSt.SamePhase.bookingOffice ..).trans ⟨rfl, rfl, rfl, rfl, rfl, id, id⟩)
  refine ⟨v, hu.trans (.applyCommands u l), State.Proceeds.trans ?_ (.noteEvalTime w l)⟩
  have hw := State.Proceeds.upd (v.upd l LaneSt.endPhases) l
    (f := fun L => if tallies then L.showHold.logic.throws.foldl (fun L n => L.tallyThrow b n) L.showHold else L.showHold)
    ((LaneSt.SamePhase.showHold _).trans (.ite (.foldl (fun L n => .tallyThrow ..) _ _) (.refl _)))
  rwa [State.upd_upd] at hw

/-! ### BARRIER -/

/-- A lane starts its next phase in every cell that has not ended its program (R127, R156). -/
def LaneSt.nextPhase (L : LaneSt) : LaneSt :=
  let p := L.logic.phase + 1
  let L := L.eachCell fun c => if c.done then c else c.phaseStart p
  { L with logic := { L.logic with phase := p } }

theorem LaneSt.nextPhase_frame (L : LaneSt) :
    ∃ cells, L.nextPhase = { L with logic := { L.logic with cells := cells, phase := L.logic.phase + 1 } } := by
  obtain ⟨cells, h⟩ := L.eachCell_frame fun c => if c.done then c else c.phaseStart (L.logic.phase + 1)
  exact ⟨cells, by rw [LaneSt.nextPhase, h]⟩

/-- The barrier of a lane whose cells stand at it, before the last phase and at its end. -/
theorem execBarrier_of_standing {s : State} {l : Lane} (he : (s.lane.get l).logic.evaluating = true)
    (hb : (s.lane.get l).atBarrier = true) :
    ((s.lane.get l).logic.phase + 1 < (s.lane.get l).phaseCount → exec (.barrier l) s = .next ((s.commitPhase l).upd l LaneSt.nextPhase))
    ∧ ((s.lane.get l).phaseCount ≤ (s.lane.get l).logic.phase + 1 → exec (.barrier l) s = .next
      (((s.commitPhase l).upd l fun M => { M with logic := { M.logic with
        idleClk := (s.lane.get l).logic.evalClk + 1, idleBank := M.logic.bank } }).endEvaluation l)) := by
  have hgo : ¬ (!(s.lane.get l).logic.evaluating || !(s.lane.get l).atBarrier) = true := by
    rw [he, hb]
    decide
  refine ⟨fun h => (if_neg hgo).trans (if_neg ?_), fun h => (if_neg hgo).trans (if_pos (decide_eq_true h))⟩
  rw [decide_eq_true_eq]
  exact Nat.not_le.2 h

/-- Settles O22: the commit leaves nothing held; the lane goes on from there to its next phase, or through the end of its evaluation. -/
theorem barrierEndsThePhase : Obligations.BarrierEndsThePhase := by
  intro s l he hb
  obtain ⟨hnext, hlast⟩ := execBarrier_of_standing he hb
  obtain ⟨M, hheld, hphase, hended, hcommit⟩ := s.commitPhase_stages l
  have hlane := hcommit.lane l
  rw [State.upd_lane_self] at hlane
  rcases Nat.lt_or_ge ((s.lane.get l).logic.phase + 1) (s.lane.get l).phaseCount with h | h
  · obtain ⟨cells, hframe⟩ := ((s.commitPhase l).lane.get l).nextPhase_frame
    refine ⟨_, hnext h, hcommit.pending, hcommit.cyc, ?_⟩
    rw [State.upd_lane_self, hframe]
    exact ⟨hlane.held.trans hheld, fun _ => ⟨congrArg (· + 1) (hlane.phase.trans hphase), hlane.ended.trans hended⟩,
      fun hl => absurd h (Nat.not_lt.2 hl)⟩
  · have hidle := State.Proceeds.upd (s.commitPhase l) l
      (f := fun M => { M with logic := { M.logic with idleClk := (s.lane.get l).logic.evalClk + 1, idleBank := M.logic.bank } })
      ⟨rfl, rfl, rfl, rfl, rfl, id, id⟩
    refine ⟨_, hlast h, ?_⟩
    obtain ⟨u, hbefore, hafter⟩ := State.endEvaluation_stages ((s.commitPhase l).upd l fun M => { M with logic := { M.logic with
      idleClk := (s.lane.get l).logic.evalClk + 1, idleBank := M.logic.bank } }) l
    have hu := hcommit.trans (hidle.trans hbefore)
    have hmid := hu.lane l
    have hend := hafter.lane l
    rw [State.upd_lane_self] at hmid hend
    exact ⟨hafter.pending.trans hu.pending, hafter.cyc.trans hu.cyc, hend.held.trans (hmid.held.trans hheld),
      fun hn => absurd hn (Nat.not_lt.2 h), fun _ => ⟨hend.ended, hend.idle rfl, hend.prv.trans hend.loc.symm⟩⟩

end Sys2Proof.Machine
end

section
/-! Logic cells (R155 to R186): for each shape of effect, what an instruction of that shape makes of its cell and of the logic of its
lane; the statements about the instructions are its instances. -/

namespace Sys2Proof.Machine

/-! ### Instructions that give A a value (R166, R169) -/

/-- A takes a value that the cell as it stands decides, unless E = 0. -/
theorem runCell_setA {x : CellAt} {w b : Nat} {eff : LaneSt → CellSt → Option CellEff} {s : State} (v : CellSt → Bool)
    (hr : s.CellReady x w)
    (he : eff (s.lane.get x.lane) (s.cellAt x) = some { cell := (s.cellAt x).setA (v (s.cellAt x)), base := b }) :
    runCell x w eff s = s.cellGoes x b fun c => { c with a := if c.e then v c else c.a } := by
  rw [CellSt.setA_eq] at he
  exact runCell_cell (g := fun c => { c with a := if c.e then v c else c.a }) hr he

/-- A bit instruction whose operand reads `v` gives A its operation on A and `v`. -/
theorem runCell_effRead {x : CellAt} {w f : Nat} {s : State} {v : Bool} (op : Bool → Bool → Bool)
    (hv : readOperand s (s.lane.get x.lane) x.cell.toNat f = some v) (hr : s.CellReady x w) :
    runCell x w (effRead s x.cell.toNat f op) s
      = s.cellGoes x (readClocks f) fun c => { c with a := if c.e then op c.a v else c.a } :=
  runCell_setA (fun c => op c.a v) hr (by rw [effRead, hv])

/-- A word below 4096 names a local bit (R159). -/
theorem fmtA_of_lt {f : Nat} (hf : f < 4096) : fmtASpace f = 0 ∧ fmtAAddr f = f :=
  ⟨Nat.div_eq_of_lt (by omega), Nat.mod_eq_of_lt (by omega)⟩

/-- An edge instruction compares a local bit with its previous-state bit (R157). -/
theorem runCell_effEdge {x : CellAt} {w f : Nat} {s : State} (edge : Bool → Bool → Bool) (hf : f < 4096) (hr : s.CellReady x w) :
    let now := getD false (s.lane.get x.lane).logic.loc (x.cell.toNat * 4096 + f)
    let old := getD false (s.lane.get x.lane).logic.prv (x.cell.toNat * 4096 + f)
    runCell x w (effEdge x.cell.toNat f edge) s = s.cellGoes x 1 fun c => { c with a := if c.e then edge now old else c.a } := by
  intro now old
  obtain ⟨hspace, haddr⟩ := fmtA_of_lt hf
  refine runCell_setA (fun _ => edge now old) hr ?_
  rw [effEdge, haddr, if_pos ⟨hspace, hf⟩]

/-- Settles O11: each instruction gives A one operation on A and what its operand reads. -/
theorem cellBitReadsAndEdges : Obligations.CellBitReadsAndEdges := by
  refine ⟨fun x f s v hv => ⟨?ld, ?ldn, ?and, ?andn, ?or, ?orn, ?xor⟩, fun x f s hf => ⟨?edgr, ?edgf⟩⟩
  case ld => exact fun hr => congrArg Host.Outcome.next (runCell_effRead (fun _ v => v) hv hr)
  case ldn => exact fun hr => congrArg Host.Outcome.next (runCell_effRead (fun _ v => !v) hv hr)
  case and => exact fun hr => congrArg Host.Outcome.next (runCell_effRead (fun a v => a && v) hv hr)
  case andn => exact fun hr => congrArg Host.Outcome.next (runCell_effRead (fun a v => a && !v) hv hr)
  case or => exact fun hr => congrArg Host.Outcome.next (runCell_effRead (fun a v => a || v) hv hr)
  case orn => exact fun hr => congrArg Host.Outcome.next (runCell_effRead (fun a v => a || !v) hv hr)
  case xor => exact fun hr => congrArg Host.Outcome.next (runCell_effRead (fun a v => a != v) hv hr)
  case edgr => exact fun hr => congrArg Host.Outcome.next (runCell_effEdge (fun now old => now && !old) hf hr)
  case edgf => exact fun hr => congrArg Host.Outcome.next (runCell_effEdge (fun now old => !now && old) hf hr)

/-- A field compare gives A the relation of the byte and the immediate where the element is known, or A AND it (R166, R175). -/
theorem runCell_effField {x : CellAt} {w f : Nat} {s : State} {rel : Nat → Nat → Bool} (R : Nat → Nat → Prop)
    [∀ b i, Decidable (R b i)] (hrel : ∀ b i, rel b i = decide (R b i)) (combine : Bool) (hr : s.CellReady x w) :
    let holds := !fieldUnknown (s.lane.get x.lane) f && decide (R (fieldByte (s.lane.get x.lane) f) (fmtBImm f))
    runCell x w (effField f rel combine) s
      = s.cellGoes x 6 fun c => { c with a := if c.e then (if combine then c.a && holds else holds) else c.a } := by
  intro holds
  have hcompare : fieldCompare rel (s.lane.get x.lane) f = holds := by rw [fieldCompare, hrel]
  exact runCell_setA (fun c => if combine then c.a && holds else holds) hr (by rw [effField, hcompare])

/-- Settles O6: each compare is one relation, combined with A or not. -/
theorem cellFieldCompares : Obligations.CellFieldCompares := by
  intro x f s
  have hne (b i : Nat) : (b != i) = decide (b ≠ i) := (decide_not (p := b = i)).symm
  have htst (b i : Nat) : (b &&& i != 0) = decide (b &&& i ≠ 0) := hne _ 0
  refine ⟨?feq, ?fne, ?fge, ?flt, ?ftst, ?feqa, ?fgea, ?ftsta⟩
  case feq => exact fun hr => congrArg Host.Outcome.next (runCell_effField (· = ·) (fun _ _ => rfl) false hr)
  case fne => exact fun hr => congrArg Host.Outcome.next (runCell_effField (· ≠ ·) hne false hr)
  case fge => exact fun hr => congrArg Host.Outcome.next (runCell_effField (fun b i => i ≤ b) (fun _ _ => rfl) false hr)
  case flt => exact fun hr => congrArg Host.Outcome.next (runCell_effField (· < ·) (fun _ _ => rfl) false hr)
  case ftst => exact fun hr => congrArg Host.Outcome.next (runCell_effField (fun b i => b &&& i ≠ 0) htst false hr)
  case feqa => exact fun hr => congrArg Host.Outcome.next (runCell_effField (· = ·) (fun _ _ => rfl) true hr)
  case fgea => exact fun hr => congrArg Host.Outcome.next (runCell_effField (fun b i => i ≤ b) (fun _ _ => rfl) true hr)
  case ftsta => exact fun hr => congrArg Host.Outcome.next (runCell_effField (fun b i => b &&& i ≠ 0) htst true hr)

/-- A time compare gives A its result, or A AND it (R183). -/
theorem runCell_effTime {x : CellAt} {w f : Nat} {s : State} (cmp : CellSt → Nat → Bool) (hr : s.CellReady x w) :
    runCell x w (fun _ c => effTime f cmp c) s = s.cellGoes x 3 fun c =>
      { c with a := if c.e then (if f.testBit 23 then c.a && cmp c f else cmp c f) else c.a } :=
  runCell_setA (fun c => if f.testBit 23 then c.a && cmp c f else cmp c f) hr rfl

/-- The unit of a time compare (R158). -/
theorem fmtDUnit_eq (f : Nat) : fmtDUnit f
    = if f / 2 ^ 24 = 0 then 100 else if f / 2 ^ 24 = 1 then 10000 else if f / 2 ^ 24 = 2 then 1000000 else 100000000 := by
  unfold fmtDUnit
  split
  case h_1 h => rw [h]; rfl
  case h_2 h => rw [h]; rfl
  case h_3 h => rw [h]; rfl
  case h_4 h0 h1 h2 => rw [if_neg h0, if_neg h1, if_neg h2]

/-- Settles O8. -/
theorem cellTimeCompares : Obligations.CellTimeCompares := by
  intro x f s unit H combine takes later
  have hH : timeThreshold f.toNat = H := by rw [timeThreshold, fmtDUnit_eq]; rfl
  refine ⟨fun hr => congrArg Host.Outcome.next ((runCell_effTime timeGe hr).trans ?_),
    fun hr => congrArg Host.Outcome.next ((runCell_effTime timeLt hr).trans ?_)⟩
  · simp only [timeGe, hH]
    rfl
  · simp only [timeLt, hH]
    rfl

/-! ### Time registers (R182) -/

/-- A time register takes the stamp of the polarity that the instruction names, unless E = 0. -/
theorem runCell_effStamp {x : CellAt} {w f k : Nat} {s : State} (rise : Bool) (hk : slotOperand (s.lane.get x.lane) x.cell.toNat f = some k)
    (hr : s.CellReady x w) :
    let r := slotStamp (s.lane.get x.lane) (x.cell.toNat / 16) k rise
    runCell x w (effStamp x.cell.toNat f rise false) s = (s.cellGoes x 5 fun c => { c with t0 := if c.e then r else c.t0 })
    ∧ runCell x w (effStamp x.cell.toNat f rise true) s = s.cellGoes x 5 fun c => { c with t1 := if c.e then r else c.t1 } := by
  intro r
  have heff (one : Bool) : effStamp x.cell.toNat f rise one (s.lane.get x.lane) (s.cellAt x)
      = some { cell := if one then (s.cellAt x).setT1 r else (s.cellAt x).setT0 r, base := 5 } := by rw [effStamp, hk]
  refine ⟨runCell_cell hr ((heff false).trans ?_), runCell_cell hr ((heff true).trans ?_)⟩
  · rw [if_neg Bool.false_ne_true, CellSt.setT0_eq]
  · rw [if_pos rfl, CellSt.setT1_eq]

/-- Settles O7: each instruction copies one polarity of the slot into one register. -/
theorem cellStamps : Obligations.CellStamps := by
  intro x f s k hk stamp takes0 takes1
  exact ⟨fun hr => congrArg Host.Outcome.next (runCell_effStamp true hk hr).1,
    fun hr => congrArg Host.Outcome.next (runCell_effStamp false hk hr).1,
    fun hr => congrArg Host.Outcome.next (runCell_effStamp true hk hr).2,
    fun hr => congrArg Host.Outcome.next (runCell_effStamp false hk hr).2⟩

/-! ### Conditional execution (R168) -/

/-- Settles O9: none of the four instructions does anything outside its cell. -/
theorem cellConditions : Obligations.CellConditions := by
  intro x s
  refine ⟨fun hr => ?enop, fun hr hroom => ?eif, fun top rest hr hs => ?eelse, fun top rest hr hs => ?eendif⟩
  case enop => exact congrArg Host.Outcome.next (runCell_cell hr rfl)
  case eif =>
    refine congrArg Host.Outcome.next (runCell_cell hr ?_)
    exact if_neg (Nat.not_le.2 hroom)
  case eelse =>
    refine congrArg Host.Outcome.next (runCell_cell hr ?_)
    simp [effElse, hs]
  case eendif =>
    refine congrArg Host.Outcome.next (runCell_cell hr ?_)
    simp [effEndif, hs]

/-! ### Held writes (R166, R173, R184) -/

/-- A held bit overflows the buffer of its block where the buffer has no room for its word. -/
theorem LaneSt.overflows_heldBit (L : LaneSt) (cell : Nat) {e : CellEff} {sp : HSpace} {w b : Nat} {v : Bool}
    (he : e.held = some (heldBit cell sp w b v)) : L.overflows cell e = holdFull L.logic.held (cell / 16) sp w := by
  simp only [LaneSt.overflows, he]
  rfl

section Write
variable {L : LaneSt} {c : CellSt} {cell f : Nat} {on : Bool} (v : Bool)

/-- A write whose operand is legal changes nothing where E = 0, or where SET or RST finds A = 0 (R166, R169). -/
theorem effWrite_of_off {t : WriteTo} (ht : writeOperand L cell f = some t) (hoff : (c.e && on) = false) :
    effWrite cell f on v L c = some { cell := c, base := writeClocks f } := by simp [effWrite, ht, hoff]

theorem effWrite_loc {b : Nat} (ht : writeOperand L cell f = some (.loc b)) (hon : (c.e && on) = true) :
    effWrite cell f on v L c = some { cell := c, loc := some (b, v), base := writeClocks f } := by simp only [effWrite, ht, hon, if_true]

theorem effWrite_held {sp : HSpace} {w b : Nat} (ht : writeOperand L cell f = some (.held sp w b)) (hon : (c.e && on) = true) :
    effWrite cell f on v L c = some { cell := c, held := some (heldBit cell sp w b v), base := writeClocks f } := by
  simp only [effWrite, ht, hon, if_true]

end Write

/-- Settles O5: each of the four instructions is one write, by the value it writes and by what its cell allows. -/
theorem cellBitWrites : Obligations.CellBitWrites := by
  intro x f s op i on v hi hr L cell t
  obtain ⟨eff, hexec, heff⟩ : ∃ eff, exec i s = .next (runCell x (wordOf op f.toNat) eff s)
      ∧ eff L (s.cellAt x) = effWrite cell f.toNat on v L (s.cellAt x) := by
    obtain ⟨rfl, rfl, rfl, rfl⟩ | ⟨rfl, rfl, rfl, rfl⟩ | ⟨rfl, rfl, rfl, rfl⟩ | ⟨rfl, rfl, rfl, rfl⟩ := hi
    case inl => exact ⟨_, rfl, rfl⟩
    case inr.inl => exact ⟨_, rfl, rfl⟩
    case inr.inr.inl => exact ⟨_, rfl, rfl⟩
    case inr.inr.inr => exact ⟨_, rfl, rfl⟩
  rw [hexec]
  refine ⟨fun w hw hoff => congrArg Host.Outcome.next ?off, fun b hb hon => congrArg Host.Outcome.next ?loc,
    fun sp w b hb hon hroom => congrArg Host.Outcome.next ?held⟩
  case off => exact runCell_cell hr (heff.trans (effWrite_of_off v hw hoff))
  case loc =>
    refine (runCell_logic hr (heff.trans (effWrite_loc v hb hon)) rfl rfl rfl).trans ?_
    exact congrArg (State.logicOf t x.lane) (funext fun g => by simp [CellEff.logic, cell])
  case held =>
    refine (runCell_logic hr (heff.trans (effWrite_held v hb hon)) rfl ?_ rfl).trans ?_
    · exact (LaneSt.overflows_heldBit L cell rfl).trans hroom
    · exact congrArg (State.logicOf t x.lane) (funext fun g => by simp [CellEff.logic, cell])

/-- Settles O10: a failed assertion is a held write of its global bit, with a record. -/
theorem cellAsserts : Obligations.CellAsserts := by
  intro x f s L b w cls t hr hcls hzero
  have hlegal : (fmtCClass f.toNat = 0 ∨ fmtCClass f.toNat = 1 ∨ fmtCClass f.toNat = 4) ∧ fmtCZero f.toNat = 0 := ⟨hcls, hzero⟩
  refine ⟨fun hpass => congrArg Host.Outcome.next ?pass, fun hfail hroom => congrArg Host.Outcome.next ?fail⟩
  case pass =>
    refine runCell_cell hr ?_
    rw [effAssert, if_pos hlegal, if_neg (Bool.not_eq_true _ ▸ hpass)]
    rfl
  case fail =>
    have heff : effAssert s x.cell.toNat f.toNat L (s.cellAt x) = some
        { cell := s.cellAt x, base := 2, held := some (heldBit x.cell.toNat .img w (b % 32) true),
          asrt := some { block := x.cell.toNat / 16, cls, bit := b, fresh := !startBit s L b } } := by
      rw [effAssert, if_pos hlegal, if_pos hfail]
      rfl
    refine (runCell_logic hr heff rfl ?_ rfl).trans ?_
    · exact (LaneSt.overflows_heldBit L _ rfl).trans hroom
    · exact congrArg (State.logicOf t x.lane) (funext fun g => by simp [CellEff.logic])

/-! ### Commands to timers and counters (R169, R176, R177) -/

/-- An instruction that issues a command, when `on` holds, and does nothing else. -/
theorem runCell_cmd {x : CellAt} {w : Nat} {s : State} {eff : LaneSt → CellSt → Option CellEff} {on : Bool} {cmd : TcCmd}
    (hr : s.CellReady x w)
    (he : eff (s.lane.get x.lane) (s.cellAt x) = some { cell := s.cellAt x, base := 2, cmd := if on then some cmd else none }) :
    runCell x w eff s = (s.cellGoes x 2 id).logicOf x.lane fun g => { g with tcCmds := if on then g.tcCmds ++ [cmd] else g.tcCmds } := by
  refine (runCell_logic hr he rfl rfl rfl).trans (congrArg (State.logicOf _ x.lane) (funext fun g => ?_))
  cases on
  · simp [CellEff.logic]
  · simp [CellEff.logic]

/-- The operand field of a timer command, below its function (R158). -/
theorem fmtT_of_fn (n : Nat) (f : BitVec 22) :
    fmtTTimer (n * 2 ^ 22 + f.toNat) = f.toNat / 2 ^ 9 ∧ fmtTPreset (n * 2 ^ 22 + f.toNat) = f.toNat / 2 ^ 7 % 4
      ∧ fmtTCounter (n * 2 ^ 22 + f.toNat) = f.toNat / 2 ^ 12 := by
  have hf := f.isLt
  unfold fmtTTimer fmtTPreset fmtTCounter
  omega

theorem runCell_effTimer {x : CellAt} {s : State} {f : BitVec 22} (n : Nat) (fn : CellSt → Nat) (on stop : CellSt → Bool)
    (hcfg : (s.timerCfg (f.toNat / 2 ^ 9)).isSome) (hzero : f.toNat % 2 ^ 7 = 0)
    (hr : s.CellReady x (wordOf 0x20 (n * 2 ^ 22 + f.toNat))) :
    let c := s.cellAt x
    let cmd : TcCmd := { cell := x.cell.toNat, pc := c.pc, counter := false, fn := fn c, idx := f.toNat / 2 ^ 9,
                         preset := f.toNat / 2 ^ 7 % 4, stop := stop c }
    runCell x (wordOf 0x20 (n * 2 ^ 22 + f.toNat))
        (fun _ c => effTimer s x.cell.toNat (n * 2 ^ 22 + f.toNat) (fn c) (on c) (stop c) c) s
      = (s.cellGoes x 2 id).logicOf x.lane fun g => { g with tcCmds := if c.e && on c then g.tcCmds ++ [cmd] else g.tcCmds } := by
  intro c cmd
  obtain ⟨htimer, hpreset, -⟩ := fmtT_of_fn n f
  refine runCell_cmd hr ?_
  rw [effTimer, htimer, hpreset, if_pos ⟨hcfg, by omega⟩]

theorem runCell_effCounter {x : CellAt} {s : State} {f : BitVec 22} (n fn : Nat)
    (hcfg : (s.counterCfg (f.toNat / 2 ^ 12)).isSome) (hzero : f.toNat % 2 ^ 12 = 0)
    (hr : s.CellReady x (wordOf 0x21 (n * 2 ^ 22 + f.toNat))) :
    let c := s.cellAt x
    let cmd : TcCmd := { cell := x.cell.toNat, pc := c.pc, counter := true, fn, idx := f.toNat / 2 ^ 12, preset := 0, stop := false }
    runCell x (wordOf 0x21 (n * 2 ^ 22 + f.toNat)) (fun _ c => effCounter s x.cell.toNat (n * 2 ^ 22 + f.toNat) fn c) s
      = (s.cellGoes x 2 id).logicOf x.lane fun g => { g with tcCmds := if c.e && c.a then g.tcCmds ++ [cmd] else g.tcCmds } := by
  intro c cmd
  obtain ⟨-, -, hcounter⟩ := fmtT_of_fn n f
  refine runCell_cmd hr ?_
  rw [effCounter, hcounter, if_pos ⟨hcfg, by omega⟩]

/-! ### BAR and END (R172, R194) -/

/-- A cell that executes has not ended (R172). -/
theorem State.CellReady.not_done {s : State} {x : CellAt} {w : Nat} (hr : s.CellReady x w) : (s.cellAt x).done = false := by
  obtain ⟨hexec, -, -⟩ := hr
  exact (Bool.not_eq_true' _).mp (Bool.and_eq_true_iff.1 hexec).2

/-- A cell that stops with an empty stack. -/
theorem runCell_effStop {x : CellAt} {w : Nat} {s : State} (done : Bool) (hr : s.CellReady x w) (hs : (s.cellAt x).stack = []) :
    runCell x w (fun _ c => effStop 0 done c) s = s.cellGoes x 1 fun c => { c with wait := !done, done := c.done || done } :=
  runCell_cell hr (by simp [effStop, hs])

/-- A cell that has ended reads so: an ended cell is no default of the map of cells. -/
theorem State.cellAt_cellGoes_of_done (s : State) (x : CellAt) (b : Nat) {g : CellSt → CellSt} (h : (g (s.cellAt x)).done = true) :
    ((s.cellGoes x b g).cellAt x).done = true := by
  unfold State.cellAt State.cellGoes
  rw [State.upd_lane_self]
  unfold LaneSt.setCell LaneSt.cell
  refine (congrArg CellSt.done (SMap.get_put_of_ne_default _ _ _ (fun he => ?_) _)).trans h
  exact Bool.false_ne_true ((congrArg CellSt.done he).symm.trans h)

/-- END of a cell that ends: `CELL_CLK` takes its clocks (R194). -/
theorem execCEnd_of_ended {s t : State} {x : CellAt} {f : BitVec 26}
    (ht : runCell x (wordOf 0x2D f.toNat) (fun _ c => effStop f.toNat true c) s = t) (hbefore : (s.cellAt x).done = false)
    (hafter : (t.cellAt x).done = true) :
    exec (.cEnd x f) s = .next (t.upd x.lane fun L => L.setReg (Reg.CELL_CLK (x.cell.toNat / 16) (x.cell.toNat % 16))
      (BitVec.ofNat 32 (min (L.logic.evalClk + (L.cell x.cell.toNat).phClk) 0xFFFFFF))) := by
  have hended : (!(s.cellAt x).done && (t.cellAt x).done) = true := by rw [hbefore, hafter]; rfl
  subst ht
  exact congrArg Host.Outcome.next (if_pos hended)

/-- Settles O12: a command is appended to the lane's, and a cell that has ended notes its clocks. -/
theorem cellCommandsAndStops : Obligations.CellCommandsAndStops := by
  refine ⟨fun x f s => ⟨fun hcfg hzero => ⟨?start, ?restart, ?stop, ?runwhile⟩, fun hcfg hzero => ⟨?inc, ?dec, ?clr, ?load⟩⟩,
    fun x s hs => ⟨?bar, ?fin⟩⟩
  case start =>
    intro hr
    exact congrArg Host.Outcome.next (runCell_effTimer 0 (fun _ => 0) CellSt.a (fun _ => false) hcfg hzero
      (by rwa [Nat.zero_mul, Nat.zero_add]))
  case restart =>
    intro hr
    exact congrArg Host.Outcome.next (runCell_effTimer 1 (fun _ => 1) CellSt.a (fun _ => false) hcfg hzero (by rwa [Nat.one_mul]))
  case stop => exact fun hr => congrArg Host.Outcome.next (runCell_effTimer 2 (fun _ => 2) CellSt.a (fun _ => true) hcfg hzero hr)
  case runwhile =>
    intro hr
    refine congrArg Host.Outcome.next ((runCell_effTimer 3 (fun c => if c.a then 0 else 2) (fun _ => true) (fun c => !c.a) hcfg
      hzero hr).trans ?_)
    cases (s.cellAt x).a
    · rfl
    · rfl
  case inc => exact fun hr => congrArg Host.Outcome.next (runCell_effCounter 0 0 hcfg hzero (by rwa [Nat.zero_mul, Nat.zero_add]))
  case dec => exact fun hr => congrArg Host.Outcome.next (runCell_effCounter 1 1 hcfg hzero (by rwa [Nat.one_mul]))
  case clr => exact fun hr => congrArg Host.Outcome.next (runCell_effCounter 2 2 hcfg hzero hr)
  case load => exact fun hr => congrArg Host.Outcome.next (runCell_effCounter 3 3 hcfg hzero hr)
  case bar =>
    intro hr
    refine congrArg Host.Outcome.next ((runCell_effStop false hr hs).trans ?_)
    simp
  case fin =>
    intro hr
    have hafter := s.cellAt_cellGoes_of_done x 1 (g := fun c => { c with wait := false, done := c.done || true }) (Bool.or_true _)
    refine (execCEnd_of_ended (runCell_effStop true hr hs) hr.not_done hafter).trans ?_
    simp

end Sys2Proof.Machine
end

section
/-! The on-line change (R497 to R507): the operations of `SV_CHANGE`, the lanes' verification, the end of the REVERT window. -/

namespace Sys2Proof.Machine

/-! ### The fields of `SV_CHANGE` (R509) -/

theorem chOp_setField (d : Word) {n : Nat} (h : n < 16) : chOp (setField d 0 4 n) = n :=
  (fieldOf_setField d 0 4 n (by decide)).trans (Nat.mod_eq_of_lt h)

/-- The operation leaves the target as it was written. -/
theorem changeLow_setField (d : Word) (n : Nat) : fieldOf (setField d 0 4 n) 8 24 = fieldOf d 8 24 :=
  fieldOf_setField_above d 0 4 n 8 24 (by decide) (by decide)

/-! ### What the lanes keep (R495) -/

/-- An accepted value changes the image and the registers of a lane, and nothing else of it. -/
theorem State.accepted_lane (s : State) (off : Nat) (d : Word) (l : Lane) :
    ∃ image regs, (s.accepted off d).lane.get l = { s.lane.get l with image := image, regs := regs } := by
  have hj := (s.keepJournal_lane off d l).rest
  unfold State.accepted State.storeWb
  rw [State.updIn_lane, hj]
  split
  · exact ⟨_, _, rfl⟩
  · exact ⟨_, _, rfl⟩

theorem State.accepted_flash (s : State) (off : Nat) (d : Word) (l : Lane) :
    ((s.accepted off d).lane.get l).flash = (s.lane.get l).flash := by
  obtain ⟨_, _, h⟩ := s.accepted_lane off d l
  rw [h]

theorem State.event_flash (s : State) (base n data : Nat) (l : Lane) : ((s.event base n data).lane.get l).flash = (s.lane.get l).flash := by
  unfold State.event State.recordIn
  rw [State.updIn_lane]
  split
  · rw [(LaneSt.record_frame ..).1]
  · rfl

theorem LaneSt.copyUnchanged_flash (L : LaneSt) (new : StationFile) : (L.copyUnchanged new).flash = L.flash := by
  unfold LaneSt.copyUnchanged
  refine List.foldlRecOn (motive := fun (M : LaneSt) => M.flash = L.flash) _ _ rfl fun M h b _ => ?_
  split
  · exact h
  · exact h

/-! ### The target cycle of ARM and REVERT (R500) -/

theorem fieldOf_lt (v : Word) (lo w : Nat) : fieldOf v lo w < 2 ^ w := Nat.mod_lt _ (Nat.two_pow_pos w)

theorem State.changeTarget_mod (s : State) {low : Nat} (h : low < 2 ^ 24) : s.changeTarget low % 2 ^ 24 = low := by
  unfold State.changeTarget
  dsimp only
  split <;> omega

theorem State.changeTarget_of_ok {s : State} {low : Nat} (h : s.targetOk low = true) :
    s.cyc.num + 2 ≤ s.changeTarget low ∧ s.changeTarget low ≤ s.cyc.num + 10000 := of_decide_eq_true h

theorem State.targetOk_of_armBar {s : State} {low : Nat} (h : s.armBar low = 0) : s.targetOk low = true := by
  unfold State.armBar at h
  split_ifs at h with _ _ _ _ htarget
  · simpa using htarget

theorem State.targetOk_of_revertBar {s : State} {low : Nat} (h : s.revertBar low = 0) : s.targetOk low = true := by
  unfold State.revertBar at h
  split_ifs at h with _ _ htarget
  · simpa using htarget

/-- A change armed for a target, as ARM and REVERT leave it. -/
def State.armed (s : State) (revert : Bool) (low : Nat) : State :=
  ({ s with chg := { s.chg with st := .armed, target := s.changeTarget low, revert := revert } }).event Base.sv 0x110 low

theorem State.accepted_armed (s : State) {off : Nat} (d : Word) (revert : Bool) (low : Nat) (hok : s.targetOk low = true)
    (hlow : low < 2 ^ 24) :
    let t := (s.accepted off d).armed revert low
    s.Steady t ∧ t.chg.st = .armed ∧ t.chg.revert = revert ∧ t.chg.target % 2 ^ 24 = low ∧ s.cyc.num + 2 ≤ t.chg.target
      ∧ t.chg.target ≤ s.cyc.num + 10000 := by
  rw [s.accepted_rest]
  exact ⟨⟨rfl, rfl, rfl⟩, rfl, rfl, s.changeTarget_mod hlow, State.changeTarget_of_ok hok⟩

/-! ### The operations (R497, R500, R504, R507) -/

section Change

variable {s : State} {p : Port} {d : Word} (ha : s.AgreesWb p Reg.SV_CHANGE)

include ha

theorem State.writeChange_goes {n : Nat} (hb : s.changeBar (setField d 0 4 n) = 0) :
    s.writeChange p (setField d 0 4 n) = (s.keepJournal Reg.SV_CHANGE (setField d 0 4 n)).changeGo (setField d 0 4 n) :=
  State.agreedWrite_goes ha hb

theorem changeOpen_loads (hb : s.changeBar (setField d 0 4 1) = 0) :
    ∃ t, exec (.changeOpen p d) s = .next t ∧ s.Steady t ∧ t.chg = { st := .loading } := by
  refine ⟨_, congrArg Host.Outcome.next (State.writeChange_goes ha hb), ?_⟩
  rw [State.changeGo, chOp_setField d (by decide), s.keepJournal_rest]
  exact ⟨⟨rfl, rfl, rfl⟩, rfl⟩

theorem changeClose_verifies (hst : s.chg.st = .loading) : ∃ t, exec (.changeClose p d) s = .next t ∧ s.Steady t
    ∧ t.chg.st = .verifying ∧ t.chg.sendDue = s.hasStandby := by
  have hb : s.changeBar (setField d 0 4 2) = 0 := by
    rw [State.changeBar, chOp_setField d (by decide)]
    exact if_neg (not_not.2 hst)
  refine ⟨_, congrArg Host.Outcome.next (State.writeChange_goes ha hb), ?_⟩
  rw [State.changeGo, chOp_setField d (by decide), s.keepJournal_rest]
  exact ⟨⟨rfl, rfl, rfl⟩, rfl, rfl⟩

theorem arm_arms (hb : s.armBar (fieldOf d 8 24) = 0) : ∃ t, exec (.arm p d) s = .next t ∧ s.Steady t ∧ t.chg.st = .armed
    ∧ t.chg.revert = false ∧ t.chg.target % 2 ^ 24 = fieldOf d 8 24 ∧ s.cyc.num + 2 ≤ t.chg.target
    ∧ t.chg.target ≤ s.cyc.num + 10000 := by
  have hbar : s.changeBar (setField d 0 4 3) = 0 := by
    rw [State.changeBar, chOp_setField d (by decide)]
    exact (congrArg s.armBar (changeLow_setField d 3)).trans hb
  have hgo : s.writeChange p (setField d 0 4 3) = (s.accepted Reg.SV_CHANGE (setField d 0 4 3)).armed false (fieldOf d 8 24) := by
    rw [State.writeChange_goes ha hbar, State.changeGo, chOp_setField d (by decide), changeLow_setField]
    rfl
  exact ⟨_, congrArg Host.Outcome.next hgo, s.accepted_armed _ _ _ (State.targetOk_of_armBar hb) (fieldOf_lt d 8 24)⟩

theorem revert_arms (hb : s.revertBar (fieldOf d 8 24) = 0) : ∃ t, exec (.revert p d) s = .next t ∧ s.Steady t ∧ t.chg.st = .armed
    ∧ t.chg.revert = true ∧ t.chg.target % 2 ^ 24 = fieldOf d 8 24 ∧ s.cyc.num + 2 ≤ t.chg.target
    ∧ t.chg.target ≤ s.cyc.num + 10000 := by
  have hbar : s.changeBar (setField d 0 4 4) = 0 := by
    rw [State.changeBar, chOp_setField d (by decide)]
    exact (congrArg s.revertBar (changeLow_setField d 4)).trans hb
  have hgo : s.writeChange p (setField d 0 4 4) = (s.accepted Reg.SV_CHANGE (setField d 0 4 4)).armed true (fieldOf d 8 24) := by
    rw [State.writeChange_goes ha hbar, State.changeGo, chOp_setField d (by decide), changeLow_setField]
    rfl
  exact ⟨_, congrArg Host.Outcome.next hgo, s.accepted_armed _ _ _ (State.targetOk_of_revertBar hb) (fieldOf_lt d 8 24)⟩

end Change

theorem State.endChange_rest (s : State) : ∃ lanes, s.endChange = { s with lane := lanes, chg := {} } := by
  unfold State.endChange State.updAll State.updIn
  rw [State.event_frame]
  exact ⟨_, rfl⟩

theorem State.dropChange_rest (s : State) : s.dropChange = { s with lane := s.dropChange.lane, chg := {} } := rfl

/-- The end of a change: state NONE, the KEPT slot empty (R504). -/
theorem State.endChange_ends (s : State) : s.Steady s.endChange ∧ s.endChange.chg = {}
    ∧ ∀ l : Lane, (s.endChange.lane.get l).flash = { (s.lane.get l).flash with kept := none, keptTill := 0 } := by
  obtain ⟨lanes, hrest⟩ := s.endChange_rest
  refine ⟨hrest ▸ ⟨rfl, rfl, rfl⟩, by rw [hrest], fun l => ?_⟩
  unfold State.endChange
  rw [State.event_flash]
  dsimp only
  rw [State.updAll_lane]

theorem State.dropChange_drops (s : State) : s.Steady s.dropChange ∧ s.dropChange.chg = {}
    ∧ ∀ l : Lane, (s.dropChange.lane.get l).flash = { (s.lane.get l).flash with staged := none } := by
  refine ⟨s.dropChange_rest ▸ ⟨rfl, rfl, rfl⟩, by rw [s.dropChange_rest], fun l => ?_⟩
  unfold State.dropChange
  rw [State.updAll_lane]

/-- ACTIVATE starts the module with the staged file (R507). -/
theorem State.activateFile_boots (s : State) : s.activateFile.mstate = .boot ∧ s.activateFile.gate = false
    ∧ s.activateFile.vdrv = false ∧ s.activateFile.pending = s.pending
    ∧ ∀ l : Lane, (s.activateFile.lane.get l).flash.active = (s.lane.get l).flash.staged.getD (s.lane.get l).flash.active
      ∧ (s.activateFile.lane.get l).flash.staged = none := by
  refine ⟨rfl, rfl, rfl, rfl, fun l => ?_⟩
  unfold State.activateFile
  rw [State.moduleReset, LaneVec.get_map, State.updAll_lane, (LaneSt.moduleReset_keeps _).1]
  exact ⟨rfl, rfl⟩

section Keep

variable {s : State} {p : Port} (d : Word) (ha : s.AgreesWb p Reg.SV_CHANGE)

include ha

theorem commit_keeps (hst : s.chg.st = .swapped) : ∃ t, exec (.commit p d) s = .next t ∧ s.Steady t ∧ t.chg = {}
    ∧ ∀ l : Lane, (t.lane.get l).flash = { (s.lane.get l).flash with kept := none, keptTill := 0 } := by
  have hb : s.changeBar (setField d 0 4 5) = 0 := by
    rw [State.changeBar, chOp_setField d (by decide)]
    exact if_neg (not_not.2 hst)
  have hgo : s.writeChange p (setField d 0 4 5) = (s.accepted Reg.SV_CHANGE (setField d 0 4 5)).endChange := by
    rw [State.writeChange_goes ha hb, State.changeGo, chOp_setField d (by decide)]
    rfl
  obtain ⟨hsteady, hchg, hflash⟩ := (s.accepted Reg.SV_CHANGE (setField d 0 4 5)).endChange_ends
  refine ⟨_, congrArg Host.Outcome.next hgo, ?_, hchg, fun l => by rw [hflash, s.accepted_flash]⟩
  rwa [s.accepted_rest] at hsteady ⊢

theorem abandon_drops (hst : s.chg.st = .failed ∨ s.chg.st = .verified) : ∃ t, exec (.abandon p d) s = .next t ∧ s.Steady t
    ∧ t.chg = {} ∧ ∀ l : Lane, (t.lane.get l).flash = { (s.lane.get l).flash with staged := none } := by
  have hb : s.changeBar (setField d 0 4 6) = 0 := by
    rw [State.changeBar, chOp_setField d (by decide)]
    exact if_pos (hst.imp_right .inl)
  have hgo : s.writeChange p (setField d 0 4 6) = (s.accepted Reg.SV_CHANGE (setField d 0 4 6)).dropChange := by
    rw [State.writeChange_goes ha hb, State.changeGo, chOp_setField d (by decide)]
    rfl
  obtain ⟨hsteady, hchg, hflash⟩ := (s.accepted Reg.SV_CHANGE (setField d 0 4 6)).dropChange_drops
  refine ⟨_, congrArg Host.Outcome.next hgo, ?_, hchg, fun l => by rw [hflash, s.accepted_flash]⟩
  rwa [s.accepted_rest] at hsteady ⊢

theorem activate_boots (hst : s.chg.st = .staged) (hfile : s.takesFile = true) : ∃ t, exec (.activate p d) s = .next t
    ∧ t.mstate = .boot ∧ t.gate = false ∧ t.vdrv = false ∧ t.pending = s.pending
    ∧ ∀ l : Lane, (t.lane.get l).flash.active = (s.lane.get l).flash.staged.getD (s.lane.get l).flash.active
      ∧ (t.lane.get l).flash.staged = none := by
  have hb : s.changeBar (setField d 0 4 7) = 0 := by
    rw [State.changeBar, chOp_setField d (by decide), hfile]
    exact (if_neg (not_not.2 hst)).trans (if_neg Bool.false_ne_true)
  have hgo : s.writeChange p (setField d 0 4 7) = (s.accepted Reg.SV_CHANGE (setField d 0 4 7)).activateFile := by
    rw [State.writeChange_goes ha hb, State.changeGo, chOp_setField d (by decide)]
    rfl
  obtain ⟨hstate, hgate, hdrive, hpending, hflash⟩ := (s.accepted Reg.SV_CHANGE (setField d 0 4 7)).activateFile_boots
  refine ⟨_, congrArg Host.Outcome.next hgo, hstate, hgate, hdrive, ?_, fun l => s.accepted_flash _ _ l ▸ hflash l⟩
  rw [hpending, s.accepted_rest]

end Keep

/-! ### The lanes' results compared (R498) -/

/-- The reason that a lane's verification gives; 0 of a lane that is not ACTIVE. -/
def State.changeResult (s : State) (o : LaneSet) (l : Lane) : Nat :=
  if s.isActive l then s.verifyLane (s.lane.get l) (o.get l) else 0

/-- The reason of the lowest-lettered lane that gives one. -/
def State.changeReason (s : State) (o : LaneSet) : Nat :=
  if s.changeResult o .A ≠ 0 then s.changeResult o .A
  else if s.changeResult o .B ≠ 0 then s.changeResult o .B else s.changeResult o .C

theorem State.changeResult_eq_zero {s : State} {o : LaneSet} {l : Lane} :
    s.changeResult o l = 0 ↔ (s.isActive l = true → s.verifyLane (s.lane.get l) (o.get l) = 0) := by
  unfold State.changeResult
  split
  · next h => simp [h]
  · next h => simp [h]

theorem State.changeReason_eq_zero {s : State} {o : LaneSet} :
    s.changeReason o = 0 ↔ ∀ l : Lane, s.isActive l = true → s.verifyLane (s.lane.get l) (o.get l) = 0 := by
  simp only [← State.changeResult_eq_zero]
  unfold State.changeReason
  constructor
  · intro h l
    split_ifs at h with hA hB
    · exact absurd h hA
    · exact absurd h hB
    · cases l
      · exact not_not.1 hA
      · exact not_not.1 hB
      · exact h
  · intro h
    rw [if_neg (not_not.2 (h .A)), if_neg (not_not.2 (h .B)), h .C]

theorem State.verifyChange_failed {s : State} {o : LaneSet} (h : s.changeReason o ≠ 0) :
    s.verifyChange o = ({ s with chg := { s.chg with st := .failed, reason := s.changeReason o } }).event Base.sv 0x114 (s.changeReason o) :=
  if_pos h

/-- A lane takes the verified file into its STAGED slot, and the programs that a delta leaves unchanged (R498). -/
def LaneSt.stageFile (L : LaneSt) (full : Bool) : LaneSt :=
  let new := Config.rebuild L.package L.flash.active
  let M := { L with flash := { L.flash with staged := some new } }
  if full then M else M.copyUnchanged new

theorem LaneSt.stageFile_staged (L : LaneSt) (full : Bool) :
    (L.stageFile full).flash.staged = some (Config.rebuild L.package L.flash.active) := by
  unfold LaneSt.stageFile
  dsimp only
  split
  · rfl
  · rw [LaneSt.copyUnchanged_flash]

theorem State.verifyChange_good {s : State} {o : LaneSet} (h : s.changeReason o = 0) : ∃ full window,
    s.verifyChange o = ({ s.updAll fun _ L => L.stageFile full with
      chg := { s.chg with st := if full then .staged else .verified, reason := 0, window := window } }).event Base.sv 0x10F 0 :=
  let pkg := (s.lane.get s.leadLane).package
  let w := ofLe (slice pkg 0x48 4)
  ⟨ofLe (slice pkg 8 32) == 0, if w = 0 then 900 else w, if_neg (not_not.2 h)⟩

theorem deltaVerify_fails {s : State} {o : LaneSet} (hst : s.chg.st = .verifying)
    (h : ∃ l : Lane, s.isActive l = true ∧ s.verifyLane (s.lane.get l) (o.get l) ≠ 0) :
    ∃ t, exec (.deltaVerify o) s = .next t ∧ s.Steady t ∧ t.chg.st = .failed ∧ t.chg.reason ≠ 0 := by
  obtain ⟨l, hl, hr⟩ := h
  have hv : s.changeReason o ≠ 0 := fun h0 => hr (State.changeReason_eq_zero.1 h0 l hl)
  exact ⟨_, (if_pos hst).trans (congrArg Host.Outcome.next (State.verifyChange_failed hv)), ⟨rfl, rfl, rfl⟩, rfl, hv⟩

theorem deltaVerify_succeeds {s : State} {o : LaneSet} (hst : s.chg.st = .verifying)
    (h : ∀ l : Lane, s.isActive l = true → s.verifyLane (s.lane.get l) (o.get l) = 0) :
    ∃ t, exec (.deltaVerify o) s = .next t ∧ s.Steady t ∧ (t.chg.st = .staged ∨ t.chg.st = .verified) ∧ t.chg.reason = 0
      ∧ ∀ l : Lane, (t.lane.get l).flash.staged = some (Config.rebuild (s.lane.get l).package (s.lane.get l).flash.active) := by
  obtain ⟨full, window, hgood⟩ := State.verifyChange_good (State.changeReason_eq_zero.2 h)
  refine ⟨_, (if_pos hst).trans (congrArg Host.Outcome.next hgood), ⟨rfl, rfl, rfl⟩, ?_, rfl, fun l => ?_⟩
  · cases full
    · exact .inr rfl
    · exact .inl rfl
  · rw [State.event_flash]
    dsimp only
    rw [State.updAll_lane, LaneSt.stageFile_staged]

/-! ### The end of the REVERT window (R504) -/

theorem revertWindowEnd_ends {s : State} (hst : s.chg.st = .swapped ∨ (s.chg.st = .armed ∧ s.chg.revert = true))
    (hend : s.chg.endAt ≤ (s.lane.get s.leadLane).clock) : exec .revertWindowEnd s = .next s.endChange := by
  have hreverts : s.chg.reverts = true := by
    rw [ChgSt.reverts]
    obtain h | ⟨h, hr⟩ := hst
    · rw [h]
      rfl
    · rw [h, hr]
      rfl
  exact if_pos ⟨hreverts, hend⟩

theorem revertWindowEnd_waits {s : State} (h : s.chg.st = .verified ∨ (s.lane.get s.leadLane).clock < s.chg.endAt) :
    exec .revertWindowEnd s = .next s := by
  refine if_neg fun hc => ?_
  obtain ⟨hreverts, hend⟩ := hc
  obtain h | h := h
  · rw [ChgSt.reverts, h] at hreverts
    exact Bool.false_ne_true hreverts
  · omega

end Sys2Proof.Machine
end

section
/-! The staging area and the shadow windows through which an on-line change is loaded (R188, R189, R497), and the statement about it. -/

namespace Sys2Proof.Machine

/-! ### Words that the lanes take (R67, R75) -/

/-- A broadcast write that every lane takes. -/
theorem State.laneWrite_broadcast {s : State} {p : Port} {off : Nat} (hk : s.TakesWrite p (Blk.ofOff off)) {check : LaneSt → Nat}
    (f : LaneSt → LaneSt) (hc : ∀ l : Lane, check (s.lane.get l) = 0) :
    (s.laneWrite p .broadcast off check fun l s => s.upd l f).1 = s.updAll fun _ => f := by
  rw [State.laneWrite_of_takes hk, State.laneTake_state p .broadcast off check (fun _ => f) fun _ _ _ => rfl]
  exact State.updIn_congr fun l _ => if_pos ((LaneSt.writeBar_of_takes hk l check).trans (hc l))

/-- A write through a lane's own aperture that the lane refuses. -/
theorem State.laneWrite_own_refused {s : State} {p : Port} {off : Nat} (hk : s.TakesWrite p (Blk.ofOff off)) {check : LaneSt → Nat}
    (f : LaneSt → LaneSt) {l : Lane} {r : Nat} (hc : check (s.lane.get l) = r) (hr : r ≠ 0) :
    (s.laneWrite p (.lane l) off check fun l s => s.upd l f).1
      = s.upd l fun L => L.refuse l p (l.code * 0x10000000 + off) r s.cyc.num := by
  have hbar : (s.lane.get l).writeBar off check = r := (LaneSt.writeBar_of_takes hk l check).trans hc
  rw [State.laneWrite_of_takes hk, State.laneTake_state p (.lane l) off check (fun _ => f) fun _ _ _ => rfl, wLanes,
    State.updIn_oneLane]
  refine State.upd_congr s l ?_
  rw [hbar, if_neg hr]
  rfl

/-! ### The staging area (R497) -/

theorem LaneSt.stageWord_staging (L : LaneSt) (d : Word) :
    (L.stageWord d).staging = memPuts L.staging (L.fld Reg.SV_DLT_ADDR 0 26) (toLe 4 d.toNat) := rfl

/-- The address goes on to the next word, and wraps in the staging area. -/
theorem LaneSt.stageWord_addr {L : LaneSt} (d : Word) (hw : L.wf = true) :
    ((L.stageWord d).reg Reg.SV_DLT_ADDR).toNat = (L.fld Reg.SV_DLT_ADDR 0 26 + 4) % 2 ^ 26 := by
  have haddr : (L.stageWord d).reg Reg.SV_DLT_ADDR = BitVec.ofNat 32 ((L.fld Reg.SV_DLT_ADDR 0 26 + 4) % 2 ^ 26) :=
    (LaneSt.reg_setReg_of_ne _ _ (by decide)).trans (LaneSt.reg_setReg_self { L with staging := _ } _ _ (Bool.and_eq_true_iff.1 hw).1)
  rw [haddr, BitVec.toNat_ofNat]
  omega

theorem State.stageBar_loading {s : State} (hst : s.chg.st = .loading) (h2 : s.twoOfTwo = false) : s.stageBar .broadcast = 0 := by
  rw [State.stageBar, h2, if_neg Bool.false_ne_true, if_pos hst]

theorem svDltData_stages {s : State} {p : Port} (d : Word) (hk : s.TakesWrite p (Blk.ofOff Reg.SV_DLT_DATA)) (hst : s.chg.st = .loading)
    (h2 : s.twoOfTwo = false) : exec (.svDltData .broadcast p d) s = .next (s.updAll fun _ L => L.stageWord d) :=
  congrArg Host.Outcome.next (State.laneWrite_broadcast hk (fun L => L.stageWord d) fun _ => State.stageBar_loading hst h2)

theorem svDltData_own_refused {s : State} {p : Port} (d : Word) (hk : s.TakesWrite p (Blk.ofOff Reg.SV_DLT_DATA)) (l : Lane) :
    exec (.svDltData (.lane l) p d) s
      = .next (s.upd l fun L => L.refuse l p (l.code * 0x10000000 + Reg.SV_DLT_DATA) Reason.notBroadcast s.cyc.num) :=
  congrArg Host.Outcome.next (State.laneWrite_own_refused hk (fun L => L.stageWord d) rfl (by decide))

/-! ### The registers of a window (R192, R193) -/

theorem shadowRegs_reset (b : BitVec 4) : Sys2Proof.Machine.resetOf (Reg.LF_SHD_CTRL b.toNat) = 0
    ∧ Sys2Proof.Machine.resetOf (Reg.LF_SHD_STAT b.toNat) = 0 ∧ Sys2Proof.Machine.resetOf (Reg.LF_SHD_ADDR b.toNat) = 0 := by
  revert b
  decide

/-- The registers of one window lie apart. -/
theorem shadowReg_ne {i j : Nat} (h : i ≠ j) (b : Nat) : i + 0x1000 * b ≠ j + 0x1000 * b := fun e => h (Nat.add_right_cancel e)

theorem keepWb_shdCtrl (b : BitVec 4) (old d : Word) : keepWb (Reg.LF_SHD_CTRL b.toNat) old d = maskWrite old d 0x1FFF0 := by
  have hpage : pageOf (Reg.LF_SHD_CTRL b.toNat) = some (.lf, b.toNat) := by
    revert b
    decide
  have hreg : Reg.LF_SHD_CTRL b.toNat % 0x1000 = 0x4C := by
    unfold Reg.LF_SHD_CTRL
    omega
  simp [keepWb, wbKept, hpage, hreg]

/-- `OPEN` is no bit that an accepted value sets: it follows the window. -/
theorem testBit_keepWb_shdCtrl (b : BitVec 4) (old d : Word) :
    (keepWb (Reg.LF_SHD_CTRL b.toNat) old d).toNat.testBit 0 = old.toNat.testBit 0 := by
  rw [keepWb_shdCtrl, maskWrite, BitVec.testBit_toNat, BitVec.testBit_toNat]
  simp

/-- The registers of a lane that takes part hold an accepted value. -/
theorem State.accepted_regs {s : State} (off : Nat) (d : Word) {l : Lane} (hl : s.parts.get l = true) :
    ((s.accepted off d).lane.get l).regs = ((s.lane.get l).setReg off (keepWb off ((s.lane.get l).reg off) d)).regs := by
  have hparts : (s.keepJournal off d).parts = s.parts := by
    rw [s.keepJournal_rest]
    rfl
  unfold State.accepted State.storeWb
  rw [State.updIn_lane, hparts, if_pos hl, (s.keepJournal_lane off d l).rest]
  rfl

/-- An accepted value and what it does to the lanes leave the drive, the lanes' states and the queue. -/
theorem State.accepted_updIn_steady (s : State) (off : Nat) (d : Word) (ls : LaneSet) (f : Lane → LaneSt → LaneSt) :
    s.Steady ((s.accepted off d).updIn ls f) := by
  rw [s.accepted_rest]
  exact ⟨rfl, rfl, rfl⟩

/-- An accepted value of `LF_SHD_CTRL` leaves the window as it is, in registers of canonical form. -/
theorem State.accepted_window {s : State} (b : BitVec 4) (d : Word) {l : Lane} (hl : s.parts.get l = true) (hw : (s.lane.get l).wf = true) :
    ((s.accepted (Reg.LF_SHD_CTRL b.toNat) d).lane.get l).bit (Reg.LF_SHD_CTRL b.toNat) 0 = (s.lane.get l).bit (Reg.LF_SHD_CTRL b.toNat) 0
    ∧ SMap.wf Sys2Proof.Machine.resetOf ((s.accepted (Reg.LF_SHD_CTRL b.toNat) d).lane.get l).regs = true := by
  have hregs : SMap.wf Sys2Proof.Machine.resetOf (s.lane.get l).regs = true := (Bool.and_eq_true_iff.1 hw).1
  have hreg := (congrArg (SMap.get Sys2Proof.Machine.resetOf · (Reg.LF_SHD_CTRL b.toNat)) (State.accepted_regs _ d hl)).trans
    (LaneSt.reg_setReg_self _ _ _ hregs)
  refine ⟨(congrArg (·.toNat.testBit 0) hreg).trans (testBit_keepWb_shdCtrl ..), ?_⟩
  rw [State.accepted_regs _ d hl]
  exact SMap.put_wf _ _ _ _ hregs

/-! ### Windows that open and close (R188) -/

/-- A unit that computes is no default of the map of units (R515). -/
theorem LaneSt.cvBegin_runs (L : LaneSt) (u : Nat) : ((L.cvBegin u).cvUnit u).fg.st = 1 := by
  unfold LaneSt.cvBegin LaneSt.setCvUnit LaneSt.cvUnit
  refine congrArg (·.fg.st) (SMap.get_put_of_ne_default _ _ u (fun h => ?_) L.cv)
  exact absurd (congrArg (·.fg.st) h) (by decide : (1 : BitVec 2) ≠ 0)

theorem LaneSt.openShadow_opens (L : LaneSt) (b : BitVec 4) (d : Word) :
    (L.openShadow b.toNat d).bit (Reg.LF_SHD_CTRL b.toNat) 0 = true
    ∧ (L.openShadow b.toNat d).fld (Reg.LF_SHD_STAT b.toNat) 0 2 = 1
    ∧ ((L.openShadow b.toNat d).cvUnit b.toNat).fg.st = 1 := by
  obtain ⟨hctrl, hstat, -⟩ := shadowRegs_reset b
  have hodd : (d.toNat % 2 ^ 17 - d.toNat % 16 + 1) % 2 ^ 32 % 2 = 1 := by omega
  have hopen : (BitVec.ofNat 32 (d.toNat % 2 ^ 17 - d.toNat % 16 + 1)).toNat.testBit 0 = true := by
    rw [BitVec.toNat_ofNat, Nat.testBit_zero, hodd]
    rfl
  refine ⟨?ctrl, ?stat, LaneSt.cvBegin_runs ..⟩
  case ctrl =>
    refine (congrArg (fun v : Word => v.toNat.testBit 0) ?_).trans hopen
    refine (LaneSt.reg_setReg_of_ne _ _ (shadowReg_ne (by decide) _)).trans
      ((LaneSt.reg_setReg_of_ne _ _ (shadowReg_ne (by decide) _)).trans ?_)
    refine LaneSt.reg_setReg_of_ne_default _ _ _ fun h => ?_
    rw [h, hctrl] at hopen
    exact absurd hopen (by decide)
  case stat =>
    refine (congrArg (fieldOf · 0 2) ?_).trans (by decide : fieldOf 1 0 2 = 1)
    refine (LaneSt.reg_setReg_of_ne _ _ (shadowReg_ne (by decide) _)).trans (LaneSt.reg_setReg_of_ne_default _ _ _ ?_)
    rw [hstat]
    decide

theorem LaneSt.closeShadow_closes {L : LaneSt} (b : Nat) (hw : SMap.wf Sys2Proof.Machine.resetOf L.regs = true) :
    (L.closeShadow b).bit (Reg.LF_SHD_CTRL b) 0 = false
    ∧ (L.bit (Reg.LF_SHD_CTRL b) 0 = true → (L.closeShadow b).fld (Reg.LF_SHD_STAT b) 0 2 = 2) := by
  unfold LaneSt.closeShadow
  split
  · refine ⟨?_, fun _ => ?_⟩
    · refine (LaneSt.bit_clearBits _ _ 0 0 (by decide) (SMap.put_wf _ _ _ _ hw)).trans ?_
      simp
    · refine (congrArg (fieldOf · 0 2) (LaneSt.reg_setReg_of_ne _ _ (shadowReg_ne (by decide) _))).trans ?_
      exact LaneSt.fld_setFld_self L _ 0 2 2 hw (by decide)
  · next h => exact ⟨Bool.eq_false_iff.2 h, fun hb => absurd hb h⟩

/-- The bits of an operation of `LF_SHD_CTRL`. -/
theorem testBit_shdOp (d : Word) {n i : Nat} (h : n < 4) (hi : i < 2) : (setField d 0 2 n).toNat.testBit i = n.testBit i := by
  have hfield : (setField d 0 2 n).toNat / 2 ^ 0 % 2 ^ 2 = n := (fieldOf_setField d 0 2 n (by decide)).trans (Nat.mod_eq_of_lt h)
  conv_rhs => rw [← hfield]
  rw [Nat.testBit_mod_two_pow, decide_eq_true hi, Bool.true_and, pow_zero, Nat.div_one]

section Window

variable {s : State} {p : Port} (b : BitVec 4) (d : Word) (ha : s.AgreesWb p (Reg.LF_SHD_CTRL b.toNat))

include ha

theorem State.writeShd_goes (hb : s.shdBar b.toNat d = 0) :
    s.writeShd b.toNat p d = (s.keepJournal (Reg.LF_SHD_CTRL b.toNat) d).shdGo b.toNat d := State.agreedWrite_goes ha hb

theorem lfShdOpen_opens (hb : s.shdBar b.toNat (setField d 0 2 1) = 0) : ∃ t, exec (.lfShdOpen b p d) s = .next t ∧ s.Steady t
    ∧ ∀ l : Lane, s.parts.get l = true → (t.lane.get l).bit (Reg.LF_SHD_CTRL b.toNat) 0 = true
      ∧ (t.lane.get l).fld (Reg.LF_SHD_STAT b.toNat) 0 2 = 1 ∧ ((t.lane.get l).cvUnit b.toNat).fg.st = 1 := by
  have hclose : (setField d 0 2 1).toNat.testBit 1 = false := testBit_shdOp d (by decide) (by decide)
  have hopen : (setField d 0 2 1).toNat.testBit 0 = true := testBit_shdOp d (by decide) (by decide)
  have hgo : s.writeShd b.toNat p (setField d 0 2 1) = (s.accepted (Reg.LF_SHD_CTRL b.toNat) (setField d 0 2 1)).updIn s.parts fun _ L =>
      L.openShadow b.toNat (setField d 0 2 1) := by
    rw [State.writeShd_goes b _ ha hb, State.shdGo, hclose, hopen, ← s.parts_accepted (Reg.LF_SHD_CTRL b.toNat) (setField d 0 2 1)]
    rfl
  refine ⟨_, congrArg Host.Outcome.next hgo, s.accepted_updIn_steady .., fun l hl => ?_⟩
  rw [State.updIn_lane, if_pos hl]
  exact LaneSt.openShadow_opens ..

theorem lfShdClose_closes : ∃ t, exec (.lfShdClose b p d) s = .next t ∧ s.Steady t
    ∧ ∀ l : Lane, s.parts.get l = true → (s.lane.get l).wf = true → (t.lane.get l).bit (Reg.LF_SHD_CTRL b.toNat) 0 = false
      ∧ ((s.lane.get l).bit (Reg.LF_SHD_CTRL b.toNat) 0 = true → (t.lane.get l).fld (Reg.LF_SHD_STAT b.toNat) 0 2 = 2) := by
  have hclose : (setField d 0 2 2).toNat.testBit 1 = true := testBit_shdOp d (by decide) (by decide)
  have hb : s.shdBar b.toNat (setField d 0 2 2) = 0 := if_pos (.inl hclose)
  have hgo : s.writeShd b.toNat p (setField d 0 2 2) = (s.accepted (Reg.LF_SHD_CTRL b.toNat) (setField d 0 2 2)).updIn s.parts fun _ L =>
      L.closeShadow b.toNat := by
    rw [State.writeShd_goes b _ ha hb, State.shdGo, hclose, ← s.parts_accepted (Reg.LF_SHD_CTRL b.toNat) (setField d 0 2 2)]
    rfl
  refine ⟨_, congrArg Host.Outcome.next hgo, s.accepted_updIn_steady .., fun l hl hw => ?_⟩
  obtain ⟨hbit, hregs⟩ := State.accepted_window b (setField d 0 2 2) hl hw
  rw [State.updIn_lane, if_pos hl, ← hbit]
  exact LaneSt.closeShadow_closes _ hregs

end Window

/-! ### Words loaded through a window (R189) -/

theorem LaneSt.shadowWord_stores {L : LaneSt} (b : BitVec 4) (d : Word) (ha : (L.reg (Reg.LF_SHD_ADDR b.toNat)).toNat < 2 ^ 18) :
    (L.shadowWord b.toNat d).logic.banks
      = putD 0 L.logic.banks (L.shadow * 2 ^ 22 + b.toNat * 2 ^ 18 + (L.reg (Reg.LF_SHD_ADDR b.toNat)).toNat) d
    ∧ (L.shadowWord b.toNat d).reg (Reg.LF_SHD_ADDR b.toNat) = L.reg (Reg.LF_SHD_ADDR b.toNat) + 1 := by
  obtain ⟨-, -, hreset⟩ := shadowRegs_reset b
  have hnext : BitVec.ofNat 32 ((L.reg (Reg.LF_SHD_ADDR b.toNat)).toNat + 1) = L.reg (Reg.LF_SHD_ADDR b.toNat) + 1 := by
    apply BitVec.eq_of_toNat_eq
    rw [BitVec.toNat_ofNat, BitVec.toNat_add]
    rfl
  constructor
  · rw [← Nat.mod_eq_of_lt ha]
    rfl
  · rw [← hnext]
    refine (LaneSt.reg_setReg_of_ne _ _ (shadowReg_ne (by decide) _)).trans
      ((LaneSt.reg_setReg_of_ne _ _ (shadowReg_ne (by decide) _)).trans (LaneSt.reg_setReg_of_ne_default _ _ _ fun h => ?_))
    have h0 := congrArg BitVec.toNat (h.trans hreset)
    rw [BitVec.toNat_ofNat] at h0
    change _ = 0 at h0
    omega

theorem lfShdData_stores {s : State} {p : Port} (b : BitVec 4) (d : Word) (hk : s.TakesWrite p (Blk.ofOff (Reg.LF_SHD_DATA b.toNat)))
    (hopen : ∀ l : Lane, (s.lane.get l).bit (Reg.LF_SHD_CTRL b.toNat) 0 = true
      ∧ ((s.lane.get l).reg (Reg.LF_SHD_ADDR b.toNat)).toNat < 2 ^ 18) :
    exec (.lfShdData .broadcast b p d) s = .next (s.updAll fun _ L => L.shadowWord b.toNat d) := by
  refine congrArg Host.Outcome.next (State.laneWrite_broadcast hk (fun L => L.shadowWord b.toNat d) fun l => ?_)
  obtain ⟨hctrl, haddr⟩ := hopen l
  rw [LaneSt.windowBar, hctrl, decide_eq_false (Nat.not_le.2 haddr)]
  rfl

/-- Settles O58: each operation changes the accepted state in its own way, each lane takes a loaded word alone, and the lanes' results
are compared once. -/
theorem onLineChange : Obligations.OnLineChange := by
  intro s p d
  refine ⟨fun ha => ?change, fun o => ?verify, fun hst hend => ?windowEnd, revertWindowEnd_waits, fun hk => ?stage,
    fun b => ⟨fun ha => ⟨lfShdOpen_opens b d ha, lfShdClose_closes b d ha⟩, fun hk hopen => ?load⟩⟩
  case change =>
    refine ⟨changeOpen_loads ha, changeClose_verifies ha, arm_arms ha, revert_arms ha, commit_keeps d ha,
      abandon_drops d ha, activate_boots d ha, fun r hb h0 hr => ?_⟩
    exact congrArg Host.Outcome.next (State.agreedWrite_refuses ha hb h0 hr)
  case verify => exact ⟨fun hst => if_neg hst, deltaVerify_fails, deltaVerify_succeeds⟩
  case windowEnd =>
    obtain ⟨hsteady, hchg, hflash⟩ := s.endChange_ends
    exact ⟨_, revertWindowEnd_ends hst hend, hsteady, hchg, fun l => by rw [hflash]⟩
  case stage =>
    refine ⟨fun hst h2 => ⟨_, svDltData_stages d hk hst h2, ⟨rfl, rfl, rfl⟩, fun l => ?_⟩, svDltData_own_refused d hk⟩
    rw [State.updAll_lane]
    exact ⟨LaneSt.stageWord_staging _ d, LaneSt.stageWord_addr d⟩
  case load =>
    refine ⟨_, lfShdData_stores b d hk hopen, ⟨rfl, rfl, rfl⟩, fun l => ?_⟩
    obtain ⟨-, haddr⟩ := hopen l
    rw [State.updAll_lane]
    exact LaneSt.shadowWord_stores b d haddr

end Sys2Proof.Machine
end

section
/-! Time and the start of service (R222, R223, R227, R475): ten nanoseconds that pass, and SYNC of an unpaired module. -/

namespace Sys2Proof.Machine

/-! ### Ten nanoseconds (R222, R223) -/

/-- The steps of 10 ns that a Station Clock makes while 10 ns pass. -/
def OscSt.steps (o : OscSt) : Nat := ((o.frac : Int) + 10 * (100000000 + o.rate - o.slew)).toNat / 1000000000

theorem LaneSt.runClock_clock (L : LaneSt) : (L.runClock 10).clock = (L.clock + 10 * L.osc.steps) % 2 ^ 64 := by
  have hns : (L.osc.frac : Int) + ((10 : Nat) : Int) * (100000000 + L.osc.rate) - ((10 : Nat) : Int) * L.osc.slew
      = L.osc.frac + 10 * (100000000 + L.osc.rate - L.osc.slew) := by push_cast; ring
  simp only [LaneSt.runClock, OscSt.steps, hns, Nat.mul_comm]

/-- Without correction or slew a clock makes one step. -/
theorem OscSt.steps_plain {o : OscSt} (hr : o.rate = 0) (hs : o.slew = 0) (hf : o.frac < 1000000000) : o.steps = 1 := by
  unfold OscSt.steps
  rw [hr, hs]
  omega

/-- Outside the lanes, time that passes leaves the module state and the queue. -/
theorem tick_frame (s : State) : (tick s).now = s.now + 10 ∧ (tick s).mstate = s.mstate ∧ (tick s).pending = s.pending := by
  unfold tick
  extract_lets u
  have hu : u.now = s.now + 10 ∧ u.mstate = s.mstate ∧ u.pending = s.pending := ⟨rfl, rfl, rfl⟩
  split
  · exact hu
  · exact hu

/-- Each lane's clock runs while the lanes are supplied. -/
theorem tick_lane (s : State) (l : Lane) :
    (tick s).lane.get l = if s.mstate = .off then s.lane.get l else (s.lane.get l).runClock 10 := by
  unfold tick
  extract_lets u
  have hl : u.lane = s.lane := rfl
  have hm : u.mstate = s.mstate := rfl
  rw [hm]
  split
  · rw [hl]
  · rw [State.updAll_lane, hl]

/-- Settles O2: an empty queue is the first case of a step; the clock alone of a lane runs. -/
theorem emptyQueuePassesTenNanoseconds : Obligations.EmptyQueuePassesTenNanoseconds := by
  intro s hp
  obtain ⟨hnow, hm, hpend⟩ := tick_frame s
  refine ⟨tick s, by rw [step, hp], hnow, hm, hpend.trans hp, fun l => ?_⟩
  rw [tick_lane]
  refine ⟨⟨?clock, OscSt.steps_plain⟩, ?rest⟩
  case clock =>
    split
    · rfl
    · exact LaneSt.runClock_clock _
  case rest =>
    split
    · exact ⟨rfl, rfl, rfl⟩
    · exact ⟨rfl, rfl, rfl⟩

/-! ### LIVE permits (R448) -/

/-- LIVE permits are given and none is taken: the module state, the gate, the lanes' modes and the file stand. -/
structure State.GivesLive (s t : State) : Prop where
  mstate : t.mstate = s.mstate
  gate   : t.gate = s.gate
  file   : t.file = s.file
  mode   : ∀ l, t.mode l = s.mode l
  permit : ∀ l, (s.ctl.get l).permit = true → (t.ctl.get l).permit = true

namespace State.GivesLive

variable {s t u : State}

theorem refl (s : State) : s.GivesLive s := ⟨rfl, rfl, rfl, fun _ => rfl, fun _ => id⟩

theorem trans (h : s.GivesLive t) (k : t.GivesLive u) : s.GivesLive u :=
  ⟨k.mstate.trans h.mstate, k.gate.trans h.gate, k.file.trans h.file, fun l => (k.mode l).trans (h.mode l),
    fun l => k.permit l ∘ h.permit l⟩

theorem setPermit (s : State) (x : Lane) : s.GivesLive (s.setPermit x true) := by
  have hctl : (s.setPermit x true).ctl = (s.setCtl x fun c => { c with permit := true, liveAt := s.now }).ctl := rfl
  refine ⟨rfl, rfl, rfl, fun l => ?_, fun l h => ?_⟩
  · by_cases e : l = x
    · subst e
      rw [State.mode, hctl, State.setCtl, LaneVec.get_set_self, State.mode]
    · rw [State.mode, hctl, State.setCtl, LaneVec.get_set_of_ne _ _ e, State.mode]
  · by_cases e : l = x
    · subst e
      exact State.permit_setPermit ..
    · rwa [hctl, State.setCtl, LaneVec.get_set_of_ne _ _ e]

end State.GivesLive

/-- Every ACTIVE lane among some gets its LIVE permit. -/
def State.giveLive (s : State) (ls : List Lane) : State := ls.foldl (fun s l => if s.isActive l then s.setPermit l true else s) s

theorem State.giveLive_gives (ls : List Lane) (s : State) :
    s.GivesLive (s.giveLive ls) ∧ ∀ l ∈ ls, s.isActive l = true → ((s.giveLive ls).ctl.get l).permit = true := by
  induction ls generalizing s with
  | nil => exact ⟨.refl s, fun l h => by cases h⟩
  | cons x ls ih =>
    have hx : s.GivesLive (if s.isActive x then s.setPermit x true else s) := by
      split
      · exact .setPermit s x
      · exact .refl s
    obtain ⟨hrest, hperm⟩ := ih (if s.isActive x then s.setPermit x true else s)
    refine ⟨hx.trans hrest, fun l hl ha => ?_⟩
    rcases List.mem_cons.1 hl with rfl | hl
    · refine hrest.permit l ?_
      rw [if_pos ha]
      exact State.permit_setPermit ..
    · refine hperm l hl ?_
      rw [State.isActive, hx.mode, ← State.isActive, ha]

/-! ### SYNC (R475) -/

theorem State.canStart_frame (s : State) : ∃ ports, s.canStart = { s with canPort := ports } := by
  unfold State.canStart
  generalize List.range 4 = ps
  induction ps generalizing s with
  | nil => exact ⟨s.canPort, rfl⟩
  | cons p ps ih =>
    rw [List.foldl_cons]
    split
    · obtain ⟨ports, h⟩ := ih (s.setCanPt p fun q => { q with owner := some (ownerOf (s.canPortCfg p)) })
      exact ⟨ports, h⟩
    · exact ih s

/-- SYNC after the permits: the clocks, the Platform Link, the station network and the Cabinet Bus start, and the spell out of the role
begins. -/
def State.startPorts (s : State) (source : Option DWord) : State :=
  let s := (s.setClock source).linkListen.netStart.canStart
  s.setXo fun x => { x with sinceDuty := s.now, syncAt := s.now }

/-- The parts of the module that the start of the ports leaves. -/
def State.portless (s : State) : DriveSt × LaneVec LaneCtl × StationFile := (s.drv, s.ctl, s.file)

theorem State.setClock_portless (s : State) (source : Option DWord) : (s.setClock source).portless = s.portless := by
  cases source <;> rfl

theorem State.linkListen_portless (s : State) : s.linkListen.portless = s.portless ∧ s.linkListen.link.node = .listen
    ∧ s.linkListen.power = s.power ∧ ∀ l : Lane, (s.linkListen.lane.get l).clock = (s.lane.get l).clock :=
  ⟨rfl, rfl, rfl, fun l => by cases l <;> rfl⟩

theorem State.netStart_portless (s : State) : s.netStart.portless = s.portless ∧ s.netStart.link = s.link
    ∧ s.netStart.power = s.power ∧ ∀ l : Lane, (s.netStart.lane.get l).clock = (s.lane.get l).clock :=
  ⟨rfl, rfl, rfl, fun l => by cases l <;> rfl⟩

theorem State.canStart_portless (s : State) : s.canStart.portless = s.portless ∧ s.canStart.link = s.link
    ∧ s.canStart.power = s.power ∧ s.canStart.lane = s.lane := by
  obtain ⟨ports, h⟩ := s.canStart_frame
  rw [h]
  exact ⟨rfl, rfl, rfl, rfl⟩

/-- The start of the ports leaves the drive and the lanes' states, and the link listens; the clocks are those that were set. -/
theorem State.startPorts_frame (s : State) (source : Option DWord) :
    (s.startPorts source).portless = s.portless ∧ (s.startPorts source).link.node = .listen
      ∧ (s.startPorts source).power = (s.setClock source).power
      ∧ ∀ l : Lane, ((s.startPorts source).lane.get l).clock = ((s.setClock source).lane.get l).clock := by
  have hset := s.setClock_portless source
  unfold State.startPorts
  generalize s.setClock source = u at hset ⊢
  obtain ⟨h1, hnode, hp1, hc1⟩ := u.linkListen_portless
  obtain ⟨h2, hl2, hp2, hc2⟩ := u.linkListen.netStart_portless
  obtain ⟨h3, hl3, hp3, hlane⟩ := u.linkListen.netStart.canStart_portless
  generalize u.linkListen.netStart.canStart = v at h3 hl3 hp3 hlane ⊢
  refine ⟨(h3.trans (h2.trans (h1.trans hset)) :), ?_, hp3.trans (hp2.trans hp1), fun l => ?_⟩
  · exact (congrArg LinkSt.node (hl3.trans hl2)).trans hnode
  · exact (congrArg (fun v : LaneVec LaneSt => (v.get l).clock) hlane).trans ((hc2 l).trans (hc1 l))

/-- A backup clock that has just been set reads what it was set to. -/
theorem PowerSt.backupClock_of_set {p : PowerSt} (hset : p.clkSet < 2 ^ 64) (hfor : p.clkFor = 0) : p.backupClock = p.clkSet := by
  have hrun : p.backupRun = 0 := by simp [PowerSt.backupRun, hfor]
  rw [PowerSt.backupClock, hrun]
  exact Nat.mod_eq_of_lt hset

/-- The discipline source sets the backup clock and the Station Clock of every lane (R227, R581). -/
theorem State.startPorts_clocks (s : State) (time : DWord) :
    (s.startPorts (some time)).power.backupClock = time.toNat ∧ (s.startPorts (some time)).power.clkValid = true
      ∧ ∀ l : Lane, ((s.startPorts (some time)).lane.get l).clock = time.toNat := by
  obtain ⟨-, -, hpower, hclock⟩ := s.startPorts_frame (some time)
  rw [hpower]
  exact ⟨PowerSt.backupClock_of_set time.isLt rfl, rfl, fun l => (hclock l).trans (by cases l <;> rfl)⟩

theorem execSync_unpaired {s : State} (source : Option DWord) (hm : s.mstate = .sync) (hp : s.file.paired = false) :
    exec (.sync source) s = .next ((s.giveLive Lane.list).startPorts source) := by
  obtain ⟨hports, -⟩ := (s.giveLive Lane.list).startPorts_frame source
  obtain ⟨hgives, -⟩ := State.giveLive_gives Lane.list s
  have hfile : ((s.giveLive Lane.list).startPorts source).file = (s.giveLive Lane.list).file := congrArg (fun q => q.2.2) hports
  have hrole : ((s.giveLive Lane.list).startPorts source).settleRole = (s.giveLive Lane.list).startPorts source :=
    if_pos (.inr (.inl (by rw [hfile, hgives.file, hp]; rfl)))
  have hexec : exec (.sync source) s = .next ((s.giveLive Lane.list).startPorts source).settleRole := if_neg (not_not.2 hm)
  rw [hexec, hrole]

/-- Settles O18: the permits leave the lanes' modes, the ports leave the permits; an unpaired module has no role to settle. -/
theorem syncStartsTheLanes : Obligations.SyncStartsTheLanes := by
  intro s source hm hp
  obtain ⟨hgives, hperm⟩ := State.giveLive_gives Lane.list s
  obtain ⟨hports, hnode, -, -⟩ := (s.giveLive Lane.list).startPorts_frame source
  have hdrv : ((s.giveLive Lane.list).startPorts source).drv = (s.giveLive Lane.list).drv := congrArg (fun q => q.1) hports
  have hctl : ((s.giveLive Lane.list).startPorts source).ctl = (s.giveLive Lane.list).ctl := congrArg (fun q => q.2.1) hports
  refine ⟨_, execSync_unpaired source hm hp, ?_, hnode, ?_, fun l ha => ?_, fun l => ?_, ?_⟩
  · rw [State.mstate, hdrv, ← State.mstate, hgives.mstate, hm]
  · rw [State.gate, hdrv, ← State.gate, hgives.gate]
  · rw [hctl]
    exact hperm l (by cases l <;> simp [Lane.list]) ha
  · rw [State.mode, hctl, ← State.mode, hgives.mode]
  · rintro time rfl
    exact State.startPorts_clocks _ time

end Sys2Proof.Machine
end

section
/-! Reactions (R420 to R447): the registers of a lane that they may write, and that every other register stands. -/

namespace Sys2Proof.Machine

/-! ### The registers of one lane -/

/-- A register that a reaction may write: the error bits, interrupts and count of a block, the shadow windows of the logic blocks
(R190), the first report of a region (R462), the records of the lane collector, and the counts of lost entries, minorities and tests
cut short. -/
def reactionWrites (off : Nat) : Prop :=
  off % 0x1000 = 0x10 ∨ off % 0x1000 = 0x18 ∨ off % 0x1000 = 0x2C ∨ off < 0x10000 ∨ off % 0x1000000 = Reg.RC_STAT 0
    ∨ off = Reg.FC_CAUSE ∨ off = Reg.FC_LAST_SAFE ∨ off = Reg.FC_CNT ∨ off = Reg.OB_LOST ∨ off = Reg.MINORITY_CNT
    ∨ off = Reg.FS_EVENTS

/-- Every register of a lane stands that no reaction writes. -/
structure LaneSt.SameRegs (L M : LaneSt) : Prop where
  reg : ∀ off, ¬ reactionWrites off → M.reg off = L.reg off

namespace LaneSt.SameRegs

theorem refl (L : LaneSt) : L.SameRegs L := ⟨fun _ _ => rfl⟩

theorem trans {L M N : LaneSt} (h : L.SameRegs M) (k : M.SameRegs N) : L.SameRegs N :=
  ⟨fun off ho => (k.reg off ho).trans (h.reg off ho)⟩

/-- A change of a lane outside its registers. -/
theorem of_regs {L M : LaneSt} (h : M.regs = L.regs) : L.SameRegs M := ⟨fun off _ => by rw [LaneSt.reg, h, LaneSt.reg]⟩

theorem ite {c : Prop} [Decidable c] {L M N : LaneSt} (hM : L.SameRegs M) (hN : L.SameRegs N) : L.SameRegs (if c then M else N) := by
  split
  · exact hM
  · exact hN

/-- What every step of a fold leaves, the fold leaves. -/
theorem foldl {α : Type} {f : LaneSt → α → LaneSt} :
    ∀ (xs : List α) (_ : ∀ x ∈ xs, ∀ L : LaneSt, L.SameRegs (f L x)) (L : LaneSt), L.SameRegs (xs.foldl f L)
  | [], _, L => refl L
  | x :: xs, h, L => (h x List.mem_cons_self L).trans (foldl xs (fun y hy => h y (List.mem_cons_of_mem _ hy)) (f L x))

theorem setReg (L : LaneSt) {off : Nat} (v : Word) (h : reactionWrites off) : L.SameRegs (L.setReg off v) :=
  ⟨fun _ ho => LaneSt.reg_setReg_of_ne L v fun e => ho (e ▸ h)⟩

theorem setBits (L : LaneSt) {off : Nat} (m : Nat) (h : reactionWrites off) : L.SameRegs (L.setBits off m) := setReg L _ h

theorem addFld (L : LaneSt) {off : Nat} (lo w n : Nat) (h : reactionWrites off) : L.SameRegs (L.addFld off lo w n) := setReg L _ h

theorem record (L : LaneSt) (path : Word) (code : Half) (cls flags cycle : Nat) (data : BitVec 48) :
    L.SameRegs (L.record path code cls flags cycle data) :=
  ⟨fun off ho => L.reg_record_of_ne _ _ _ _ _ _ fun e => ho (by rw [e, reactionWrites]; decide)⟩

theorem recordOnce (L : LaneSt) (l : Lane) (d : Det) (code : Half) (cycle data : Nat) :
    L.SameRegs (L.recordOnce l d code cycle data) := by
  unfold LaneSt.recordOnce
  exact ite (refl L) ((record ..).trans (of_regs rfl))

theorem takeReport (L : LaneSt) (l : Lane) (k : Blk) (bit : Nat) (cls : FClass) (flags cycle data : Nat) :
    L.SameRegs (L.takeReport l k bit cls flags cycle data) := by
  have hcnt : reactionWrites Reg.FC_CNT := by rw [reactionWrites]; decide
  have hirq : reactionWrites (Base.fc + 0x18) := by rw [reactionWrites]; decide
  unfold LaneSt.takeReport
  extract_lets cell R C
  have hC : L.SameRegs C := (record ..).trans (addFld _ _ _ _ (by unfold reactionWrites Blk.base; omega))
  refine hC.trans ?_
  cases cls with
  | corrected => exact (addFld C _ _ _ hcnt).trans (setBits _ _ hirq)
  | moduleSafe => exact refl C
  | note | laneRecover | laneHalt => exact addFld C _ _ _ hcnt

theorem noteFirst (L : LaneSt) (k : Blk) : L.SameRegs (L.noteFirst k) :=
  ite (refl L) (setReg L _ (by unfold reactionWrites Reg.RC_STAT; omega))

theorem closeShadow (L : LaneSt) {b : Nat} (hb : b ∈ List.range 16) :
    L.SameRegs ((L.setReg (Reg.LF_SHD_STAT b) 0).clearBits (Reg.LF_SHD_CTRL b) 1) := by
  have hlt : b < 16 := List.mem_range.1 hb
  exact (setReg L 0 (by unfold reactionWrites Reg.LF_SHD_STAT; omega)).trans
    (setReg _ _ (by unfold reactionWrites Reg.LF_SHD_CTRL; omega))

theorem closeShadows (L : LaneSt) : L.SameRegs L.closeShadows := foldl _ (fun _ hb L => ite (closeShadow L hb) (refl L)) L

theorem emptyShadow (L : LaneSt) : L.SameRegs L.emptyShadow := by
  unfold LaneSt.emptyShadow
  extract_lets _ M
  have hM : L.SameRegs M := of_regs rfl
  exact hM.trans (foldl _ (fun _ hb L => closeShadow L hb) M)

theorem startReset (L : LaneSt) (now : Nat) (scope : RScope) (k : Blk) (tag : Option Byte) :
    L.SameRegs (L.startReset now scope k tag) := by
  unfold LaneSt.startReset
  extract_lets r
  exact ite (refl L) (of_regs rfl)

theorem leaveVote (L : LaneSt) (cause : Nat) (cls : FClass) (det : Option Det) : L.SameRegs (L.leaveVote cause cls det) := by
  unfold LaneSt.leaveVote
  extract_lets place _ _ M
  have hM : L.SameRegs M := of_regs rfl
  exact hM.trans ((setReg M _ (by rw [reactionWrites]; decide)).trans (setBits _ _ (by rw [reactionWrites]; decide)))

theorem stop (L : LaneSt) (req : Bool) : L.SameRegs (L.stop req) := by
  have h := closeShadows L
  unfold LaneSt.stop
  generalize L.closeShadows = M at h ⊢
  exact h.trans (of_regs rfl)

theorem tellSafe (L : LaneSt) (l : Lane) (req : Bool) (cause who : Nat) (tag : Option Byte) (cycle : Nat) :
    L.SameRegs (L.tellSafe l req cause who tag cycle) :=
  ((stop L req).trans (setBits _ _ (by rw [reactionWrites]; decide))).trans (record ..)

end LaneSt.SameRegs

/-! ### The registers of the module's lanes -/

/-- In every lane the registers stand that no reaction writes. -/
structure State.SameRegs (s t : State) : Prop where
  lane : ∀ l : Lane, (s.lane.get l).SameRegs (t.lane.get l)

namespace State.SameRegs

variable {s t u : State}

theorem of_lane (h : t.lane = s.lane) : s.SameRegs t := ⟨fun _ => h ▸ .refl _⟩

theorem refl (s : State) : s.SameRegs s := of_lane rfl

theorem trans (h : s.SameRegs t) (k : t.SameRegs u) : s.SameRegs u := ⟨fun l => (h.lane l).trans (k.lane l)⟩

/-- A change outside the lanes first. -/
theorem of_lane_trans (k : t.SameRegs u) (h : t.lane = s.lane) : s.SameRegs u := (of_lane h).trans k

theorem foldl {α : Type} {g : State → α → State} (h : ∀ (s : State) (a : α), s.SameRegs (g s a)) :
    ∀ (xs : List α) (s : State), s.SameRegs (xs.foldl g s)
  | [], s => refl s
  | x :: xs, s => (h s x).trans (foldl h xs (g s x))

theorem ite {c : Prop} [Decidable c] {a b : State} (ha : s.SameRegs a) (hb : s.SameRegs b) : s.SameRegs (if c then a else b) := by
  split
  · exact ha
  · exact hb

theorem updIn (s : State) (ls : LaneSet) {f : Lane → LaneSt → LaneSt} (h : ∀ (l : Lane) (L : LaneSt), L.SameRegs (f l L)) :
    s.SameRegs (s.updIn ls f) :=
  ⟨fun l => by
    rw [State.updIn_lane]
    exact .ite (h l _) (.refl _)⟩

theorem updAll (s : State) {f : Lane → LaneSt → LaneSt} (h : ∀ (l : Lane) (L : LaneSt), L.SameRegs (f l L)) :
    s.SameRegs (s.updAll f) := updIn s _ h

theorem upd (s : State) (l : Lane) {f : LaneSt → LaneSt} (h : (s.lane.get l).SameRegs (f (s.lane.get l))) : s.SameRegs (s.upd l f) :=
  ⟨fun m => by
    by_cases e : m = l
    · rw [e, State.upd_lane_self]
      exact h
    · rw [State.upd_lane_of_ne _ _ e]
      exact .refl _⟩

theorem recordIn (s : State) (ls : LaneSet) (k : Blk) (code : Half) (cls : FClass) (data flags : Nat) :
    s.SameRegs (s.recordIn ls k code cls data flags) := updIn s _ fun _ _ => .record ..

theorem event (s : State) (base n data : Nat) : s.SameRegs (s.event base n data) := recordIn ..

theorem count (s : State) {off : Nat} (lo w n : Nat) (h : reactionWrites off) : s.SameRegs (s.count off lo w n) :=
  updIn s _ fun _ L => .addFld L lo w n h

/-! ### Tests, the change and 2-out-of-2 operation (R59, R266, R505) -/

theorem setBank (s : State) (b : Nat) (f : BankSt → BankSt) : s.SameRegs (s.setBank b f) := of_lane rfl

theorem refreshIsolators (s : State) : s.SameRegs s.refreshIsolators := foldl (fun s b => setBank s b _) _ s

theorem settleTests (s : State) : s.SameRegs s.settleTests := by
  refine foldl (fun s b => ?_) _ s
  unfold State.settleTest
  split
  · exact ite (of_lane rfl) (refl s)
  · exact refl s

theorem abortTest (s : State) (b : Nat) : s.SameRegs (s.abortTest b) := by
  unfold State.abortTest
  split
  · exact (setBank s b _).trans (count _ _ _ _ (by rw [reactionWrites]; decide))
  · exact refl s

theorem abortTests (s : State) (pick : RunTest → Bool) : s.SameRegs (s.abortTests pick) := by
  refine (settleTests s).trans (foldl (fun s b => ?_) _ _)
  split
  · exact ite (abortTest s b) (refl s)
  · exact refl s

theorem abandonChange (s : State) : s.SameRegs s.abandonChange := by
  refine ite ?_ (refl s)
  have h : s.SameRegs { s with chg := {} } := of_lane rfl
  refine h.trans (updAll _ fun _ L => ?_)
  have hL := LaneSt.SameRegs.emptyShadow L
  generalize L.emptyShadow = M at hL ⊢
  exact hL.trans (.of_regs rfl)

theorem disarm (s : State) : s.SameRegs s.disarm := ite (of_lane_trans (event ..) rfl) (refl s)

theorem autoHandover (s : State) : s.SameRegs s.autoHandover := by
  refine ite (refl s) ?_
  split
  · exact of_lane rfl
  · exact of_lane_trans (recordIn ..) rfl

theorem enterTwoOfTwo (s : State) : s.SameRegs s.enterTwoOfTwo := by
  unfold State.enterTwoOfTwo
  extract_lets _ u v w
  have hu : s.SameRegs u := of_lane rfl
  have hw : v.SameRegs w := updAll v fun _ _ => .closeShadows _
  exact hu.trans (((disarm u).trans (abandonChange _)).trans (hw.trans (ite (autoHandover w) (refl w))))

/-! ### The entry into SAFE (R433) -/

theorem leaveStandby (s : State) : s.SameRegs s.leaveStandby := ite (updAll s fun _ _ => .of_regs rfl) (refl s)

theorem giveUpRole (s : State) : s.SameRegs s.giveUpRole :=
  ite (leaveStandby s) ((leaveStandby s).trans (updIn _ _ fun _ L => .setBits L _ (by rw [reactionWrites]; decide)))

theorem openBanks (s : State) : s.SameRegs s.openBanks := foldl (fun s b => setBank s b _) _ s

theorem stopAll (s : State) (cause who : Nat) (req : LaneSet) (tag : Option Byte) : s.SameRegs (s.stopAll cause who req tag) := by
  have hlatch (u : State) : u.SameRegs (u.latchGate s.active) := of_lane rfl
  exact ((((giveUpRole s).trans (hlatch _)).trans (openBanks _)).trans (abandonChange _)).trans (updAll _ fun _ _ => .tellSafe ..)

theorem enterSafe (s : State) (cause who : Nat) (req : LaneSet) (tag : Option Byte) : s.SameRegs (s.enterSafe cause who req tag) := by
  by_cases hg : s.gate = true
  · rw [State.enterSafe, if_pos hg]
    exact updIn s _ fun _ _ => .of_regs rfl
  · obtain ⟨seq, h⟩ := s.enterSafe_of_open cause who req tag (Bool.eq_false_iff.2 hg)
    rw [h]
    exact (stopAll s cause who req tag).trans (updAll _ fun _ L => .setReg L _ (by rw [reactionWrites]; decide))

theorem safeByLane (s : State) (l : Lane) (cause : Nat) (tag : Option Byte) : s.SameRegs (s.safeByLane l cause tag) :=
  ite (enterSafe ..) (refl s)

/-! ### The exclusion of a lane (R44, R45, R51) -/

theorem noteExclusion (s : State) (x : Lane) (cls : FClass) (cause : Nat) (third : Bool) (tag : Option Byte) :
    s.SameRegs (s.noteExclusion x cls cause third tag) := by
  unfold State.noteExclusion
  extract_lets books t
  have ht : s.SameRegs t := recordIn ..
  exact ht.trans (ite (recordIn ..) (ite (recordIn ..) (refl t)))

theorem markOut (s : State) (x : Lane) (cls : FClass) (cause : Nat) (det : Option Det) (tag : Option Byte) :
    s.SameRegs (s.markOut x cls cause det tag) := (noteExclusion ..).trans (of_lane rfl)

theorem setPermit_false (s : State) (x : Lane) : s.SameRegs (s.setPermit x false) := by
  unfold State.setPermit
  extract_lets t u _ v
  have hv : s.SameRegs v := of_lane rfl
  have hw (w : State) : w.SameRegs w.refreshDrive := of_lane rfl
  refine hv.trans (trans ?_ (hw _))
  exact updAll v fun _ _ => .of_regs rfl

theorem openSwitches (s : State) (x : Lane) (was : Bool) (cls : FClass) (cause : Nat) (det : Option Det) :
    s.SameRegs (s.openSwitches x was cls cause det) := by
  unfold State.openSwitches
  extract_lets t u
  have hu : t.SameRegs u := ite (abortTests t _) (refl t)
  have hv : u.SameRegs (u.updAll fun _ L => L.newReaction) := updAll u fun _ _ => .of_regs rfl
  exact (setPermit_false s x).trans (hu.trans (hv.trans (upd _ x (.leaveVote ..))))

theorem abandonResync (s : State) (x : Lane) : s.SameRegs (s.abandonResync x) := by
  refine foldl (fun s y => ?_) _ s
  exact ite (of_lane rfl) (refl s)

theorem closeSessions (s : State) : s.SameRegs s.closeSessions := by
  have h : s.SameRegs (s.updAll fun _ L => { L with tlsKeys := [] }) := updAll s fun _ _ => .of_regs rfl
  exact h.trans (of_lane rfl)

theorem disownCan (s : State) (x : Lane) : s.SameRegs (s.disownCan x) := by
  unfold State.disownCan
  refine foldl (fun s p => ?_) _ s
  exact ite (of_lane rfl) (refl s)

theorem afterLeaving (s : State) (x : Lane) (was conducts two : Bool) : s.SameRegs (s.afterLeaving x was conducts two) := by
  unfold State.afterLeaving
  extract_lets t u v w
  have hu : t.SameRegs u := ite (abandonResync t x) (refl t)
  have hv : u.SameRegs v := ite (closeSessions u) (refl u)
  exact (refreshIsolators s).trans (hu.trans (hv.trans ((disownCan v x).trans (ite (enterTwoOfTwo w) (refl w)))))

theorem exclude (s : State) (x : Lane) (cls : FClass) (cause : Nat) (det : Option Det) (tag : Option Byte) :
    s.SameRegs (s.exclude x cls cause det tag) := by
  refine ite (safeByLane ..) ?_
  obtain ⟨was, conducts, two, h⟩ := s.leave_stages x cls cause det tag
  rw [h]
  exact (markOut ..).trans ((openSwitches ..).trans (afterLeaving ..))

/-! ### Resets and reports (R420 to R437) -/

theorem reactReset (s : State) (l : Lane) (r : Report) (tag : Option Byte) : s.SameRegs (s.reactReset l r tag) := by
  have start (s : State) (scope : RScope) (k : Blk) : s.SameRegs (s.upd l fun L => L.startReset s.now scope k tag) :=
    upd s l (.startReset ..)
  unfold State.reactReset
  extract_lets page t
  exact ite (start ..) (ite (start ..) (ite (refl s) ((start ..).trans (ite (start ..) (refl t)))))

theorem resetFor (s : State) (l : Lane) (rs : List Report) (tag : Option Byte) : s.SameRegs (s.resetFor l rs tag) :=
  of_lane_trans (foldl (fun s r => reactReset s l r tag) _ _) rfl

theorem haltFor (s : State) (l : Lane) (cls : FClass) (tag : Option Byte) : s.SameRegs (s.haltFor l cls tag) :=
  (recordIn ..).trans (of_lane rfl)

theorem react (s : State) (l : Lane) (cls : FClass) (r : Report) (rs : List Report) (tag : Option Byte) :
    s.SameRegs (s.react l cls r rs tag) := by
  refine ite (refl s) ?_
  cases cls with
  | note => exact refl s
  | corrected => exact refl s
  | laneRecover =>
    dsimp only
    split
    · exact refl s
    · exact resetFor ..
    · exact (exclude ..).trans (ite (refl _) (resetFor ..))
  | laneHalt =>
    dsimp only
    split
    · exact refl s
    · exact haltFor ..
    · exact exclude ..
  | moduleSafe =>
    dsimp only
    split
    · exact safeByLane ..
    · exact refl s
    · exact haltFor ..
    · exact exclude ..

theorem raise (s : State) (l : Lane) (r : Report) : s.SameRegs (s.raise l r) :=
  upd s l ((LaneSt.SameRegs.ite (.refl _) (.noteFirst ..)).trans (.setBits _ _ (by unfold reactionWrites Blk.base; omega)))

theorem takeIn (s : State) (l : Lane) (r : Report) : s.SameRegs (s.takeIn l r).1 := by
  unfold State.takeIn
  split
  · dsimp only
    exact upd s l (.recordOnce ..)
  · extract_lets coin tag t c cls flags
    have ht : s.SameRegs t := ite (of_lane_trans (event ..) rfl) (refl s)
    dsimp only
    exact ht.trans (upd t l (.takeReport ..))

theorem takeEach (s : State) (l : Lane) (rs : List Report) : s.SameRegs (s.takeEach l rs).1 := by
  induction rs generalizing s with
  | nil => exact refl s
  | cons r rs ih =>
    unfold State.takeEach
    exact (takeIn s l r).trans (ih _)

theorem reactTo (s : State) (l : Lane) (rs : List (Report × FClass)) : s.SameRegs (s.reactTo l rs) := by
  unfold State.reactTo
  split
  · exact refl s
  · exact react ..

theorem report (s : State) (l : Lane) (k : Blk) (bit data : Nat) : s.SameRegs (s.report l k bit data) :=
  (foldl (fun s r => raise s l r) _ s).trans ((takeEach _ l _).trans (reactTo ..))

theorem reportAll (s : State) (base bit data : Nat) : s.SameRegs (s.reportAll base bit data) :=
  foldl (fun s l => ite (report s l ..) (refl s)) _ s

end State.SameRegs

end Sys2Proof.Machine
end

section
/-! The Station Clock (R222 to R228): its status and its offset from the source, and the source lost and returned. -/

namespace Sys2Proof.Machine

/-! ### `STC_STAT` and `STC_SRC` -/

theorem resetOf_stcStat : Sys2Proof.Machine.resetOf Reg.STC_STAT = 0 := by decide +kernel

theorem not_reactionWrites_stcStat : ¬ reactionWrites Reg.STC_STAT := by
  rw [reactionWrites]
  decide

theorem not_reactionWrites_stcSrc : ¬ reactionWrites Reg.STC_SRC := by
  rw [reactionWrites]
  decide

theorem LaneSt.SameRegs.bit {L M : LaneSt} (h : L.SameRegs M) {off : Nat} (ho : ¬ reactionWrites off) (n : Nat) :
    M.bit off n = L.bit off n := by
  rw [LaneSt.bit, h.reg off ho, LaneSt.bit]

/-- A word with a bit set reads back from `STC_STAT`, whatever the map of the registers. -/
theorem LaneSt.stcStat_setReg (L : LaneSt) {v : Word} {n : Nat} (h : v.getLsbD n = true) :
    (L.setReg Reg.STC_STAT v).reg Reg.STC_STAT = v := by
  refine L.reg_setReg_of_ne_default _ _ fun e => ?_
  rw [e, resetOf_stcStat] at h
  exact absurd (h.symm.trans BitVec.getLsbD_zero) (by decide)

/-- A bit that is set in `STC_STAT` is set, whatever the map of the registers. -/
theorem LaneSt.stcStat_setBits (L : LaneSt) {n : Nat} (hn : n < 32) :
    (L.setBits Reg.STC_STAT (2 ^ n)).reg Reg.STC_STAT = L.reg Reg.STC_STAT ||| BitVec.ofNat 32 (2 ^ n) :=
  L.stcStat_setReg (n := n) (by
    rw [BitVec.getLsbD_or, BitVec.getLsbD_ofNat, Nat.testBit_two_pow_self, decide_eq_true hn, Bool.and_self, Bool.or_true])

theorem LaneSt.stcStat_bit_setBits (L : LaneSt) {n : Nat} (hn : n < 32) :
    (L.setBits Reg.STC_STAT (2 ^ n)).bit Reg.STC_STAT n = true := by
  rw [LaneSt.bit, L.stcStat_setBits hn, BitVec.testBit_toNat, BitVec.getLsbD_or, BitVec.getLsbD_ofNat, Nat.testBit_two_pow_self,
    decide_eq_true hn, Bool.and_self, Bool.or_true]

/-- HOLDOVER in a lane: bit 1 set, then bit 0 cleared. -/
theorem LaneSt.stcStat_holdover (L : LaneSt) :
    ((L.setBits Reg.STC_STAT (2 ^ 1)).clearBits Reg.STC_STAT (2 ^ 0)).bit Reg.STC_STAT 1 = true
      ∧ ((L.setBits Reg.STC_STAT (2 ^ 1)).clearBits Reg.STC_STAT (2 ^ 0)).bit Reg.STC_STAT 0 = false := by
  have h : ((L.setBits Reg.STC_STAT (2 ^ 1)).clearBits Reg.STC_STAT (2 ^ 0)).reg Reg.STC_STAT
      = (L.reg Reg.STC_STAT ||| BitVec.ofNat 32 (2 ^ 1)) &&& ~~~(BitVec.ofNat 32 (2 ^ 0)) := by
    rw [LaneSt.clearBits, L.stcStat_setBits (by decide)]
    exact LaneSt.stcStat_setReg _ (n := 1) (by simp)
  rw [LaneSt.bit, LaneSt.bit, h, BitVec.testBit_toNat, BitVec.testBit_toNat]
  simp

theorem LaneSt.bit_setBits (L : LaneSt) (off n j : Nat) (hj : j < 32) (hw : SMap.wf Sys2Proof.Machine.resetOf L.regs = true) :
    (L.setBits off (2 ^ n)).bit off j = (L.bit off j || decide (j = n)) := by
  rw [LaneSt.bit, LaneSt.setBits, LaneSt.reg_setReg_self _ _ _ hw, BitVec.testBit_toNat, BitVec.getLsbD_or, BitVec.getLsbD_ofNat,
    Nat.testBit_two_pow, LaneSt.bit, BitVec.testBit_toNat]
  simp only [hj, decide_true, Bool.true_and, eq_comm]

/-- The registers of a lane are in their canonical form. -/
def State.RegsWf (s : State) (l : Lane) : Prop := SMap.wf Sys2Proof.Machine.resetOf (s.lane.get l).regs = true

theorem State.RegsWf.of_wf {s : State} {l : Lane} (h : (s.lane.get l).wf = true) : s.RegsWf l := by
  rw [LaneSt.wf, Bool.and_eq_true] at h
  exact h.1

theorem State.RegsWf.updAll_setReg {s : State} {l : Lane} (h : s.RegsWf l) (off : Nat) (v : Lane → LaneSt → Word) :
    (s.updAll fun l L => L.setReg off (v l L)).RegsWf l := by
  rw [State.RegsWf, State.updAll_lane]
  exact SMap.put_wf _ _ _ _ h

section Stat

variable (s : State) (l : Lane)

theorem State.setStc_lane (n : Nat) (b : Bool) :
    (s.setStc n b).lane.get l
      = if b then (s.lane.get l).setBits Reg.STC_STAT (2 ^ n) else (s.lane.get l).clearBits Reg.STC_STAT (2 ^ n) := State.updAll_lane ..

theorem State.setSrcOffset_lane (x : Int) : (s.setSrcOffset x).lane.get l = (s.lane.get l).setReg Reg.STC_SRC (satInt32 x) :=
  State.updAll_lane ..

variable {s l}

theorem State.RegsWf.setStc (h : s.RegsWf l) (n : Nat) (b : Bool) : (s.setStc n b).RegsWf l := by
  rw [State.RegsWf, State.setStc_lane]
  split
  · exact SMap.put_wf _ _ _ _ h
  · exact SMap.put_wf _ _ _ _ h

theorem State.RegsWf.setSrcOffset (h : s.RegsWf l) (x : Int) : (s.setSrcOffset x).RegsWf l := h.updAll_setReg ..

/-- A bit of `STC_STAT` after one was set or cleared. -/
theorem State.stcStat_setStc (h : s.RegsWf l) (n : Nat) (b : Bool) {j : Nat} (hj : j < 32) :
    ((s.setStc n b).lane.get l).bit Reg.STC_STAT j = if j = n then b else (s.lane.get l).bit Reg.STC_STAT j := by
  rw [State.setStc_lane]
  cases b with
  | true =>
    rw [if_pos rfl, LaneSt.bit_setBits _ _ _ _ hj h]
    by_cases e : j = n <;> simp [e]
  | false =>
    rw [if_neg Bool.false_ne_true, LaneSt.bit_clearBits _ _ _ _ hj h]
    by_cases e : j = n <;> simp [e]

theorem State.stcSrc_setStc (n : Nat) (b : Bool) : ((s.setStc n b).lane.get l).reg Reg.STC_SRC = (s.lane.get l).reg Reg.STC_SRC := by
  rw [State.setStc_lane]
  split
  · exact LaneSt.reg_setReg_of_ne _ _ (by decide)
  · exact LaneSt.reg_setReg_of_ne _ _ (by decide)

theorem State.stcStat_setSrcOffset (x : Int) (j : Nat) :
    ((s.setSrcOffset x).lane.get l).bit Reg.STC_STAT j = (s.lane.get l).bit Reg.STC_STAT j := by
  rw [State.setSrcOffset_lane, LaneSt.bit, LaneSt.reg_setReg_of_ne _ _ (by decide), LaneSt.bit]

theorem State.stcSrc_setSrcOffset (h : s.RegsWf l) (x : Int) : ((s.setSrcOffset x).lane.get l).reg Reg.STC_SRC = satInt32 x := by
  rw [State.setSrcOffset_lane]
  exact LaneSt.reg_setReg_self _ _ _ h

end Stat

theorem State.setStc_steady (s : State) (n : Nat) (b : Bool) : s.Steady (s.setStc n b) := ⟨rfl, rfl, rfl⟩

/-! ### The source lost and returned (R226) -/

theorem State.notRaised_stc (s : State) (l : Lane) (bit data : Nat) : s.notRaised l (Blk.ofOff Base.stc) bit data = false := by
  have hpage : pageOf (Blk.base (Blk.ofOff Base.stc)) = some (.stc, 0) := by decide +kernel
  unfold State.notRaised
  rw [hpage]

theorem holdover_follows {s : State} {lost : Nat} (hs : s.source ≠ 0) (hl : s.srcLost = some lost) (hlate : lost + 10000000000 ≤ s.now) :
    ∃ t, exec .holdover s = .next t ∧ ∀ l : Lane, (t.lane.get l).bit Reg.STC_STAT 1 = true ∧ (t.lane.get l).bit Reg.STC_STAT 0 = false
      ∧ (s.parts.get l = true → t.ErrSet l (Blk.ofOff Base.stc) 2) := by
  have hexec : exec .holdover s = .next (((s.setStc 1 true).setStc 0 false).reportAll Base.stc 2 0) := by
    change execHoldover s = _
    unfold execHoldover
    rw [hl]
    exact if_pos ⟨hs, hlate⟩
  have hsteady := (s.setStc_steady 1 true).trans (State.setStc_steady _ 0 false)
  refine ⟨_, hexec, fun l => ?_⟩
  have hreport := (State.SameRegs.reportAll ((s.setStc 1 true).setStc 0 false) Base.stc 2 0).lane l
  have hlane : ((s.setStc 1 true).setStc 0 false).lane.get l
      = ((s.lane.get l).setBits Reg.STC_STAT (2 ^ 1)).clearBits Reg.STC_STAT (2 ^ 0) := by
    rw [State.setStc_lane, State.setStc_lane]
    rfl
  rw [hreport.bit not_reactionWrites_stcStat, hreport.bit not_reactionWrites_stcStat, hlane]
  obtain ⟨hhold, hlock⟩ := (s.lane.get l).stcStat_holdover
  exact ⟨hhold, hlock, fun hp =>
    State.reportAll_errSet _ Base.stc 0 (by decide) (fun s l => s.notRaised_stc l 2 0) l (by rwa [hsteady.parts])⟩

theorem holdover_waits {s : State} (h : s.srcLost = none ∨ ∃ lost, s.srcLost = some lost ∧ s.now < lost + 10000000000) :
    exec .holdover s = .next s := by
  change execHoldover s = _
  unfold execHoldover
  rcases h with h | ⟨lost, h, hearly⟩
  · rw [h]
  · rw [h]
    exact if_neg fun ⟨_, hlate⟩ => absurd hlate (Nat.not_le.2 hearly)

/-- The source found again, its offset noted except by a standby. -/
def State.refind (s : State) (x : Int) : State :=
  let s := ({ s with srcLost := none }).setStc 1 false
  if s.mstate = .standby then s else s.setSrcOffset x

/-- A step beyond 1 s is left pending. -/
def State.pendStep (s : State) (x : Int) : State :=
  if x < -1000000000 ∨ 1000000000 < x then (s.setStc 2 true).event Base.stc 0x016 0 else s

theorem execSourceReturn_eq {s : State} (hs : s.source ≠ 0) (x : DWord) :
    exec (.sourceReturn x) s = .next ((s.refind x.toInt).pendStep x.toInt) := if_neg hs

theorem State.refind_frame (s : State) (x : Int) : s.Steady (s.refind x) ∧ (s.refind x).srcLost = none := by
  unfold State.refind
  extract_lets u
  have hu : s.Steady u ∧ u.srcLost = none := ⟨⟨rfl, rfl, rfl⟩, rfl⟩
  split
  · exact hu
  · exact hu

theorem State.pendStep_frame (s : State) (x : Int) : s.Steady (s.pendStep x) ∧ (s.pendStep x).srcLost = s.srcLost := by
  unfold State.pendStep
  split
  · exact ⟨⟨rfl, rfl, rfl⟩, rfl⟩
  · exact ⟨⟨rfl, rfl, rfl⟩, rfl⟩

theorem State.refind_lane {s : State} {l : Lane} (h : s.RegsWf l) (x : Int) :
    (s.refind x).RegsWf l
      ∧ ((s.refind x).lane.get l).reg Reg.STC_SRC = (if s.mstate = .standby then (s.lane.get l).reg Reg.STC_SRC else satInt32 x)
      ∧ ∀ j < 32, ((s.refind x).lane.get l).bit Reg.STC_STAT j = if j = 1 then false else (s.lane.get l).bit Reg.STC_STAT j := by
  unfold State.refind
  extract_lets u
  have hw : u.RegsWf l := State.RegsWf.setStc (s := { s with srcLost := none }) h 1 false
  have hstat : ∀ j < 32, (u.lane.get l).bit Reg.STC_STAT j = if j = 1 then false else (s.lane.get l).bit Reg.STC_STAT j :=
    fun j hj => State.stcStat_setStc (s := { s with srcLost := none }) h 1 false hj
  have hm : u.mstate = s.mstate := rfl
  rw [hm]
  split
  · exact ⟨hw, State.stcSrc_setStc (s := { s with srcLost := none }) 1 false, hstat⟩
  · exact ⟨hw.setSrcOffset x, State.stcSrc_setSrcOffset hw x, fun j hj => (State.stcStat_setSrcOffset x j).trans (hstat j hj)⟩

theorem State.pendStep_lane {s : State} {l : Lane} (h : s.RegsWf l) (x : Int) :
    ((s.pendStep x).lane.get l).reg Reg.STC_SRC = (s.lane.get l).reg Reg.STC_SRC
      ∧ ∀ j < 32, ((s.pendStep x).lane.get l).bit Reg.STC_STAT j
        = if (x < -1000000000 ∨ 1000000000 < x) ∧ j = 2 then true else (s.lane.get l).bit Reg.STC_STAT j := by
  unfold State.pendStep
  by_cases hfar : x < -1000000000 ∨ 1000000000 < x
  · have hbook := (State.SameRegs.event (s.setStc 2 true) Base.stc 0x016 0).lane l
    rw [if_pos hfar, hbook.reg _ not_reactionWrites_stcSrc]
    refine ⟨State.stcSrc_setStc 2 true, fun j hj => ?_⟩
    rw [hbook.bit not_reactionWrites_stcStat, State.stcStat_setStc h 2 true hj]
    simp only [hfar, true_and]
  · rw [if_neg hfar]
    exact ⟨rfl, fun j _ => by simp only [hfar, false_and, if_false]⟩

theorem sourceReturn_follows {s : State} (hs : s.source ≠ 0) (x : DWord) :
    ∃ t, exec (.sourceReturn x) s = .next t ∧ t.srcLost = none ∧ s.Steady t ∧ ∀ l : Lane, (s.lane.get l).wf = true →
      (t.lane.get l).bit Reg.STC_STAT 1 = false
        ∧ (t.lane.get l).reg Reg.STC_SRC = (if s.mstate = .standby then (s.lane.get l).reg Reg.STC_SRC else satInt32 x.toInt)
        ∧ ((x.toInt < -1000000000 ∨ 1000000000 < x.toInt) → (t.lane.get l).bit Reg.STC_STAT 2 = true)
        ∧ (-1000000000 ≤ x.toInt → x.toInt ≤ 1000000000 →
          (t.lane.get l).bit Reg.STC_STAT 2 = (s.lane.get l).bit Reg.STC_STAT 2) := by
  obtain ⟨hfound, hlost⟩ := s.refind_frame x.toInt
  obtain ⟨hpend, hkept⟩ := (s.refind x.toInt).pendStep_frame x.toInt
  refine ⟨_, execSourceReturn_eq hs x, hkept.trans hlost, hfound.trans hpend, fun l hw => ?_⟩
  obtain ⟨hw', hsrc, hstat⟩ := State.refind_lane (.of_wf hw) x.toInt
  obtain ⟨hsrc', hstat'⟩ := State.pendStep_lane hw' x.toInt
  rw [hstat' 1 (by decide), hstat' 2 (by decide), hstat 1 (by decide), hstat 2 (by decide), hsrc', hsrc]
  refine ⟨by simp, rfl, fun hfar => by simp [hfar], fun hlo hhi => ?_⟩
  have hnear : ¬ (x.toInt < -1000000000 ∨ 1000000000 < x.toInt) := by omega
  simp [hnear]

end Sys2Proof.Machine
end

section
/-! PTP (R378, R379): the best master, Sync pairs and the lock, the path delay, a port whose source is lost. -/

namespace Sys2Proof.Machine

/-! ### The parts of a port -/

section Port

variable (s : State) (n : Net)

@[simp] theorem State.setPtp_ptp (f : PtpSt → PtpSt) : (s.setPtp n f).ptp n = f (s.ptp n) := by cases n <;> rfl

@[simp] theorem State.setPtp_lane (f : PtpSt → PtpSt) : (s.setPtp n f).lane = s.lane := by cases n <;> rfl

theorem State.setPtp_steady (f : PtpSt → PtpSt) : s.Steady (s.setPtp n f) := by cases n <;> exact ⟨rfl, rfl, rfl⟩

@[simp] theorem State.say_ptp (m : NetMsg) : (s.say n m).ptp n = s.ptp n := by cases n <;> rfl

@[simp] theorem State.say_lane (m : NetMsg) : (s.say n m).lane = s.lane := by cases n <;> rfl

theorem State.say_steady (m : NetMsg) : s.Steady (s.say n m) := by cases n <;> exact ⟨rfl, rfl, rfl⟩

/-- What a port said last besides Tablet telegrams. -/
def State.saidAt : Option NetMsg := match n with
  | .net1 => s.said1
  | .net2 => s.said2

@[simp] theorem State.say_saidAt (m : NetMsg) : (s.say n m).saidAt n = some m := by cases n <;> rfl

@[simp] theorem State.setPtp_saidAt (f : PtpSt → PtpSt) : (s.setPtp n f).saidAt n = s.saidAt n := by cases n <;> rfl

@[simp] theorem State.setPtp_netCfg (f : PtpSt → PtpSt) : (s.setPtp n f).netCfg n = s.netCfg n := by cases n <;> rfl

end Port

theorem State.Steady.measuring {s t : State} (h : s.Steady t) : t.measuring = s.measuring := by
  obtain ⟨hd, hc, -⟩ := h
  have hmode : t.isActive = s.isActive := by
    funext l
    rw [State.isActive, State.mode, hc, State.isActive, State.mode]
  rw [State.measuring, State.mstate, hd, State.active, hmode, State.measuring, State.active]

/-! ### Messages that change nothing more (R373, R378) -/

theorem State.fromMaster_eq_false {s : State} {n : Net} {h : PtpHead} (ht : s.takesPtp n h = false) : s.fromMaster n h = false := by
  rw [State.fromMaster, ht, Bool.false_and]

theorem ptp_foreign {s : State} {n : Net} {h : PtpHead} (ht : s.takesPtp n h = false) (a : Announce) (seq : Half) (t1 : DWord)
    (t2 t3 : LaneVec DWord) (two : Bool) :
    ∀ i ∈ [Instr.ptpAnnounce n h a, .ptpSync n h seq two t1 t2, .ptpFollowUp n h seq t1, .ptpDelayResp n h seq t3 t1],
      exec i s = .next ((s.netHeard n (.all true)).foreign n) := by
  have ht' : (s.netHeard n (.all true)).takesPtp n h = false := ht
  have hm : (s.netHeard n (.all true)).fromMaster n h = false := State.fromMaster_eq_false ht'
  have hannounce : exec (.ptpAnnounce n h a) s = .next ((s.netHeard n (.all true)).foreign n) := by
    change execPtpAnnounce n h a s = _
    unfold execPtpAnnounce
    extract_lets u
    split
    · exact if_pos (by rw [ht']; rfl)
    · rfl
  have hsync : exec (.ptpSync n h seq two t1 t2) s = .next ((s.netHeard n (.all true)).foreign n) := if_pos (by rw [hm]; rfl)
  have hfollow : exec (.ptpFollowUp n h seq t1) s = .next ((s.netHeard n (.all true)).foreign n) := if_pos (by rw [hm]; rfl)
  have hdelay : exec (.ptpDelayResp n h seq t3 t1) s = .next ((s.netHeard n (.all true)).foreign n) := if_pos (by rw [hm]; rfl)
  simp only [List.forall_mem_cons]
  exact ⟨hannounce, hsync, hfollow, hdelay, fun i hi => by cases hi⟩

/-! ### The best master (R378) -/

theorem ptpAnnounce_wins {s : State} {n : Net} {h : PtpHead} {a : Announce} {i : Nat} (ht : s.takesPtp n h = true)
    (hi : s.masterIdx n h.master = some i)
    (hbest : (s.ptp n).master = none ∨ ∃ j, (s.ptp n).master = some j ∧ j ≠ i
      ∧ betterClock a (s.ptp n).best h.master ((s.netCfg n).masters.getD j 0) = true) :
    exec (.ptpAnnounce n h a) s
      = .next ((s.netHeard n (.all true)).setPtp n fun _ => { st := 2, master := some i, best := a }) := by
  change execPtpAnnounce n h a s = _
  unfold execPtpAnnounce
  extract_lets u q
  have ht' : (!u.takesPtp n h) ≠ true := by
    rw [show u.takesPtp n h = true from ht]
    decide
  have hi' : u.masterIdx n h.master = some i := hi
  have hq : q = s.ptp n := rfl
  rw [hi']
  refine (if_neg ht').trans (congrArg Host.Outcome.next (if_pos ?_))
  rw [hq]
  rcases hbest with hnone | ⟨j, hj, hne, hbetter⟩
  · rw [hnone]
  · rw [hj]
    exact Bool.and_eq_true_iff.2 ⟨bne_iff_ne.2 hne, hbetter⟩

/-! ### A Sync pair (R378, R379) -/

/-- A port with a complete pair, its Delay_Req on the way. -/
def PtpSt.paired (q : PtpSt) (t1 : Nat) (t2 : LaneVec Nat) : PtpSt :=
  { q with t1 := t1, t2 := t2, gotPair := true, waitFu := false, missed := 0, reqSeq := q.reqSeq + 1, noResp := q.noResp + 1 }

/-- A complete pair noted at its port, and the Delay_Req that leaves. -/
def State.notePair (s : State) (n : Net) (t1 : Nat) (t2 : LaneVec Nat) : State :=
  let s := s.setPtp n fun q => q.paired t1 t2
  s.say n (.delayReq (s.netCfg n).ptpV6 (s.netCfg n).domain (s.ptp n).reqSeq)

/-- The offset of each lane that a pair gives, by its path delay. -/
def PtpSt.offsets (q : PtpSt) (t1 : Nat) (t2 : LaneVec Nat) : LaneVec Int := LaneVec.ofFn fun l => diff64 (t2.get l) t1 - q.delay.get l

/-- The run towards lock after an agreed offset. -/
def PtpSt.nextRun (q : PtpSt) (x : Int) : Nat := if -10000 ≤ x ∧ x ≤ 10000 then min 16 (q.run + 1) else 0

/-- The port holds its lock, or 16 pairs run. -/
def PtpSt.locks (q : PtpSt) (x : Int) : Bool := q.locked || q.nextRun x == 16

/-- A port with the offsets of a pair. -/
def PtpSt.taken (q : PtpSt) (off : LaneVec Int) (run : Nat) (locks : Bool) : PtpSt := { q with off := off, run := run, locked := locks }

/-- The offsets of a pair at a slave port: each lane's, the agreed one, the run towards lock and the lock. -/
def State.takeOffsets (s : State) (n : Net) (off : LaneVec Int) : State :=
  let x := agreedOffset s.measuring off
  let run := (s.ptp n).nextRun x
  let locks := (s.ptp n).locks x
  let s := s.setPtp n fun q => q.taken off run locks
  let s := s.updAll fun l L => L.setReg (Reg.PTP_OFFSET (netIdx n)) (satInt32 (off.get l))
  let s := if s.mstate = .standby then s else s.setSrcOffset x
  if locks then s.setStc 0 true else s

theorem State.ptpPair_uncalibrated {s : State} {n : Net} (h : (s.ptp n).st ≠ 3) (t1 : Nat) (t2 : LaneVec Nat) :
    s.ptpPair n t1 t2 = s.notePair n t1 t2 := if_pos (by simpa using h)

theorem State.ptpPair_slave {s : State} {n : Net} (h : (s.ptp n).st = 3) (hr : (s.ptp n).noResp < 4) (t1 : Nat) (t2 : LaneVec Nat) :
    s.ptpPair n t1 t2 = (s.notePair n t1 t2).takeOffsets n ((s.ptp n).offsets t1 t2) := by
  have hst : ¬ ((s.notePair n t1 t2).ptp n).st ≠ 3 := by simpa [State.notePair, PtpSt.paired] using h
  have hresp : ¬ 4 < ((s.notePair n t1 t2).ptp n).noResp := by
    simp only [State.notePair, State.say_ptp, State.setPtp_ptp, PtpSt.paired]
    omega
  have hdelay : ((s.notePair n t1 t2).ptp n).offsets t1 t2 = (s.ptp n).offsets t1 t2 := by
    simp only [PtpSt.offsets, State.notePair, State.say_ptp, State.setPtp_ptp, PtpSt.paired]
  rw [← hdelay]
  exact (if_neg hst).trans (if_neg hresp)

/-- What a pair leaves at its port whatever the port's state. -/
structure State.PairTaken (s : State) (n : Net) (t : State) : Prop where
  steady  : s.Steady t
  gotPair : (t.ptp n).gotPair = true
  waitFu  : (t.ptp n).waitFu = false
  missed  : (t.ptp n).missed = 0
  said    : t.saidAt n = some (.delayReq (s.netCfg n).ptpV6 (s.netCfg n).domain (t.ptp n).reqSeq)

theorem State.notePair_taken (s : State) (n : Net) (t1 : Nat) (t2 : LaneVec Nat) :
    s.PairTaken n (s.notePair n t1 t2) ∧ (s.notePair n t1 t2).lane = s.lane ∧ ((s.notePair n t1 t2).ptp n).run = (s.ptp n).run := by
  unfold State.notePair
  extract_lets u
  have hu : u.ptp n = (s.ptp n).paired t1 t2 := State.setPtp_ptp ..
  refine ⟨⟨(s.setPtp_steady n _).trans (u.say_steady n _), ?_, ?_, ?_, ?_⟩, ?_, ?_⟩
  · rw [State.say_ptp, hu, PtpSt.paired]
  · rw [State.say_ptp, hu, PtpSt.paired]
  · rw [State.say_ptp, hu, PtpSt.paired]
  · rw [State.say_saidAt, State.say_ptp, State.setPtp_netCfg]
  · rw [State.say_lane, State.setPtp_lane]
  · rw [State.say_ptp, hu, PtpSt.paired]

theorem State.takeOffsets_frame (s : State) (n : Net) (off : LaneVec Int) :
    ∃ run locks lane, s.takeOffsets n off = { s.setPtp n fun q => q.taken off run locks with lane := lane }
      ∧ run = (s.ptp n).nextRun (agreedOffset s.measuring off) ∧ locks = (s.ptp n).locks (agreedOffset s.measuring off) := by
  unfold State.takeOffsets
  extract_lets x run locks u v w
  have hv : ∃ lane, v = { u with lane := lane } := ⟨_, rfl⟩
  have hw : ∃ lane, w = { u with lane := lane } := by
    unfold w
    split
    · exact hv
    · exact ⟨_, rfl⟩
  obtain ⟨lane, hw⟩ := hw
  clear_value w
  split
  · exact ⟨run, locks, _, by rw [hw]; rfl, rfl, rfl⟩
  · exact ⟨run, locks, lane, hw, rfl, rfl⟩

/-- The offsets leave what the pair has left at its port. -/
theorem State.PairTaken.takeOffsets {s t : State} {n : Net} (h : s.PairTaken n t) (off : LaneVec Int) :
    s.PairTaken n (t.takeOffsets n off) := by
  obtain ⟨run, locks, lane, he, -, -⟩ := t.takeOffsets_frame n off
  rw [he]
  have hptp : ({ t.setPtp n fun q => q.taken off run locks with lane := lane } : State).ptp n = (t.ptp n).taken off run locks :=
    t.setPtp_ptp n _
  have hsaid : ({ t.setPtp n fun q => q.taken off run locks with lane := lane } : State).saidAt n = t.saidAt n := t.setPtp_saidAt n _
  exact ⟨h.steady.trans (t.setPtp_steady n _), by rw [hptp]; exact h.gotPair, by rw [hptp]; exact h.waitFu,
    by rw [hptp]; exact h.missed, by rw [hptp, hsaid]; exact h.said⟩

/-- What the offsets leave at a slave port and in the lanes: the lock once 16 pairs run, the agreed offset in `STC_SRC`. -/
theorem State.takeOffsets_slave (s : State) (n : Net) (off : LaneVec Int) :
    ((s.takeOffsets n off).ptp n).off = off
      ∧ ((s.takeOffsets n off).ptp n).run = (s.ptp n).nextRun (agreedOffset s.measuring off)
      ∧ ((s.ptp n).nextRun (agreedOffset s.measuring off) = 16 → ((s.takeOffsets n off).ptp n).locked = true
        ∧ ∀ l : Lane, ((s.takeOffsets n off).lane.get l).bit Reg.STC_STAT 0 = true)
      ∧ (s.mstate ≠ .standby → ∀ l : Lane, s.RegsWf l →
        ((s.takeOffsets n off).lane.get l).reg Reg.STC_SRC = satInt32 (agreedOffset s.measuring off)) := by
  have hptp : (s.takeOffsets n off).ptp n = (s.ptp n).taken off ((s.ptp n).nextRun (agreedOffset s.measuring off))
      ((s.ptp n).locks (agreedOffset s.measuring off)) := by
    obtain ⟨run, locks, lane, he, rfl, rfl⟩ := s.takeOffsets_frame n off
    rw [he]
    exact s.setPtp_ptp n _
  have hlocks : (s.ptp n).nextRun (agreedOffset s.measuring off) = 16 → (s.ptp n).locks (agreedOffset s.measuring off) = true := by
    intro h16
    rw [PtpSt.locks, h16, beq_self_eq_true, Bool.or_true]
  rw [hptp]
  refine ⟨rfl, rfl, fun h16 => ⟨hlocks h16, fun l => ?_⟩, fun hm l hw => ?_⟩
  · unfold State.takeOffsets
    extract_lets x run locks u v w
    rw [if_pos (hlocks h16), State.setStc_lane]
    exact LaneSt.stcStat_bit_setBits _ (by decide)
  · unfold State.takeOffsets
    extract_lets x run locks u v w
    have hsteady : s.Steady v := (s.setPtp_steady n _).trans ⟨rfl, rfl, rfl⟩
    have hvw : v.RegsWf l := State.RegsWf.updAll_setReg (s := u) (by rw [State.RegsWf, State.setPtp_lane]; exact hw) _ _
    have hsrc : (w.lane.get l).reg Reg.STC_SRC = satInt32 x := by
      unfold w
      rw [if_neg (by rw [hsteady.mstate]; exact hm)]
      exact State.stcSrc_setSrcOffset hvw x
    split
    · rw [State.stcSrc_setStc, hsrc]
    · exact hsrc

/-- A pair at a port that no fourth one in a row leaves without a Delay_Resp. -/
theorem State.ptpPair_taken {s : State} {n : Net} (h : (s.ptp n).st ≠ 3 ∨ (s.ptp n).noResp < 4) (t1 : Nat) (t2 : LaneVec Nat) :
    s.PairTaken n (s.ptpPair n t1 t2) := by
  obtain ⟨hpair, -, -⟩ := s.notePair_taken n t1 t2
  by_cases hst : (s.ptp n).st = 3
  · rw [State.ptpPair_slave hst (h.resolve_left fun hn => hn hst)]
    exact hpair.takeOffsets _
  · rw [State.ptpPair_uncalibrated hst]
    exact hpair

/-- A pair at a slave port leaves its offsets. -/
theorem State.ptpPair_offsets {s : State} {n : Net} {t1 : Nat} {t2 : LaneVec Nat} {x : Int} (h : (s.ptp n).st = 3)
    (hr : (s.ptp n).noResp < 4) (hx : agreedOffset s.measuring ((s.ptp n).offsets t1 t2) = x) :
    ((s.ptpPair n t1 t2).ptp n).off = (s.ptp n).offsets t1 t2 ∧ ((s.ptpPair n t1 t2).ptp n).run = (s.ptp n).nextRun x
      ∧ ((s.ptp n).nextRun x = 16 → ((s.ptpPair n t1 t2).ptp n).locked = true
        ∧ ∀ l : Lane, ((s.ptpPair n t1 t2).lane.get l).bit Reg.STC_STAT 0 = true)
      ∧ (s.mstate ≠ .standby → ∀ l : Lane, s.RegsWf l → ((s.ptpPair n t1 t2).lane.get l).reg Reg.STC_SRC = satInt32 x) := by
  obtain ⟨hpair, hlane, hrun⟩ := s.notePair_taken n t1 t2
  have hnext : ((s.notePair n t1 t2).ptp n).nextRun x = (s.ptp n).nextRun x := by rw [PtpSt.nextRun, hrun, PtpSt.nextRun]
  have hslave := (s.notePair n t1 t2).takeOffsets_slave n ((s.ptp n).offsets t1 t2)
  rw [hpair.steady.measuring, hx, hnext, hpair.steady.mstate] at hslave
  rw [State.ptpPair_slave h hr]
  obtain ⟨hoff, hruns, hlock, hsrc⟩ := hslave
  exact ⟨hoff, hruns, hlock, fun hm l hw => hsrc hm l (by rw [State.RegsWf, hlane]; exact hw)⟩

/-! ### The messages of a master (R378, R379) -/

section Master

variable {s : State} {n : Net} {h : PtpHead} {seq : Half} {t1 : DWord} {t2 : LaneVec DWord}

theorem syncInRate_of (hlo : -7 ≤ h.interval.toInt) (hhi : h.interval.toInt ≤ 1) : syncInRate h = true := by
  simp [syncInRate, hlo, hhi]

/-- A Sync of the master while none waits for its Follow_Up. -/
theorem ptpSync_eq (two : Bool) (hm : s.fromMaster n h = true) (hr : syncInRate h = true) (hw : (s.ptp n).waitFu = false) :
    exec (.ptpSync n h seq two t1 t2) s = .next (if two then (s.netHeard n (.all true)).setPtp n fun q =>
        { q with seq := seq, wait2 := LaneVec.ofFn fun l => (t2.get l).toNat, waitFu := true }
      else (s.netHeard n (.all true)).ptpPair n t1.toNat (LaneVec.ofFn fun l => (t2.get l).toNat)) := by
  change execPtpSync n h seq two t1 t2 s = _
  unfold execPtpSync
  extract_lets v u w
  have hw' : w = u := if_neg (by rw [show (u.ptp n).waitFu = false from hw]; decide)
  rw [if_neg (by rw [show u.fromMaster n h = true from hm, hr]; decide), hw']
  cases two with
  | true => rfl
  | false => rfl

theorem ptpFollowUp_eq (hm : s.fromMaster n h = true) (hw : (s.ptp n).waitFu = true) (hs : (s.ptp n).seq = seq) :
    exec (.ptpFollowUp n h seq t1) s = .next ((s.netHeard n (.all true)).ptpPair n t1.toNat (s.ptp n).wait2) := by
  change execPtpFollowUp n h seq t1 s = _
  unfold execPtpFollowUp
  extract_lets u q
  have hq : q = s.ptp n := rfl
  exact if_neg (by rw [show u.fromMaster n h = true from hm, hq, hw, hs]; simp)

theorem ptpDelayResp_eq (hm : s.fromMaster n h = true) (hg : (s.ptp n).gotPair = true) (hs : (s.ptp n).reqSeq = seq)
    (t3 : LaneVec DWord) (t4 : DWord) :
    exec (.ptpDelayResp n h seq t3 t4) s = .next ((s.netHeard n (.all true)).setPtp n fun q => { q with
      st := 3, noResp := 0
      delay := LaneVec.ofFn fun l => (diff64 (q.t2.get l) q.t1 + diff64 t4.toNat (t3.get l).toNat) / 2 }) := by
  change execPtpDelayResp n h seq t3 t4 s = _
  unfold execPtpDelayResp
  extract_lets u q
  have hq : q = s.ptp n := rfl
  exact if_neg (by rw [show u.fromMaster n h = true from hm, hq, hg, hs]; simp)

end Master

theorem State.netHeard_steady (s : State) (n : Net) (ls : LaneSet) : s.Steady (s.netHeard n ls) := ⟨rfl, rfl, rfl⟩

theorem State.RegsWf.netHeard {s : State} {l : Lane} {n : Net} (h : s.RegsWf l) : (s.netHeard n (.all true)).RegsWf l :=
  h.updAll_setReg ..

/-! ### The source of a port lost (R379) -/

theorem State.notRaised_net (s : State) (l : Lane) (n : Net) (bit data : Nat) :
    s.notRaised l (Blk.ofOff (Base.net (netIdx n))) bit data = false := by
  have hpage1 : pageOf (Blk.base (Blk.ofOff (Base.net 0))) = some (.net, 0) := by decide +kernel
  have hpage2 : pageOf (Blk.base (Blk.ofOff (Base.net 1))) = some (.net, 1) := by decide +kernel
  cases n with
  | net1 =>
    change s.notRaised l (Blk.ofOff (Base.net 0)) bit data = false
    unfold State.notRaised
    rw [hpage1]
  | net2 =>
    change s.notRaised l (Blk.ofOff (Base.net 1)) bit data = false
    unfold State.notRaised
    rw [hpage2]

theorem State.Reacts.ptp {X : Lane → Prop} {s t : State} (h : s.Reacts X t) (n : Net) : t.ptp n = s.ptp n := by
  cases n with
  | net1 => exact (congrArg State.ptp1 h.unmoved :)
  | net2 => exact (congrArg State.ptp2 h.unmoved :)

/-- A port that is no slave and holds no lock. -/
def PtpSt.dropped (q : PtpSt) : PtpSt :=
  { q with st := if q.master.isSome then 2 else 1, locked := false, run := 0, waitFu := false, gotPair := false, noResp := 0 }

/-- The port is dropped and the source counts as lost; what is left is to report it. -/
def State.dropPort (s : State) (n : Net) : State := ((s.setPtp n PtpSt.dropped).setStc 0 false).loseSource

theorem State.losePtp_eq (s : State) (n : Net) : s.losePtp n = (s.dropPort n).reportAll (Base.net (netIdx n)) 1 0 := rfl

theorem State.loseSource_srcLost (s : State) : s.loseSource.srcLost.isSome = true := by
  unfold State.loseSource
  cases s.srcLost with
  | none => rfl
  | some t => rfl

theorem State.losePtp_loses (s : State) (n : Net) : ((s.losePtp n).ptp n).locked = false ∧ ((s.losePtp n).ptp n).run = 0
    ∧ (s.losePtp n).srcLost.isSome = true
    ∧ ∀ l : Lane, s.parts.get l = true → (s.losePtp n).ErrSet l (Blk.ofOff (Base.net (netIdx n))) 1 := by
  have hreport := State.Reacts.reportAll (X := fun _ => True) (s.dropPort n) (fun _ => trivial) (Base.net (netIdx n)) 1 0
  have hsteady : s.Steady (s.dropPort n) := (s.setPtp_steady n _).trans ⟨rfl, rfl, rfl⟩
  have hdrop : (s.dropPort n).ptp n = (s.ptp n).dropped := s.setPtp_ptp n PtpSt.dropped
  have hlost : ((s.dropPort n).reportAll (Base.net (netIdx n)) 1 0).srcLost = (s.dropPort n).srcLost :=
    (congrArg State.srcLost hreport.unmoved :)
  rw [State.losePtp_eq, hreport.ptp n, hlost, hdrop]
  exact ⟨rfl, rfl, State.loseSource_srcLost _, fun l hp =>
    State.reportAll_errSet _ _ 0 (by decide) (fun s l => s.notRaised_net l n 1 0) l (by rwa [hsteady.parts])⟩

/-- Four intervals without a pair in all. -/
theorem State.missPair_fourth {s : State} {n : Net} (h : (s.ptp n).missed < 4) :
    ∃ u, s.Steady u ∧ s.missPair n (4 - (s.ptp n).missed) = u.losePtp n := by
  unfold State.missPair
  extract_lets was u v
  have hu : s.Steady u := ⟨rfl, rfl, rfl⟩
  exact ⟨v, hu.trans (u.setPtp_steady n _), if_pos ⟨h, by omega⟩⟩

theorem ptpLost_loses {s : State} {n : Net} (hr : s.runsPtp n = true) (h : (s.ptp n).missed < 4) :
    ∃ t, exec (.ptpLost n) s = .next t ∧ (t.ptp n).locked = false ∧ (t.ptp n).run = 0 ∧ t.srcLost.isSome = true
      ∧ ∀ l : Lane, s.parts.get l = true → t.ErrSet l (Blk.ofOff (Base.net (netIdx n))) 1 := by
  have hexec : exec (.ptpLost n) s = .next (s.missPair n (4 - (s.ptp n).missed)) := by
    change execPtpLost n s = _
    unfold execPtpLost
    rw [if_neg (by rw [hr]; decide), if_pos h]
  obtain ⟨u, hu, hlose⟩ := State.missPair_fourth h
  obtain ⟨hlocked, hrun, hlost, herr⟩ := u.losePtp_loses n
  exact ⟨_, hexec.trans (congrArg Host.Outcome.next hlose), hlocked, hrun, hlost, fun l hp => herr l (by rwa [hu.parts])⟩

theorem ptpLost_ignored {s : State} {n : Net} (hr : s.runsPtp n = false) : exec (.ptpLost n) s = .next s := if_pos (by rw [hr]; rfl)

/-! ### The clock and its source -/

/-- A pair from the master, complete at once or by its Follow_Up (R379). -/
theorem pair_exec {s : State} {n : Net} {h : PtpHead} {seq : Half} {t1 : DWord} {t2 : LaneVec DWord} {i : Instr} {w : LaneVec Nat}
    (hm : s.fromMaster n h = true)
    (hi : (i = .ptpSync n h seq false t1 t2 ∧ (s.ptp n).waitFu = false
        ∧ -7 ≤ h.interval.toInt ∧ h.interval.toInt ≤ 1 ∧ w = LaneVec.ofFn fun l => (t2.get l).toNat)
      ∨ (i = .ptpFollowUp n h seq t1 ∧ (s.ptp n).waitFu = true ∧ (s.ptp n).seq = seq ∧ w = (s.ptp n).wait2)) :
    exec i s = .next ((s.netHeard n (.all true)).ptpPair n t1.toNat w) := by
  rcases hi with ⟨rfl, hw, hlo, hhi, rfl⟩ | ⟨rfl, hw, hs, rfl⟩
  · exact ptpSync_eq false hm (syncInRate_of hlo hhi) hw
  · exact ptpFollowUp_eq hm hw hs

/-- Settles O45: each command follows one branch of its meaning; a report leaves the registers of the clock and the ports. -/
theorem clockFollowsItsSource : Obligations.ClockFollowsItsSource := by
  refine ⟨fun s hs => ⟨fun lost hl hlate => holdover_follows hs hl hlate, holdover_waits, sourceReturn_follows hs⟩, fun s n h => ?_⟩
  intro u
  refine ⟨fun a i => ptpAnnounce_wins, fun a seq t1 t2 t3 two i ht => ptp_foreign ht a seq t1 t2 t3 two i,
    fun hm seq t1 t2 => ⟨fun hlo hhi hw => ptpSync_eq true hm (syncInRate_of hlo hhi) hw, fun i w hi hresp => ?pair, fun hg hq t3 => ?delay⟩,
    ptpLost_loses, ptpLost_ignored⟩
  case pair =>
    have ht := State.ptpPair_taken (s := u) (n := n) hresp t1.toNat w
    refine ⟨_, pair_exec hm hi, (s.netHeard_steady n _).trans ht.steady, ht.gotPair, ht.waitFu, ht.missed, ht.said, fun hst => ?_,
      fun hst => ?_⟩
    · rw [State.ptpPair_uncalibrated (s := u) hst]
      exact (u.notePair_taken n _ _).2.1
    · obtain ⟨hoff, hrun, hlock, hsrc⟩ := State.ptpPair_offsets (s := u) (n := n) (t1 := t1.toNat) (t2 := w) hst
        (hresp.resolve_left fun hn => hn hst) rfl
      intro off near
      have hnext : (s.ptp n).nextRun (agreedOffset s.measuring off) = if near then min 16 ((s.ptp n).run + 1) else 0 := by
        simp only [PtpSt.nextRun, near, decide_eq_true_eq]
      refine ⟨hoff, hrun.trans hnext, fun h15 hnear => hlock (hnext.trans ?_),
        fun hmode l hw => hsrc hmode l (State.RegsWf.of_wf hw).netHeard⟩
      rw [if_pos hnear, h15]
      rfl
  case delay =>
    have hptp := u.setPtp_ptp n fun q => { q with
      st := 3, noResp := 0
      delay := LaneVec.ofFn fun l => (diff64 (q.t2.get l) q.t1 + diff64 t1.toNat (t3.get l).toNat) / 2 }
    refine ⟨_, ptpDelayResp_eq hm hg hq t3 t1, u.setPtp_lane n _, (s.netHeard_steady n _).trans (u.setPtp_steady n _), ?_, fun l => ?_⟩
    · rw [hptp]
    · rw [hptp, LaneVec.get_ofFn]
      rfl

end Sys2Proof.Machine
end

section
/-! Telegrams of the station network (R358, R369): a CLOSE that ends a handshake as its fifth failure in a row. -/

namespace Sys2Proof.Machine

/-- Session 0 of category 3 on NET1 with station 5, in which this module is the initiator. -/
def renewedSession : SessCfg :=
  { num := 0, cat := 3, net1 := true, net2 := false, initiator := true, report := false, testOk := false, tExp := 500, window := 64,
    peer := 5, addr1 := 1, addr2 := 1, saltTx := 0, saltRx := 0, period := 1, len := 32, restart := false }

/-- CLOSE with reason 1 of station 5 to station 9 under that session, with both lane codes and its MAC, as lane A receives it. -/
def closeOfRenewal : Dgram :=
  { net := .net1, srcAddr := 1, dstAddr := 0, udp := true, srcPort := 5381, dstPort := 5381, lanes := ⟨true, false, false⟩
    bytes := [0x31, 0x23, 0, 0, 0, 0, 0, 5, 0, 0, 0, 9, 0, 0, 0, 1, 0, 0, 0, 0, 0, 0, 0, 0, 0, 0, 0, 5, 0, 4, 0, 0, 0, 0, 0, 1,
      0x81, 0x14, 0x06, 0xA8, 0xE8, 0x53, 0xC0, 0x04, 0xE3, 0x74, 0xF8, 0x52, 0x2D, 0x00, 0xCF, 0x54] }

/-- RUN at station 9, HS_FAIL raised to MODULE_SAFE (R427): the session renews its keys and waits for HS_KEY, four handshakes in a row
have failed. -/
def fourthFailureState : State :=
  { State.reset with
    drv := { State.reset.drv with mstate := .run }, file := { blankFile with stationId := 9, sessions := [renewedSession] }
    classes := [(Base.tb * 32, 4)]
    lane := .all { LaneSt.reset with clock := 10000, sess := [(0, { st := .renewing, renew := true, hs := .helloSent, fails := 4 })] } }

/-- The module state after a command. -/
def mstateAfter (c : Instr) (s : State) : Option MState :=
  match exec c s with
  | .next u => some u.mstate
  | _ => none

set_option maxRecDepth 20000 in
/-- The CLOSE is the fifth failure: HS_FAIL is reported, and its class takes the module into SAFE. -/
theorem mstateAfter_closeOfRenewal : mstateAfter (.close closeOfRenewal) fourthFailureState = some .safe := by decide +kernel

theorem closeOfRenewal_delivered : fourthFailureState.Delivers closeOfRenewal renewedSession := by
  unfold State.Delivers
  decide +kernel

/-- Refutes O51: a CLOSE that ends a handshake counts as its failure (R369), and the fifth in a row is reported as HS_FAIL. A file or
a write may give that detector a class above NOTE (R427); the reaction then changes the module's drive or a lane's state, and the module
that closes the session is not steady. -/
theorem not_telegramsTakeEffect : ¬ Obligations.TelegramsTakeEffect := by
  intro h
  obtain ⟨hdelivered, -⟩ := h fourthFailureState closeOfRenewal renewedSession (fun l => by cases l <;> decide)
    (fun l => by cases l <;> decide)
  obtain ⟨-, -, hclose⟩ := hdelivered closeOfRenewal_delivered
  obtain ⟨t, ht, ⟨hdrv, -⟩, -⟩ := hclose (by decide) rfl (by decide)
  have hsafe := mstateAfter_closeOfRenewal
  rw [mstateAfter, ht] at hsafe
  have hm : t.mstate = .safe := Option.some.inj hsafe
  rw [State.mstate, hdrv] at hm
  cases hm

end Sys2Proof.Machine
end

section
/-! Local field channels (R240 to R283): banks and channels written and read, and what the reactions (R420 to R447) and the codes of
channels leave of them. -/

namespace Sys2Proof.Machine

/-! ### Banks and channels, read after a write -/

/-- The banks are in their canonical form. -/
def State.BanksWf (s : State) : Prop := SMap.wf (fun _ => ({} : BankSt)) s.fld.bank = true

/-- The channels are in their canonical form. -/
def State.ChansWf (s : State) : Prop := SMap.wf (fun _ => ({} : ChanSt)) s.fld.chan = true

theorem State.BanksWf.setBank {s : State} (h : s.BanksWf) (b : Nat) (f : BankSt → BankSt) : (s.setBank b f).BanksWf :=
  SMap.put_wf _ _ _ _ h

theorem State.ChansWf.setChan {s : State} (h : s.ChansWf) (n : Nat) (f : ChanSt → ChanSt) : (s.setChan n f).ChansWf :=
  SMap.put_wf _ _ _ _ h

theorem State.bank_setBank_self {s : State} (h : s.BanksWf) (b : Nat) (f : BankSt → BankSt) : (s.setBank b f).bank b = f (s.bank b) :=
  SMap.get_put_self _ _ _ _ h

theorem State.bank_setBank_of_ne (s : State) {b c : Nat} (f : BankSt → BankSt) (h : c ≠ b) : (s.setBank b f).bank c = s.bank c :=
  SMap.get_put_of_ne _ _ _ _ _ h

theorem State.chan_setChan_self {s : State} (h : s.ChansWf) (n : Nat) (f : ChanSt → ChanSt) : (s.setChan n f).chan n = f (s.chan n) :=
  SMap.get_put_self _ _ _ _ h

theorem State.chan_setChan_of_ne (s : State) {n m : Nat} (f : ChanSt → ChanSt) (h : m ≠ n) : (s.setChan n f).chan m = s.chan m :=
  SMap.get_put_of_ne _ _ _ _ _ h

/-- An output is not energised while the isolator of its bank is open. -/
theorem State.energised_of_open {s : State} {n : Nat} (h : (s.bank (n / 16)).closed = false) : s.energised n = false := by
  rw [State.energised, h, Bool.and_false]

/-- An output is not energised while a trip holds its ladder open (R260). -/
theorem State.energised_of_heldOff {s : State} {n : Nat} (h : (s.chan n).heldOff = true) : s.energised n = false := by
  have hshut (sw : Nat) : s.switchShut n sw = false := by simp [State.switchShut, h]
  simp [State.energised, State.pathOn, hshut]

/-! ### What reactions and codes leave of the field -/

/-- The supply of a bank stands as it was found, and an isolator that is latched open stays so (R244, R245). -/
structure BankSt.Keeps (q r : BankSt) : Prop where
  low     : r.low = q.low
  high    : r.high = q.high
  latched : q.latched = true → r.latched = true
  shut    : q.latched = true → q.closed = false → r.closed = false

/-- Every code of a channel goes on to apply; its trips stand, and so does the hold of its ladder (R260, R277). -/
structure ChanSt.Keeps (c d : ChanSt) : Prop where
  codes   : ∀ x ∈ c.codes, x ∈ d.codes
  trips   : d.trips = c.trips
  heldOff : d.heldOff = c.heldOff
  offTill : d.offTill = c.offTill

theorem BankSt.Keeps.refl (q : BankSt) : q.Keeps q := ⟨rfl, rfl, id, fun _ => id⟩

theorem BankSt.Keeps.trans {q r u : BankSt} (h : q.Keeps r) (k : r.Keeps u) : q.Keeps u :=
  ⟨k.low.trans h.low, k.high.trans h.high, k.latched ∘ h.latched, fun hl hc => k.shut (h.latched hl) (h.shut hl hc)⟩

theorem ChanSt.Keeps.refl (c : ChanSt) : c.Keeps c := ⟨fun _ => id, rfl, rfl, rfl⟩

theorem ChanSt.Keeps.trans {c d e : ChanSt} (h : c.Keeps d) (k : d.Keeps e) : c.Keeps e :=
  ⟨fun x hx => k.codes x (h.codes x hx), k.trips.trans h.trips, k.heldOff.trans h.heldOff, k.offTill.trans h.offTill⟩

theorem ChanSt.Keeps.take (c : ChanSt) (code switch partner : Nat) : c.Keeps (c.take code switch partner) := by
  refine ⟨fun x hx => ?_, rfl, rfl, rfl⟩
  by_cases e : x = code
  · exact e ▸ List.mem_cons_self
  · exact List.mem_cons_of_mem _ (List.mem_filter.2 ⟨hx, by simpa using e⟩)

theorem ChanSt.Keeps.note (t : RunTest) (c : ChanSt) : c.Keeps (t.note c) := by
  unfold RunTest.note
  split <;> exact ⟨fun _ => id, rfl, rfl, rfl⟩

/-- The file stands, the banks and the channels stay in their canonical form, and what a reaction keeps of each is kept. -/
structure State.KeepsField (s t : State) : Prop where
  file : t.file = s.file
  bank : s.BanksWf → t.BanksWf ∧ ∀ b, (s.bank b).Keeps (t.bank b)
  chan : s.ChansWf → t.ChansWf ∧ ∀ n, (s.chan n).Keeps (t.chan n)

namespace State.KeepsField

variable {s t u : State}

/-- A change outside the banks and channels. -/
theorem of_same (hfile : t.file = s.file) (hbank : t.fld.bank = s.fld.bank) (hchan : t.fld.chan = s.fld.chan) : s.KeepsField t where
  file := hfile
  bank h := by
    unfold State.BanksWf State.bank
    rw [hbank]
    exact ⟨h, fun _ => .refl _⟩
  chan h := by
    unfold State.ChansWf State.chan
    rw [hchan]
    exact ⟨h, fun _ => .refl _⟩

theorem refl (s : State) : s.KeepsField s := of_same rfl rfl rfl

theorem trans (h : s.KeepsField t) (k : t.KeepsField u) : s.KeepsField u where
  file := k.file.trans h.file
  bank hw :=
    have ⟨ht, hst⟩ := h.bank hw
    have ⟨hu, htu⟩ := k.bank ht
    ⟨hu, fun b => (hst b).trans (htu b)⟩
  chan hw :=
    have ⟨ht, hst⟩ := h.chan hw
    have ⟨hu, htu⟩ := k.chan ht
    ⟨hu, fun n => (hst n).trans (htu n)⟩

/-- What every step of a fold keeps, the fold keeps. -/
theorem foldl {α : Type} {g : State → α → State} (h : ∀ (s : State) (a : α), s.KeepsField (g s a)) :
    ∀ (xs : List α) (s : State), s.KeepsField (xs.foldl g s)
  | [], s => refl s
  | x :: xs, s => (h s x).trans (foldl h xs (g s x))

theorem ite {c : Prop} [Decidable c] {a b : State} (ha : s.KeepsField a) (hb : s.KeepsField b) : s.KeepsField (if c then a else b) := by
  split
  · exact ha
  · exact hb

theorem setBank (s : State) (b : Nat) {f : BankSt → BankSt} (h : (s.bank b).Keeps (f (s.bank b))) : s.KeepsField (s.setBank b f) where
  file := rfl
  bank hw := ⟨hw.setBank b f, fun c => by
    by_cases e : c = b
    · rw [e, State.bank_setBank_self hw]
      exact h
    · rw [s.bank_setBank_of_ne f e]
      exact .refl _⟩
  chan hw := ⟨hw, fun _ => .refl _⟩

theorem setChan (s : State) (n : Nat) {f : ChanSt → ChanSt} (h : (s.chan n).Keeps (f (s.chan n))) : s.KeepsField (s.setChan n f) where
  file := rfl
  bank hw := ⟨hw, fun _ => .refl _⟩
  chan hw := ⟨hw.setChan n f, fun m => by
    by_cases e : m = n
    · rw [e, State.chan_setChan_self hw]
      exact h
    · rw [s.chan_setChan_of_ne f e]
      exact .refl _⟩

/-! ### Changes of the lanes -/

theorem updIn (s : State) (ls : LaneSet) (f : Lane → LaneSt → LaneSt) : s.KeepsField (s.updIn ls f) := of_same rfl rfl rfl

theorem updAll (s : State) (f : Lane → LaneSt → LaneSt) : s.KeepsField (s.updAll f) := of_same rfl rfl rfl

theorem upd (s : State) (l : Lane) (f : LaneSt → LaneSt) : s.KeepsField (s.upd l f) := of_same rfl rfl rfl

theorem setCtl (s : State) (l : Lane) (f : LaneCtl → LaneCtl) : s.KeepsField (s.setCtl l f) := of_same rfl rfl rfl

theorem irq (s : State) (base m : Nat) : s.KeepsField (s.irq base m) := updIn ..

theorem chanEntry (s : State) (n code x : Nat) : s.KeepsField (s.chanEntry n code x) := updIn ..

theorem laneEntry (s : State) (ls : LaneSet) (x : Lane) (m : LaneMode) (cause : Nat) (cls : FClass) (tag : Option Byte) :
    s.KeepsField (s.laneEntry ls x m cause cls tag) := updIn ..

/-! ### Isolators and tests -/

theorem refreshIsolators (s : State) : s.KeepsField s.refreshIsolators :=
  foldl (fun s b => setBank s b ⟨rfl, rfl, id, fun hl _ => by rw [hl, Bool.not_true, Bool.and_false]⟩) _ s

theorem openBanks (s : State) : s.KeepsField s.openBanks := foldl (fun s b => setBank s b ⟨rfl, rfl, id, fun _ _ => rfl⟩) _ s

theorem settleTest (s : State) (b : Nat) : s.KeepsField (s.settleTest b) := by
  unfold State.settleTest
  split
  · next t _ =>
    extract_lets u
    have hu : s.KeepsField u := (setBank s b ⟨rfl, rfl, id, fun _ => id⟩).trans (setChan _ t.ch (.note t _))
    exact ite (hu.trans (of_same rfl rfl rfl)) (refl s)
  · exact refl s

theorem abortTest (s : State) (b : Nat) : s.KeepsField (s.abortTest b) := by
  unfold State.abortTest
  split
  · exact (setBank s b ⟨rfl, rfl, id, fun _ => id⟩).trans (updIn ..)
  · exact refl s

theorem abortTests (s : State) (pick : RunTest → Bool) : s.KeepsField (s.abortTests pick) := by
  refine (foldl settleTest _ s).trans (foldl (fun s b => ?_) _ _)
  split
  · exact ite (abortTest s b) (refl s)
  · exact refl s

/-! ### The entry to 2-out-of-2 operation (R59) and into SAFE (R433) -/

theorem abandonChange (s : State) : s.KeepsField s.abandonChange := by
  have h : s.KeepsField { s with chg := {} } := of_same rfl rfl rfl
  exact ite (h.trans (updAll ..)) (refl s)

theorem disarm (s : State) : s.KeepsField s.disarm := by
  have h : s.KeepsField { s with chg := { s.chg with st := .verified, target := 0 } } := of_same rfl rfl rfl
  exact ite (h.trans (updIn ..)) (refl s)

theorem autoHandover (s : State) : s.KeepsField s.autoHandover := by
  refine ite (refl s) ?_
  split
  · exact of_same rfl rfl rfl
  · exact of_same rfl rfl rfl

theorem enterTwoOfTwo (s : State) : s.KeepsField s.enterTwoOfTwo := by
  unfold State.enterTwoOfTwo
  extract_lets _ u v w
  have hu : s.KeepsField u := of_same rfl rfl rfl
  have hw : v.KeepsField w := of_same rfl rfl rfl
  exact hu.trans (((disarm u).trans (abandonChange _)).trans (hw.trans (ite (autoHandover w) (refl w))))

theorem giveUpRole (s : State) : s.KeepsField s.giveUpRole := by
  have hs : s.KeepsField s.leaveStandby := ite (updAll ..) (refl s)
  exact ite hs (hs.trans (irq ..))

theorem enterSafe (s : State) (cause who : Nat) (req : LaneSet) (tag : Option Byte) : s.KeepsField (s.enterSafe cause who req tag) := by
  by_cases hg : s.gate = true
  · rw [State.enterSafe, if_pos hg]
    exact updIn ..
  · obtain ⟨seq, h⟩ := s.enterSafe_of_open cause who req tag (Bool.eq_false_iff.2 hg)
    rw [h]
    have hlatch : s.giveUpRole.KeepsField (s.giveUpRole.latchGate s.active) := of_same rfl rfl rfl
    have hstop : s.KeepsField (s.stopAll cause who req tag) :=
      ((giveUpRole s).trans (hlatch.trans ((openBanks _).trans (abandonChange _)))).trans (updAll ..)
    exact hstop.trans (updAll ..)

theorem safeByLane (s : State) (l : Lane) (cause : Nat) (tag : Option Byte) : s.KeepsField (s.safeByLane l cause tag) :=
  ite (enterSafe ..) (refl s)

theorem safeByAll (s : State) (cause : Nat) : s.KeepsField (s.safeByAll cause) := by
  unfold State.safeByAll
  split
  · exact enterSafe ..
  · exact refl s

/-! ### The exclusion of a lane (R44, R45, R51) -/

theorem markOut (s : State) (x : Lane) (cls : FClass) (cause : Nat) (det : Option Det) (tag : Option Byte) :
    s.KeepsField (s.markOut x cls cause det tag) := by
  have hnote (third : Bool) : s.KeepsField (s.noteExclusion x cls cause third tag) := by
    unfold State.noteExclusion
    extract_lets books t
    have ht : s.KeepsField t := laneEntry ..
    exact ht.trans (ite (laneEntry ..) (ite (laneEntry ..) (refl t)))
  exact (hnote _).trans (setCtl ..)

theorem openSwitches (s : State) (x : Lane) (was : Bool) (cls : FClass) (cause : Nat) (det : Option Det) :
    s.KeepsField (s.openSwitches x was cls cause det) := by
  unfold State.openSwitches
  extract_lets t u
  have ht : s.KeepsField t := of_same rfl rfl rfl
  have hu : t.KeepsField u := ite (abortTests t _) (refl t)
  exact ht.trans (hu.trans ((updAll u _).trans (upd ..)))

theorem afterLeaving (s : State) (x : Lane) (was conducts two : Bool) : s.KeepsField (s.afterLeaving x was conducts two) := by
  unfold State.afterLeaving
  extract_lets t u v w
  have hresync : t.KeepsField (t.abandonResync x) := foldl (fun s y => ite (setCtl s y _) (refl s)) _ t
  have hu : t.KeepsField u := ite hresync (refl t)
  have hv : u.KeepsField v := ite (of_same rfl rfl rfl) (refl u)
  have hcan (s : State) (p : Nat) :
      s.KeepsField (if (s.canPt p).owner = some x then s.setCanPt p fun q => { q with owner := none } else s) :=
    ite (of_same rfl rfl rfl) (refl s)
  have hw : v.KeepsField w := foldl hcan _ v
  exact (refreshIsolators s).trans (hu.trans (hv.trans (hw.trans (ite (enterTwoOfTwo w) (refl w)))))

theorem exclude (s : State) (x : Lane) (cls : FClass) (cause : Nat) (det : Option Det) (tag : Option Byte) :
    s.KeepsField (s.exclude x cls cause det tag) := by
  refine ite (safeByLane ..) ?_
  obtain ⟨was, conducts, two, h⟩ := s.leave_stages x cls cause det tag
  rw [h]
  exact (markOut ..).trans ((openSwitches ..).trans (afterLeaving ..))

/-! ### Resets and reports (R420 to R437) -/

theorem resetFor (s : State) (l : Lane) (rs : List Report) (tag : Option Byte) : s.KeepsField (s.resetFor l rs tag) := by
  have hreset (s : State) (r : Report) : s.KeepsField (s.reactReset l r tag) := by
    unfold State.reactReset
    extract_lets page t
    exact ite (upd ..) (ite (upd ..) (ite (refl s) ((upd s l _).trans (ite (upd ..) (refl t)))))
  exact (setCtl s l _).trans (foldl hreset _ _)

theorem react (s : State) (l : Lane) (cls : FClass) (r : Report) (rs : List Report) (tag : Option Byte) :
    s.KeepsField (s.react l cls r rs tag) := by
  refine ite (refl s) ?_
  cases cls with
  | note => exact refl s
  | corrected => exact refl s
  | laneRecover =>
    dsimp only
    split
    · exact refl s
    · exact resetFor ..
    · exact (exclude ..).trans (ite (refl _) (resetFor ..))
  | laneHalt =>
    dsimp only
    split
    · exact refl s
    · exact (laneEntry s ..).trans (setCtl ..)
    · exact exclude ..
  | moduleSafe =>
    dsimp only
    split
    · exact safeByLane ..
    · exact refl s
    · exact (laneEntry s ..).trans (setCtl ..)
    · exact exclude ..

theorem takeEach (s : State) (l : Lane) (rs : List Report) : s.KeepsField (s.takeEach l rs).1 := by
  have htake (s : State) (r : Report) : s.KeepsField (s.takeIn l r).1 := by
    unfold State.takeIn
    split
    · dsimp only
      exact upd ..
    · extract_lets coin tag t c cls flags
      have hinj : s.KeepsField { s with inj := s.inj.map InjSt.unforce } := of_same rfl rfl rfl
      have ht : s.KeepsField t := ite (hinj.trans (updIn ..)) (refl s)
      dsimp only
      exact ht.trans (upd ..)
  induction rs generalizing s with
  | nil => exact refl s
  | cons r rs ih =>
    unfold State.takeEach
    exact (htake s r).trans (ih _)

theorem report (s : State) (l : Lane) (k : Blk) (bit data : Nat) : s.KeepsField (s.report l k bit data) := by
  have hreact (s : State) (rs : List (Report × FClass)) : s.KeepsField (s.reactTo l rs) := by
    unfold State.reactTo
    split
    · exact refl s
    · exact react ..
  have hraise (s : State) (r : Report) : s.KeepsField (s.raise l r) := upd ..
  exact (foldl hraise _ s).trans ((takeEach _ l _).trans (hreact ..))

theorem reportAll (s : State) (base bit data : Nat) : s.KeepsField (s.reportAll base bit data) :=
  foldl (fun s l => ite (report s l ..) (refl s)) _ s

/-! ### Codes of channels (R245, R269, R277) -/

theorem faultIrq (before after : State) (b : Nat) : after.KeepsField (State.faultIrq before after b) :=
  ite ((irq after _ _).trans (ite (refl _) (irq ..))) (refl after)

theorem latchIsolator (s : State) (b : Nat) : s.KeepsField (s.latchIsolator b) := by
  unfold State.latchIsolator
  refine ite (refl s) ?_
  extract_lets u v w
  have hu : s.KeepsField u := setBank s b ⟨rfl, rfl, fun _ => rfl, fun _ _ => rfl⟩
  have hv : u.KeepsField v := foldl (fun s n => ite ((setChan s n
    ⟨fun _ => List.mem_cons_of_mem _, rfl, rfl, rfl⟩).trans (chanEntry ..)) (refl s)) _ u
  exact hu.trans (hv.trans ((reportAll v ..).trans (faultIrq s w b)))

/-- A code changes nothing, or its channel takes it and all that follows keeps the field. -/
theorem addCodeActing_cases (s : State) (n code switch partner : Nat) (acts : Bool) :
    (s.addCodeActing n code switch partner acts = s
        ∧ ((s.chanCfg n).mode = 0 ∨ (s.chan n).knows code switch partner = true ∨ code = Code.readbackLow))
      ∨ (s.setChan n fun c => c.take code switch partner).KeepsField (s.addCodeActing n code switch partner acts) := by
  unfold State.addCodeActing
  split
  · next h => exact .inl ⟨rfl, h.imp_right (Or.imp_right And.left)⟩
  · right
    extract_lets t u v w x
    have hu : t.KeepsField u := ite (setBank t _ ⟨rfl, rfl, id, fun _ => id⟩) (refl t)
    have hv : u.KeepsField v := chanEntry ..
    have hw : v.KeepsField w := by
      unfold w
      split
      · exact reportAll ..
      · exact refl v
    have hx : t.KeepsField x := hu.trans (hv.trans (hw.trans (faultIrq s w _)))
    refine hx.trans (ite ?_ (refl x))
    split
    · exact latchIsolator ..
    · exact safeByAll ..
    · exact refl x

theorem addCode (s : State) (n code switch partner : Nat) : s.KeepsField (s.addCode n code switch partner) := by
  rcases addCodeActing_cases s n code switch partner true with ⟨he, -⟩ | h
  · rw [State.addCode, he]
    exact refl s
  · exact (setChan s n (.take ..)).trans h

end State.KeepsField

/-- A code of a configured channel applies once it has arisen; READBACK_LOW alone can be held back (R438). -/
theorem State.mem_codes_addCode {s : State} (hw : s.ChansWf) {n code : Nat} (switch partner : Nat) (hm : (s.chanCfg n).mode ≠ 0)
    (hc : code ≠ Code.readbackLow) : code ∈ ((s.addCode n code switch partner).chan n).codes := by
  rcases KeepsField.addCodeActing_cases s n code switch partner true with ⟨he, hcase⟩ | htakes
  · have hknows : (s.chan n).knows code switch partner = true := (hcase.resolve_left hm).resolve_right hc
    rw [State.addCode, he]
    exact List.contains_iff_mem.1 (Bool.and_eq_true_iff.1 hknows).1
  · refine ((htakes.chan (hw.setChan ..)).2 n).codes code ?_
    rw [State.chan_setChan_self hw]
    exact List.mem_cons_self

/-- A code that a step of a fold puts on its own channel is found there after the fold. -/
theorem State.mem_codes_foldl {g : State → Nat → State} {code n : Nat} {xs : List Nat}
    (hk : ∀ (s : State) (m : Nat), s.KeepsField (g s m)) (hn : n ∈ xs) {s : State} (hw : s.ChansWf) (hg : ∀ t : State, t.ChansWf → t.file = s.file → code ∈ ((g t n).chan n).codes) :
    code ∈ ((xs.foldl g s).chan n).codes := by
  induction xs generalizing s with
  | nil => cases hn
  | cons x xs ih =>
    have hw' := ((hk s x).chan hw).1
    by_cases hxs : n ∈ xs
    · exact ih hxs hw' fun t ht hf => hg t ht (hf.trans (hk s x).file)
    · obtain rfl : n = x := (List.mem_cons.1 hn).resolve_right hxs
      have hrest : (g s n).KeepsField (xs.foldl g (g s n)) := .foldl hk xs _
      exact ((hrest.chan hw').2 n).codes code (hg s hw rfl)

/-! ### Codes as reactions -/

namespace State.Reacts

variable {X : Lane → Prop}

theorem setChan (X : Lane → Prop) (s : State) (n : Nat) (f : ChanSt → ChanSt) : s.Reacts X (s.setChan n f) :=
  of_quiet X rfl rfl rfl rfl rfl rfl rfl rfl

theorem chanEntry (X : Lane → Prop) (s : State) (n code x : Nat) : s.Reacts X (s.chanEntry n code x) := recordIn ..

theorem faultIrq (X : Lane → Prop) (before after : State) (b : Nat) : after.Reacts X (State.faultIrq before after b) :=
  ite (fun _ => (irq X after _ _).trans (ite (fun _ => refl X _) fun _ => irq ..)) fun _ => refl X after

theorem latchIsolator (s : State) (hX : ∀ l, X l) (b : Nat) : s.Reacts X (s.latchIsolator b) := by
  unfold State.latchIsolator
  refine ite (fun _ => refl X s) fun _ => ?_
  extract_lets u v w
  have hv : u.Reacts X v := foldl (fun s n => ite (fun _ => (setChan X s n _).trans (chanEntry ..)) fun _ => refl X s) _ u
  exact (setBank X s b _).trans (hv.trans ((reportAll v hX ..).trans (faultIrq X s w b)))

theorem addCode (s : State) (hX : ∀ l, X l) (n code switch partner : Nat) : s.Reacts X (s.addCode n code switch partner) := by
  unfold State.addCode State.addCodeActing
  refine ite (fun _ => refl X s) fun _ => ?_
  extract_lets t u v w x
  have hu : s.Reacts X u := (setChan X s n _).trans (ite (fun _ => setBank X t _ _) fun _ => refl X t)
  have hw : v.Reacts X w := by
    unfold w
    split
    · exact reportAll v hX ..
    · exact refl X v
  have hx : s.Reacts X x := hu.trans ((chanEntry X u ..).trans (hw.trans (faultIrq X s w _)))
  refine hx.trans (ite (fun _ => ?_) fun _ => refl X x)
  split
  · exact latchIsolator x hX _
  · exact safeByAll X x _
  · exact refl X x

end State.Reacts

/-! ### Reports of a bank that go further (R438) -/

/-- Of a bank's reports only READBACK_LOW is ever held back. -/
theorem State.notRaised_bank (s : State) (l : Lane) {b bit : Nat} (data : Nat) (hb : b < 16) (h : bit ≠ 1) :
    s.notRaised l (Blk.ofOff (Base.bank b)) bit data = false := by
  have hbit : (bit == 1) = false := beq_false_of_ne h
  have hpage : ∀ c < 16, pageOf (Blk.base (Blk.ofOff (Base.bank c))) = some (.bank, c) := by decide +kernel
  interval_cases b
  all_goals
    unfold State.notRaised
    rw [hpage _ (by decide)]
    exact Bool.and_eq_false_iff.2 (.inl hbit)

end Sys2Proof.Machine
end

section
/-! Banks, isolators and overcurrent trips (R242 to R245, R260, R270, R279), and the statement about them. -/

namespace Sys2Proof.Machine

/-! ### Changes of some channels -/

/-- The channels of a set alone change; the drive, the lanes' states, the queue, the banks and the lanes' field parts stand. -/
structure State.WithinChans (A : Nat → Prop) (s t : State) : Prop where
  steady : s.Steady t
  bank   : t.fld.bank = s.fld.bank
  field  : ∀ l, (t.lane.get l).field = (s.lane.get l).field
  wf     : s.ChansWf → t.ChansWf
  chan   : ∀ n, ¬ A n → t.chan n = s.chan n

namespace State.WithinChans

variable {A B : Nat → Prop} {s t u : State}

theorem of_chan (hs : s.Steady t) (hb : t.fld.bank = s.fld.bank) (hl : ∀ l, (t.lane.get l).field = (s.lane.get l).field)
    (hc : t.fld.chan = s.fld.chan) : s.WithinChans A t :=
  ⟨hs, hb, hl, fun h => by rwa [State.ChansWf, hc], fun n _ => by rw [State.chan, hc, State.chan]⟩

theorem refl (s : State) : s.WithinChans A s := of_chan ⟨rfl, rfl, rfl⟩ rfl (fun _ => rfl) rfl

theorem trans (h : s.WithinChans A t) (k : t.WithinChans A u) : s.WithinChans A u :=
  ⟨h.steady.trans k.steady, k.bank.trans h.bank, fun l => (k.field l).trans (h.field l), k.wf ∘ h.wf,
    fun n hn => (k.chan n hn).trans (h.chan n hn)⟩

theorem mono (h : s.WithinChans A t) (hAB : ∀ n, A n → B n) : s.WithinChans B t :=
  ⟨h.steady, h.bank, h.field, h.wf, fun n hn => h.chan n fun ha => hn (hAB n ha)⟩

theorem setChan (s : State) {n : Nat} (f : ChanSt → ChanSt) (hn : A n) : s.WithinChans A (s.setChan n f) :=
  ⟨⟨rfl, rfl, rfl⟩, rfl, fun _ => rfl, fun h => h.setChan n f, fun _ hm => s.chan_setChan_of_ne f fun e => hm (e ▸ hn)⟩

theorem chanEntry (s : State) (n code x : Nat) : s.WithinChans A (s.chanEntry n code x) := by
  refine of_chan ⟨rfl, rfl, rfl⟩ rfl (fun l => ?_) rfl
  rw [State.chanEntry, State.recordIn, State.updIn_lane]
  split
  · exact LaneSt.record_field ..
  · rfl

theorem ite {c : Prop} [Decidable c] {a b : State} (ha : c → s.WithinChans A a) (hb : s.WithinChans A b) :
    s.WithinChans A (if c then a else b) := by
  split
  · next h => exact ha h
  · exact hb

theorem foldl {α : Type} {g : State → α → State} :
    ∀ (xs : List α) (_ : ∀ x ∈ xs, ∀ s : State, s.WithinChans A (g s x)) (s : State), s.WithinChans A (xs.foldl g s)
  | [], _, s => refl s
  | x :: xs, h, s => (h x List.mem_cons_self s).trans (foldl xs (fun y hy => h y (List.mem_cons_of_mem _ hy)) (g s x))

theorem bank_eq (h : s.WithinChans A t) (b : Nat) : t.bank b = s.bank b := by rw [State.bank, h.bank, State.bank]

end State.WithinChans

/-- What a step of a fold over the places of a bank leaves of its own channel is found there after the fold. -/
theorem State.chan_foldl {g : State → Nat → State} {b i : Nat} {P : ChanSt → Prop}
    (hk : ∀ (s : State) (j : Nat), s.WithinChans (fun n => n = 16 * b + j) (g s j))
    (hP : ∀ s : State, s.ChansWf → P ((g s i).chan (16 * b + i))) {xs : List Nat} (hi : i ∈ xs) {s : State} (hw : s.ChansWf) :
    P ((xs.foldl g s).chan (16 * b + i)) := by
  induction xs generalizing s with
  | nil => cases hi
  | cons x xs ih =>
    by_cases hxs : i ∈ xs
    · exact ih hxs ((hk s x).wf hw)
    · obtain rfl : i = x := (List.mem_cons.1 hi).resolve_right hxs
      have hrest : (g s i).WithinChans (fun n => n ≠ 16 * b + i) (xs.foldl g (g s i)) :=
        .foldl xs (fun j hj s => (hk s j).mono fun n hn e => by
          obtain rfl : j = i := by omega
          exact hxs hj) _
      rw [List.foldl_cons, hrest.chan _ (not_not.2 rfl)]
      exact hP s hw

theorem State.foldl_bankChans (b : Nat) (g : State → Nat → State) (s : State) :
    (bankChans b).foldl g s = (List.range 16).foldl (fun s i => g s (16 * b + i)) s := List.foldl_map

theorem mem_bankChans {b n : Nat} : n ∈ bankChans b ↔ n / 16 = b := by
  simp only [bankChans, List.mem_map, List.mem_range]
  exact ⟨fun ⟨i, hi, e⟩ => by omega, fun h => ⟨n % 16, by omega, by omega⟩⟩

theorem bankPlace_eq {b n : Nat} (h : n / 16 = b) : n = 16 * b + n % 16 ∧ n % 16 ∈ List.range 16 :=
  ⟨by omega, List.mem_range.2 (by omega)⟩

theorem State.not_mem_dropCode {s : State} (hw : s.ChansWf) (n code : Nat) : code ∉ ((s.dropCode n code).chan n).codes := by
  rw [State.dropCode, State.chan_setChan_self hw]
  simp

theorem State.WithinChans.dropCode (s : State) (n code : Nat) : s.WithinChans (fun m => m = n) (s.dropCode n code) := setChan s _ rfl

/-! ### The supply of a bank (R244) -/

section Supply

variable {s : State} (b : BitVec 4) (volts : LaneVec (BitVec 12))

theorem supply_inRange (hlow : (s.banksVote volts fun v => decide (v < 1920)) = false)
    (hhigh : (s.banksVote volts fun v => decide (3000 < v)) = false) :
    ∃ t, exec (.supply b volts) s = .next t ∧ t.fld = s.fld ∧ s.Steady t := by
  have he : exec (.supply b volts) s = .next (s.noteVolts b.toNat volts) := by
    change execSupply b volts s = _
    unfold execSupply
    extract_lets n u low high
    have h1 : low = false := hlow
    have h2 : high = false := hhigh
    rw [h1, h2]
    rfl
  exact ⟨_, he, rfl, rfl, rfl, rfl⟩

/-- The supply of a bank found out of range: reported where it was in range. -/
def State.supplyFault (s : State) (b : Nat) (low high : Bool) : State :=
  let u := s.setBank b fun q => { q with low := low, high := high }
  if (s.bank b).low || (s.bank b).high then u else u.reportAll (Base.bank b) 6 b

theorem State.KeepsField.supplyFault (s : State) (b : Nat) (low high : Bool) :
    (s.setBank b fun q => { q with low := low, high := high }).KeepsField (s.supplyFault b low high) := ite (refl _) (reportAll ..)

theorem supply_eq (h : (s.banksVote volts fun v => decide (v < 1920)) = true ∨ (s.banksVote volts fun v => decide (3000 < v)) = true) :
    exec (.supply b volts) s = .next ((bankChans b.toNat).foldl (fun s n => s.addCode n Code.supply 0 0)
      ((s.noteVolts b.toNat volts).supplyFault b.toNat (s.banksVote volts fun v => decide (v < 1920))
        (s.banksVote volts fun v => decide (3000 < v)))) := by
  change execSupply b volts s = _
  unfold execSupply
  extract_lets n u low high
  have h' : low = true ∨ high = true := h
  rw [if_neg (by rcases h' with e | e <;> simp [e])]
  rfl

theorem supply_faults (hc : s.ChansWf) (hb : s.BanksWf)
    (h : (s.banksVote volts fun v => decide (v < 1920)) = true ∨ (s.banksVote volts fun v => decide (3000 < v)) = true) :
    ∃ t, exec (.supply b volts) s = .next t ∧ (t.bank b.toNat).high = (s.banksVote volts fun v => decide (3000 < v))
      ∧ (t.bank b.toNat).low = (s.banksVote volts fun v => decide (v < 1920))
      ∧ (∀ i : Nat, i < 16 → (s.chanCfg (16 * b.toNat + i)).mode ≠ 0 → 0x05 ∈ (t.chan (16 * b.toNat + i)).codes)
      ∧ ((s.bank b.toNat).low = false → (s.bank b.toNat).high = false →
        ∀ l : Lane, s.parts.get l = true → t.ErrSet l (Blk.ofOff (Base.bank b.toNat)) 6) := by
  refine ⟨_, supply_eq b volts h, ?_⟩
  generalize (s.banksVote volts fun v => decide (v < 1920)) = low
  generalize (s.banksVote volts fun v => decide (3000 < v)) = high
  let u := (s.noteVolts b.toNat volts).setBank b.toNat fun q => { q with low := low, high := high }
  let v := (s.noteVolts b.toNat volts).supplyFault b.toNat low high
  have hub : u.bank b.toNat = { s.bank b.toNat with low := low, high := high } :=
    State.bank_setBank_self (s := s.noteVolts b.toNat volts) hb _ _
  have huv : u.KeepsField v := .supplyFault ..
  have hadd (s : State) (n : Nat) : s.KeepsField (s.addCode n Code.supply 0 0) := .addCode ..
  have hut := huv.trans (.foldl hadd (bankChans b.toNat) v)
  have hbank := (hut.bank (State.BanksWf.setBank (s := s.noteVolts b.toNat volts) hb _ _)).2 b.toNat
  rw [hub] at hbank
  refine ⟨hbank.high, hbank.low, fun i hi hm => ?_, fun hl hh l hp => ?_⟩
  · refine State.mem_codes_foldl hadd (mem_bankChans.2 (by omega)) (huv.chan hc).1 fun w hw hf => ?_
    refine State.mem_codes_addCode hw 0 0 ?_ (by decide)
    rwa [State.chanCfg, hf.trans huv.file]
  · have hv : v = u.reportAll (Base.bank b.toNat) 6 b.toNat := if_neg (by
      change ¬ ((s.bank b.toNat).low || (s.bank b.toNat).high) = true
      rw [hl, hh]
      decide)
    have hcodes : v.Reacts (fun _ => True) ((bankChans b.toNat).foldl (fun s n => s.addCode n Code.supply 0 0) v) :=
      .foldl (fun s n => .addCode s (fun _ => trivial) ..) _ v
    have hsteady : s.Steady u := ⟨rfl, rfl, rfl⟩
    have h16 : b.toNat < 16 := b.isLt
    refine hcodes.errSet ?_
    rw [hv]
    exact u.reportAll_errSet _ _ (by decide) (fun s l => s.notRaised_bank l _ h16 (by decide)) l (by rwa [hsteady.parts])

/-- A channel whose supply has returned: code SUPPLY clears by itself, and the exit is recorded. -/
def State.supplyExit (s : State) (n : Nat) : State :=
  if (s.chan n).codes.contains Code.supply then (s.dropCode n Code.supply).chanEntry n 0 0 else s

theorem State.WithinChans.supplyExit (s : State) (n : Nat) : s.WithinChans (fun m => m = n) (s.supplyExit n) :=
  ite (fun _ => (dropCode ..).trans (chanEntry ..)) (refl s)

theorem State.not_mem_supplyExit {s : State} (hw : s.ChansWf) (n : Nat) : Code.supply ∉ ((s.supplyExit n).chan n).codes := by
  unfold State.supplyExit
  split
  · exact State.not_mem_dropCode hw n Code.supply
  · next h => exact fun hm => h (List.contains_iff_mem.2 hm)

theorem supplyRestored_returns (hc : s.ChansWf) (hb : s.BanksWf)
    (h : (s.banksVote volts fun v => decide (1920 ≤ v ∧ v ≤ 3000)) = true) :
    ∃ t, exec (.supplyRestored b volts) s = .next t ∧ s.Steady t ∧ (t.bank b.toNat).low = false
      ∧ (t.bank b.toNat).high = false ∧ (t.bank b.toNat).closed = (s.bank b.toNat).closed
      ∧ ∀ n : Nat, (n / 16 = b.toNat → 0x05 ∉ (t.chan n).codes) ∧ (n / 16 ≠ b.toNat → t.chan n = s.chan n) := by
  let u := (s.noteVolts b.toNat volts).setBank b.toNat fun q => { q with low := false, high := false }
  let g : State → Nat → State := fun s i => s.supplyExit (16 * b.toNat + i)
  have hub : u.bank b.toNat = { s.bank b.toNat with low := false, high := false } :=
    State.bank_setBank_self (s := s.noteVolts b.toNat volts) hb _ _
  have he : exec (.supplyRestored b volts) s = .next ((List.range 16).foldl g u) := by
    rw [← State.foldl_bankChans b.toNat State.supplyExit u]
    exact if_pos h
  have hstep (s : State) (i : Nat) : s.WithinChans (fun n => n = 16 * b.toNat + i) (g s i) := .supplyExit ..
  have hall : u.WithinChans (fun n => n / 16 = b.toNat) ((List.range 16).foldl g u) :=
    .foldl _ (fun i hi s => (hstep s i).mono fun n hn => by have := List.mem_range.1 hi; omega) u
  have hsteady : s.Steady u := ⟨rfl, rfl, rfl⟩
  refine ⟨_, he, hsteady.trans hall.steady, ?_, ?_, ?_, fun n => ⟨fun hn => ?_, fun hn => hall.chan n hn⟩⟩
  · rw [hall.bank_eq, hub]
  · rw [hall.bank_eq, hub]
  · rw [hall.bank_eq, hub]
  · obtain ⟨e, hi⟩ := bankPlace_eq hn
    rw [e]
    exact State.chan_foldl (P := fun c => Code.supply ∉ c.codes) hstep (fun s hw => State.not_mem_supplyExit hw _) hi hc

theorem supplyRestored_inFault (h : (s.banksVote volts fun v => decide (1920 ≤ v ∧ v ≤ 3000)) = false) :
    ∃ t, exec (.supplyRestored b volts) s = .next t ∧ t.fld = s.fld ∧ s.Steady t := by
  have he : exec (.supplyRestored b volts) s = .next (s.noteVolts b.toNat volts) :=
    if_neg (ne_true_of_eq_false h)
  exact ⟨_, he, rfl, rfl, rfl, rfl⟩

end Supply

/-! ### The current of a bank (R245, R270) -/

/-- An output of a bank whose isolator opens takes code ISOLATED. -/
def State.isolate (s : State) (n : Nat) : State :=
  if s.isOutput n && !(s.chan n).codes.contains Code.isolated then
    (s.setChan n fun c => { c with codes := Code.isolated :: c.codes }).chanEntry n Code.isolated 0
  else s

theorem State.KeepsField.isolate (s : State) (n : Nat) : s.KeepsField (s.isolate n) :=
  ite ((setChan s n ⟨fun _ => List.mem_cons_of_mem _, rfl, rfl, rfl⟩).trans (chanEntry ..)) (refl s)

theorem State.WithinChans.isolate (s : State) (n : Nat) : s.WithinChans (fun m => m = n) (s.isolate n) :=
  ite (fun _ => (setChan (A := fun m => m = n) s _ rfl).trans (chanEntry ..)) (refl s)

theorem State.mem_codes_isolate {s : State} (hw : s.ChansWf) {n : Nat} (ho : s.isOutput n = true) :
    Code.isolated ∈ ((s.isolate n).chan n).codes := by
  by_cases hc : (s.chan n).codes.contains Code.isolated = true
  · exact (((KeepsField.isolate s n).chan hw).2 n).codes _ (List.contains_iff_mem.1 hc)
  · let f : ChanSt → ChanSt := fun c => { c with codes := Code.isolated :: c.codes }
    have hi : s.isolate n = (s.setChan n f).chanEntry n Code.isolated 0 := if_pos (by rw [ho, Bool.eq_false_iff.2 hc]; rfl)
    have hself : (s.isolate n).chan n = f (s.chan n) := by
      rw [hi]
      exact State.chan_setChan_self hw n f
    rw [hself]
    exact List.mem_cons_self

/-- An isolator opens and latches: its bank's outputs lose their energy and take ISOLATED, and the trip is reported. -/
theorem State.latchIsolator_latches {s : State} (hc : s.ChansWf) (hb : s.BanksWf) {b : Nat} (h16 : b < 16)
    (hl : (s.bank b).latched = false) :
    ((s.latchIsolator b).bank b).closed = false ∧ ((s.latchIsolator b).bank b).latched = true
      ∧ (∀ n, n / 16 = b → s.isOutput n = true → (s.latchIsolator b).energised n = false
        ∧ 0x1B ∈ ((s.latchIsolator b).chan n).codes)
      ∧ ∀ l : Lane, s.parts.get l = true → (s.latchIsolator b).ErrSet l (Blk.ofOff (Base.bank b)) 7 := by
  let u := s.setBank b fun q => { q with closed := false, latched := true, running := none, retry := [] }
  let v := (bankChans b).foldl State.isolate u
  let w := v.reportAll (Base.bank b) 7 b
  have he : s.latchIsolator b = State.faultIrq s w b := if_neg (ne_true_of_eq_false hl)
  have hvt : v.KeepsField (State.faultIrq s w b) := (State.KeepsField.reportAll v ..).trans (.faultIrq s w b)
  have huv : u.KeepsField v := .foldl .isolate _ u
  have hub : u.bank b = { s.bank b with closed := false, latched := true, running := none, retry := [] } :=
    State.bank_setBank_self hb _ _
  have hbank := ((huv.trans hvt).bank (hb.setBank b _)).2 b
  rw [hub] at hbank
  have hopen := hbank.shut rfl rfl
  rw [he]
  refine ⟨hopen, hbank.latched rfl, fun n hn ho => ⟨State.energised_of_open (hn ▸ hopen), ?_⟩, fun l hp => ?_⟩
  · refine ((hvt.chan (huv.chan hc).1).2 n).codes _ ?_
    refine State.mem_codes_foldl .isolate (mem_bankChans.2 hn) hc fun x hw hf => ?_
    refine State.mem_codes_isolate hw ?_
    rwa [State.isOutput, State.chanCfg, hf]
  · have hwithin : u.WithinChans (fun _ => True) v := .foldl _ (fun n _ s => (State.WithinChans.isolate s n).mono fun _ _ => trivial) u
    have hsteady : s.Steady v := hwithin.steady
    refine (State.Reacts.faultIrq (fun _ => True) s w b).errSet ?_
    exact v.reportAll_errSet _ _ (by decide) (fun s l => s.notRaised_bank l _ h16 (by decide)) l (by rwa [hsteady.parts])

section BankCurrent

variable {s : State} (b : BitVec 4) (ma : LaneVec (BitVec 12))

/-- Each lane's measurement of a bank's current, mA (R283). -/
def State.noteCurrent (s : State) (b : Nat) (ma : LaneVec (BitVec 12)) : State :=
  s.updAll fun l L => L.setFld (Reg.BANK_SUPPLY b) 16 12 (ma.get l).toNat

theorem bankOc_latches (hc : s.ChansWf) (hb : s.BanksWf) (hcl : (s.bank b.toNat).closed = true) (hl : (s.bank b.toNat).latched = false)
    (h : (s.banksVote ma fun i => decide (1600 < i)) = true) :
    ∃ t, exec (.bankOc b ma) s = .next t ∧ (t.bank b.toNat).closed = false ∧ (t.bank b.toNat).latched = true
      ∧ (∀ n : Nat, n / 16 = b.toNat → s.isOutput n = true → t.energised n = false ∧ 0x1B ∈ (t.chan n).codes)
      ∧ ∀ l : Lane, s.parts.get l = true → t.ErrSet l (Blk.ofOff (Base.bank b.toNat)) 7 := by
  have hon : ((s.bank b.toNat).closed && s.banksVote ma fun i => decide (1600 < i)) = true := by rw [hcl, h]; rfl
  have he : exec (.bankOc b ma) s = .next ((s.noteCurrent b.toNat ma).latchIsolator b.toNat) := congrArg _ (if_pos hon)
  exact ⟨_, he, State.latchIsolator_latches (s := s.noteCurrent b.toNat ma) hc hb b.isLt hl⟩

theorem bankOc_stays (h : (s.bank b.toNat).closed = false ∨ (s.banksVote ma fun i => decide (1600 < i)) = false) :
    ∃ t, exec (.bankOc b ma) s = .next t ∧ t.fld = s.fld ∧ s.Steady t := by
  have hoff : ((s.bank b.toNat).closed && s.banksVote ma fun i => decide (1600 < i)) = false := Bool.and_eq_false_iff.2 h
  have he : exec (.bankOc b ma) s = .next (s.noteCurrent b.toNat ma) := congrArg _ (if_neg (ne_true_of_eq_false hoff))
  exact ⟨_, he, rfl, rfl, rfl, rfl⟩

end BankCurrent

/-! ### Overcurrent trips (R260) -/

/-- The trips of a channel within 60 s, with one now. -/
def State.tripsNow (s : State) (n : Nat) : List Nat := s.now :: (s.chan n).trips.filter fun x => decide (s.now < x + 60000000000)

/-- A trip holds the ladder open for 100 ms. -/
def State.holdOff (s : State) (n : Nat) : State :=
  s.setChan n fun c => { c with trips := s.tripsNow n, heldOff := true, offTill := s.now + 100000000 }

/-- OVERCURRENT arises, or is reported again where it applies. -/
def State.tripCode (s : State) (n : Nat) : State :=
  if (s.chan n).codes.contains Code.overcurrent then s.reportAll (Base.bank (n / 16)) 5 n else s.addCode n Code.overcurrent 0 0

theorem State.KeepsField.tallyTrip (s : State) (n : Nat) : s.KeepsField (s.tallyTrip n) := ite (of_same rfl rfl rfl) (refl s)

theorem State.KeepsField.tripCode (s : State) (n : Nat) : s.KeepsField (s.tripCode n) := ite (reportAll ..) (addCode ..)

theorem State.mem_codes_tripCode {s : State} (hw : s.ChansWf) {n : Nat} (hm : (s.chanCfg n).mode ≠ 0) :
    Code.overcurrent ∈ ((s.tripCode n).chan n).codes := by
  by_cases hc : (s.chan n).codes.contains Code.overcurrent = true
  · exact (((KeepsField.tripCode s n).chan hw).2 n).codes _ (List.contains_iff_mem.1 hc)
  · rw [State.tripCode, if_neg hc]
    exact State.mem_codes_addCode hw 0 0 hm (by decide)

/-- A configured channel stays configured. -/
theorem State.KeepsField.mode_ne_zero {s t : State} (h : s.KeepsField t) {n : Nat} (hm : (s.chanCfg n).mode ≠ 0) :
    (t.chanCfg n).mode ≠ 0 := by rwa [State.chanCfg, h.file]

theorem State.mode_ne_zero_of_isOutput {s : State} {n : Nat} (h : s.isOutput n = true) : (s.chanCfg n).mode ≠ 0 := by
  intro e
  rw [State.isOutput, e] at h
  cases h

/-- A trip of an output on which no test runs: the third within 60 s puts it out of service. -/
def State.tripOut (s : State) (n : Nat) : State :=
  let v := ((s.holdOff n).tallyTrip n).tripCode n
  if 3 ≤ (s.tripsNow n).length then v.addCode n Code.overcurrentLatched 0 0 else v

theorem State.tripOut_trips {s : State} (hc : s.ChansWf) {n : Nat} (hm : (s.chanCfg n).mode ≠ 0) :
    (s.tripOut n).energised n = false ∧ ((s.tripOut n).chan n).offTill = s.now + 100000000 ∧ 0x14 ∈ ((s.tripOut n).chan n).codes
      ∧ (3 ≤ (s.tripsNow n).length → 0x15 ∈ ((s.tripOut n).chan n).codes) := by
  have hhold : (s.holdOff n).ChansWf := hc.setChan n _
  have hheld : (s.holdOff n).chan n = { s.chan n with trips := s.tripsNow n, heldOff := true, offTill := s.now + 100000000 } :=
    State.chan_setChan_self hc n _
  have htally := KeepsField.tallyTrip (s.holdOff n) n
  have hcode := KeepsField.tripCode ((s.holdOff n).tallyTrip n) n
  have hmode : (((s.holdOff n).tallyTrip n).chanCfg n).mode ≠ 0 := htally.mode_ne_zero (s := s.holdOff n) hm
  have hin : Code.overcurrent ∈ ((((s.holdOff n).tallyTrip n).tripCode n).chan n).codes :=
    State.mem_codes_tripCode (htally.chan hhold).1 hmode
  have hmode' := hcode.mode_ne_zero hmode
  have hcodes := htally.trans hcode
  unfold State.tripOut
  extract_lets v
  have hv : v.ChansWf := (hcodes.chan hhold).1
  have hlast : v.KeepsField (if 3 ≤ (s.tripsNow n).length then v.addCode n Code.overcurrentLatched 0 0 else v) :=
    .ite (.addCode ..) (.refl v)
  have hkept := ((hcodes.trans hlast).chan hhold).2 n
  rw [hheld] at hkept
  refine ⟨State.energised_of_heldOff hkept.heldOff, hkept.offTill, ((hlast.chan hv).2 n).codes _ hin, fun h3 => ?_⟩
  rw [if_pos h3]
  exact State.mem_codes_addCode hv 0 0 hmode' (by decide)

section Overcurrent

variable {s : State} (ch : BitVec 8)

theorem overcurrent_trips (hc : s.ChansWf) (ho : s.isOutput ch.toNat = true) :
    ∃ t, exec (.overcurrent ch) s = .next t ∧ t.energised ch.toNat = false
      ∧ (t.chan ch.toNat).offTill = s.now + 100000000 ∧ 0x14 ∈ (t.chan ch.toNat).codes
      ∧ (2 ≤ ((s.chan ch.toNat).trips.filter fun x => decide (s.now < x + 60000000000)).length →
        0x15 ∈ (t.chan ch.toNat).codes) := by
  have hgo : ¬ (!s.isOutput ch.toNat) = true := by
    rw [ho]
    exact Bool.false_ne_true
  have he : exec (.overcurrent ch) s = .next ((s.abortTests fun t => t.ch == ch.toNat && t.on).tripOut ch.toNat) := if_neg hgo
  refine ⟨_, he, ?_⟩
  have habort : s.KeepsField (s.abortTests fun t => t.ch == ch.toNat && t.on) := .abortTests ..
  have hnow : (s.abortTests fun t => t.ch == ch.toNat && t.on).now = s.now := (State.Reacts.abortTests (fun _ => True) s _).now
  generalize (s.abortTests fun t => t.ch == ch.toNat && t.on) = u at habort hnow ⊢
  obtain ⟨huc, hkept⟩ := habort.chan hc
  obtain ⟨hoff, htill, htrip, hthird⟩ := State.tripOut_trips huc (habort.mode_ne_zero (State.mode_ne_zero_of_isOutput ho))
  rw [hnow] at htill
  rw [State.tripsNow, (hkept _).trips, hnow] at hthird
  exact ⟨hoff, htill, htrip, fun h2 => hthird (Nat.succ_le_succ h2)⟩

theorem overcurrentClear_clears (hc : s.ChansWf) :
    ∃ t, exec (.overcurrentClear ch) s = .next t ∧ s.Steady t ∧ t.lane = s.lane ∧ 0x14 ∉ (t.chan ch.toNat).codes
      ∧ (t.chan ch.toNat).trips = [] ∧ ∀ n : Nat, n ≠ ch.toNat → t.chan n = s.chan n := by
  have hdrop : (s.dropCode ch.toNat Code.overcurrent).ChansWf := hc.setChan ..
  refine ⟨_, rfl, ⟨rfl, rfl, rfl⟩, rfl, ?_, ?_, fun n hn => ?_⟩
  · rw [State.chan_setChan_self hdrop]
    exact State.not_mem_dropCode hc ch.toNat Code.overcurrent
  · rw [State.chan_setChan_self hdrop]
  · rw [State.chan_setChan_of_ne _ _ hn, State.dropCode, State.chan_setChan_of_ne _ _ hn]

end Overcurrent

/-! ### `BANK_CLEAR` (R242, R245, R279) -/

/-- The codes of one channel cleared; its sense paths return to the vote, its deadlines start again (R279). -/
def State.clearChan (s : State) (n : Nat) : State :=
  let c := s.chan n
  let s := s.setChan n fun c => { c with
    codes := c.codes.filter (fun x => !codeCleared x), opens := [], shorts := [], partners := [], failed := false }
  let s := if c.codes.contains Code.senseLane || c.codes.contains Code.inputTestFail then { s with fld := { s.fld with
      pathOut := s.fld.pathOut.filter fun e => decide (e.2 ≠ n)
      minority := s.fld.minority.filter fun e => decide (e.2.1 ≠ n) } } else s
  if c.codes.contains Code.testLate then s.setChan n fun c => { c with inFrom := s.now, dueFrom := s.now, onFrom := s.now } else s

theorem State.clearChan_within (s : State) (n : Nat) : s.WithinChans (fun m => m = n) (s.clearChan n) := by
  unfold State.clearChan
  extract_lets c u _ v
  have hu : s.WithinChans (fun m => m = n) u := .setChan s _ rfl
  have hv : u.WithinChans (fun m => m = n) v := .ite (fun _ => .of_chan ⟨rfl, rfl, rfl⟩ rfl (fun _ => rfl) rfl) (.refl u)
  exact hu.trans (hv.trans (.ite (fun _ => .setChan v _ rfl) (.refl v)))

theorem State.codes_clearChan {s : State} (hw : s.ChansWf) (n : Nat) :
    ((s.clearChan n).chan n).codes = (s.chan n).codes.filter fun x => !codeCleared x := by
  unfold State.clearChan
  extract_lets c u _ v
  have hu : u.chan n = _ := State.chan_setChan_self hw n _
  have huc : u.ChansWf := hw.setChan n _
  have hv : v.chan n = u.chan n ∧ v.ChansWf := by
    unfold v
    split
    · exact ⟨rfl, huc⟩
    · exact ⟨rfl, huc⟩
  split
  · rw [State.chan_setChan_self hv.2, hv.1, hu]
  · rw [hv.1, hu]

/-- The place of a bank that `BANK_CLEAR.CHANNELS` names, or not. -/
def State.clearPlace (b mask : Nat) (s : State) (i : Nat) : State := if mask.testBit i then s.clearChan (16 * b + i) else s

theorem State.clearPlace_within (b mask : Nat) (s : State) (i : Nat) :
    s.WithinChans (fun n => n = 16 * b + i ∧ mask.testBit i = true) (s.clearPlace b mask i) :=
  .ite (fun h => (s.clearChan_within _).mono fun _ hn => ⟨hn, h⟩) (.refl s)

/-- What `BANK_CLEAR.CHANNELS` does: the named channels keep no code that it clears, the others stand. -/
theorem State.clearChannels_clears (s : State) (b mask : Nat) :
    s.WithinChans (fun n => mask.testBit (n - 16 * b) = true ∧ n / 16 = b) (s.clearChannels b mask)
      ∧ (s.ChansWf → ∀ i < 16, mask.testBit i = true →
        ∀ c ∈ ((s.clearChannels b mask).chan (16 * b + i)).codes, codeCleared c = false) := by
  have he : s.clearChannels b mask = (List.range 16).foldl (fun s i => s.clearPlace b mask i) s := rfl
  rw [he]
  refine ⟨.foldl _ (fun i hi s => (s.clearPlace_within b mask i).mono ?_) s, fun hw i hi hm => ?_⟩
  · rintro n ⟨rfl, h⟩
    have := List.mem_range.1 hi
    exact ⟨by rwa [Nat.add_sub_cancel_left], by omega⟩
  · refine State.chan_foldl (P := fun q => ∀ c ∈ q.codes, codeCleared c = false)
      (fun s j => (s.clearPlace_within b mask j).mono fun n h => h.1) (fun s hw c hc => ?_) (List.mem_range.2 hi) hw
    rw [State.clearPlace, if_pos hm, State.codes_clearChan hw] at hc
    simpa using (List.mem_filter.1 hc).2

/-- What the lanes' commands make of an isolator (R242, R245). -/
def State.followIso (s : State) (b : Nat) (q : BankSt) : BankSt :=
  { q with closed := decide (2 ≤ (LaneVec.ofFn fun l => (s.lane.get l).field.iso.toNat.testBit b).count) && !q.latched }

theorem State.bank_foldl_followIso (b : Nat) : ∀ (xs : List Nat) (s : State), s.BanksWf →
    (xs.foldl (fun s x => s.setBank x (s.followIso x)) s).bank b = if b ∈ xs then s.followIso b (s.bank b) else s.bank b
  | [], s, _ => rfl
  | x :: xs, s, hw => by
    have hset : (s.setBank x (s.followIso x)).bank b = if b = x then s.followIso b (s.bank b) else s.bank b := by
      split
      · next e => rw [e, State.bank_setBank_self hw]
      · next e => exact s.bank_setBank_of_ne _ e
    have hlane : (s.setBank x (s.followIso x)).followIso b = s.followIso b := rfl
    rw [List.foldl_cons, State.bank_foldl_followIso b xs _ (hw.setBank ..), hlane, hset]
    by_cases e : b = x
    · simp [e, State.followIso]
    · simp [e]

theorem State.bank_refreshIsolators {s : State} (hw : s.BanksWf) {b : Nat} (hb : b < 16) :
    s.refreshIsolators.bank b = s.followIso b (s.bank b) := by
  have h := State.bank_foldl_followIso b (List.range 16) s hw
  rwa [if_pos (List.mem_range.2 hb)] at h

theorem State.refreshIsolators_frame (s : State) : ∃ bank, s.refreshIsolators = { s with fld := { s.fld with bank := bank } } := by
  unfold State.refreshIsolators
  generalize List.range 16 = bs
  induction bs generalizing s with
  | nil => exact ⟨s.fld.bank, rfl⟩
  | cons b bs ih => exact ih _

/-- The latch of an isolator ends: it follows the lanes' commands, and no channel of its bank is ISOLATED. -/
theorem State.clearIsolator_ends {s : State} (hc : s.ChansWf) (hb : s.BanksWf) {b : Nat} (h16 : b < 16) (hl : (s.bank b).latched = true) :
    s.Steady (s.clearIsolator b) ∧ ((s.clearIsolator b).bank b).latched = false
      ∧ ((s.clearIsolator b).bank b).closed = decide (2 ≤ (LaneVec.ofFn fun l => (s.lane.get l).field.iso.toNat.testBit b).count)
      ∧ ∀ n, n / 16 = b → 0x1B ∉ ((s.clearIsolator b).chan n).codes := by
  let u := s.setBank b fun q => { q with latched := false }
  let v := u.refreshIsolators.updAll fun _ L =>
    { L with explained := L.explained.filter fun d => decide (d.blk ≠ Blk.ofOff (Base.bank b)) }
  let g : State → Nat → State := fun s i => s.dropCode (16 * b + i) Code.isolated
  have he : s.clearIsolator b = (List.range 16).foldl g v := by
    rw [← State.foldl_bankChans b (fun s n => s.dropCode n Code.isolated) v]
    exact if_pos hl
  have hvb : v.bank b = u.followIso b { s.bank b with latched := false } := by
    have h := State.bank_refreshIsolators (hb.setBank b fun q => { q with latched := false }) h16
    rwa [State.bank_setBank_self hb] at h
  obtain ⟨bank, hu⟩ := u.refreshIsolators_frame
  have hsteady : s.Steady v := by
    unfold v
    rw [hu]
    exact ⟨rfl, rfl, rfl⟩
  have hvc : v.ChansWf := by
    unfold v
    rw [hu]
    exact hc
  have hstep (s : State) (i : Nat) : s.WithinChans (fun n => n = 16 * b + i) (g s i) := .dropCode ..
  have hall : v.WithinChans (fun _ => True) ((List.range 16).foldl g v) := .foldl _ (fun i _ s => (hstep s i).mono fun _ _ => trivial) v
  rw [he]
  refine ⟨hsteady.trans hall.steady, ?_, ?_, fun n hn => ?_⟩
  · rw [hall.bank_eq, hvb, State.followIso]
  · rw [hall.bank_eq, hvb, State.followIso, Bool.not_false, Bool.and_true]
    rfl
  · obtain ⟨e, hi⟩ := bankPlace_eq hn
    rw [e]
    exact State.chan_foldl (P := fun c => Code.isolated ∉ c.codes) hstep (fun s hw => State.not_mem_dropCode hw _ Code.isolated) hi hvc

/-- The mask of the channels stands beside the bit of the isolator. -/
theorem testBit_channels (d : Word) (x i : Nat) (hi : i < 16) : (fieldOf (setField d 16 1 x) 0 16).testBit i = d.toNat.testBit i := by
  rw [fieldOf_setField_below d 16 1 x 0 16 (by decide) (by decide), fieldOf, Nat.testBit_mod_two_pow, decide_eq_true hi, Bool.true_and,
    pow_zero, Nat.div_one]

theorem State.keepJournal_within {A : Nat → Prop} (s : State) (off : Nat) (d : Word) : s.WithinChans A (s.keepJournal off d) := by
  have hlane (l : Lane) : ((s.keepJournal off d).lane.get l).field = (s.lane.get l).field := by rw [(s.keepJournal_lane off d l).rest]
  rw [s.keepJournal_rest] at hlane ⊢
  exact .of_chan ⟨rfl, rfl, rfl⟩ rfl hlane rfl

section BankClear

variable {s : State} {b : BitVec 4} {p : Port} (d : Word) (ha : s.AgreesWb p (Reg.BANK_CLEAR b.toNat))

include ha

theorem State.writeBank_goes : s.writeBank b.toNat p d = (s.keepJournal (Reg.BANK_CLEAR b.toNat) d).bankGo b.toNat d :=
  State.agreedWrite_goes ha rfl

theorem bankClear_clears (hc : s.ChansWf) :
    ∃ t, exec (.bankClear b p d) s = .next t ∧ s.Steady t ∧ t.bank b.toNat = s.bank b.toNat
      ∧ ∀ i : Nat, i < 16 →
        (d.toNat.testBit i = true → ∀ c ∈ (t.chan (16 * b.toNat + i)).codes, codeCleared c = false)
        ∧ (d.toNat.testBit i = false → t.chan (16 * b.toNat + i) = s.chan (16 * b.toNat + i)) := by
  let e := setField d 16 1 0
  let u := s.keepJournal (Reg.BANK_CLEAR b.toNat) e
  have hbit : e.toNat.testBit 16 = false := testBit_setField_self d false (by decide)
  have he : exec (.bankClear b p d) s = .next (u.clearChannels b.toNat (fieldOf e 0 16)) := by
    have hgo : u.bankGo b.toNat e = u.clearChannels b.toNat (fieldOf e 0 16) := if_neg (ne_true_of_eq_false hbit)
    rw [← hgo, ← State.writeBank_goes e ha]
    rfl
  have hsu {A : Nat → Prop} : s.WithinChans A u := s.keepJournal_within _ e
  obtain ⟨hwithin, hcodes⟩ := u.clearChannels_clears b.toNat (fieldOf e 0 16)
  have hall := hsu.trans hwithin
  refine ⟨_, he, hall.steady, hall.bank_eq _, fun i hi => ⟨fun hm => ?_, fun hm => hall.chan _ ?_⟩⟩
  · exact hcodes ((hsu (A := fun _ => True)).wf hc) i hi (by rwa [testBit_channels d 0 i hi])
  · rw [Nat.add_sub_cancel_left, testBit_channels d 0 i hi, hm]
    exact fun h => Bool.false_ne_true h.1

theorem bankClearIsolator_ends (hc : s.ChansWf) (hb : s.BanksWf) (hl : (s.bank b.toNat).latched = true) :
    ∃ t, exec (.bankClearIsolator b p d) s = .next t ∧ s.Steady t ∧ (t.bank b.toNat).latched = false
      ∧ (t.bank b.toNat).closed = decide (2 ≤ (LaneVec.ofFn fun l => (s.lane.get l).field.iso.toNat.testBit b.toNat).count)
      ∧ ∀ n : Nat, n / 16 = b.toNat → 0x1B ∉ (t.chan n).codes := by
  let e := setField d 16 1 1
  let u := s.keepJournal (Reg.BANK_CLEAR b.toNat) e
  let v := u.clearChannels b.toNat (fieldOf e 0 16)
  have hbit : e.toNat.testBit 16 = true := testBit_setField_self d true (by decide)
  have he : exec (.bankClearIsolator b p d) s = .next (v.clearIsolator b.toNat) := by
    have hgo : u.bankGo b.toNat e = v.clearIsolator b.toNat := if_pos hbit
    rw [← hgo, ← State.writeBank_goes e ha]
    rfl
  have hsv : s.WithinChans _ v := (s.keepJournal_within _ e).trans (u.clearChannels_clears b.toNat (fieldOf e 0 16)).1
  have hvb : v.BanksWf := by rwa [State.BanksWf, hsv.bank]
  obtain ⟨hsteady, hlatch, hclosed, hcodes⟩ :=
    State.clearIsolator_ends (hsv.wf hc) hvb (b := b.toNat) (by omega) (by rwa [hsv.bank_eq])
  refine ⟨_, he, hsv.steady.trans hsteady, hlatch, ?_, hcodes⟩
  simp only [hclosed, hsv.field]

end BankClear

/-- Settles O47: each command by what it leaves of the banks and channels, the reports by what every reaction keeps of them. -/
theorem banksAndTrips : Obligations.BanksAndTrips := by
  unfold Obligations.BanksAndTrips
  intro s b hc hb
  refine ⟨?supply, ?restored, ?current, ?trip, ?clear⟩
  case supply => exact fun volts => ⟨supply_inRange b volts, supply_faults b volts hc hb⟩
  case restored => exact fun volts => ⟨supplyRestored_returns b volts hc hb, supplyRestored_inFault b volts⟩
  case current => exact fun ma => ⟨bankOc_latches b ma hc hb, bankOc_stays b ma⟩
  case trip => exact fun ch ho => ⟨overcurrent_trips ch hc ho, overcurrentClear_clears ch hc⟩
  case clear => exact fun p d ha => ⟨bankClear_clears d ha hc, bankClearIsolator_ends d ha hc hb⟩

end Sys2Proof.Machine
end

section
/-! The Platform Link (R305, R306): what a received frame leaves of the module before it takes effect. -/

namespace Sys2Proof.Machine

/-! ### Changes of registers alone -/

/-- Nothing of a lane but its registers has changed. -/
def LaneSt.RegsOnly (L M : LaneSt) : Prop := M = { L with regs := M.regs }

theorem LaneSt.RegsOnly.refl (L : LaneSt) : L.RegsOnly L := rfl

theorem LaneSt.RegsOnly.trans {L M N : LaneSt} (h : L.RegsOnly M) (k : M.RegsOnly N) : L.RegsOnly N := by
  rw [RegsOnly] at h k ⊢
  rw [k, h]

/-- Nothing of the lanes but their registers has changed. -/
def State.LaneRegsOnly (s t : State) : Prop := ∀ l, (s.lane.get l).RegsOnly (t.lane.get l)

theorem State.LaneRegsOnly.refl (s : State) : s.LaneRegsOnly s := fun _ => .refl _

theorem State.LaneRegsOnly.trans {s t u : State} (h : s.LaneRegsOnly t) (k : t.LaneRegsOnly u) : s.LaneRegsOnly u := fun l =>
  (h l).trans (k l)

theorem State.LaneRegsOnly.updIn (s : State) (ls : LaneSet) {f : Lane → LaneSt → LaneSt} (h : ∀ (l : Lane) (L : LaneSt), L.RegsOnly (f l L)) :
    s.LaneRegsOnly (s.updIn ls f) := fun l => by
  rw [State.updIn_lane]
  split
  · exact h l _
  · exact .refl _

/-! ### Steps 1 to 5 (R305) -/

/-- A received frame changes registers of the lanes, the bursts noted on the channels and the copies held for comparison. -/
structure State.Receives (s t : State) : Prop where
  rest : t = { s with
    lane := t.lane
    link := { s.link with
      copies := t.link.copies, litA := t.link.litA, litB := t.link.litB, syncA := t.link.syncA, syncB := t.link.syncB } }
  lane : s.LaneRegsOnly t

namespace State.Receives

variable {s t u : State}

theorem refl (s : State) : s.Receives s := ⟨rfl, .refl s⟩

theorem trans (h : s.Receives t) (k : t.Receives u) : s.Receives u := ⟨by rw [k.rest, h.rest], h.lane.trans k.lane⟩

theorem updIn (s : State) (ls : LaneSet) {f : Lane → LaneSt → LaneSt} (h : ∀ (l : Lane) (L : LaneSt), L.RegsOnly (f l L)) :
    s.Receives (s.updIn ls f) := ⟨rfl, .updIn s ls h⟩

theorem steady (h : s.Receives t) : s.Steady t := by
  rw [h.rest]
  exact ⟨rfl, rfl, rfl⟩

theorem linkLanes (h : s.Receives t) (x : LinkRx) : t.linkLanes x = s.linkLanes x := by
  rw [State.linkLanes, State.checking, h.steady.parts, State.linkLanes, State.checking]

theorem session (h : s.Receives t) (l : Lane) (n : Nat) : (t.lane.get l).session n = (s.lane.get l).session n := by
  rw [h.lane l]
  rfl

end State.Receives

theorem State.linkArrive_receives (s : State) (x : LinkRx) : s.Receives (s.linkArrive x) ∧ (s.linkArrive x).link.copies = s.link.copies := by
  unfold State.linkArrive
  extract_lets u bad v
  have hu : s.Receives u ∧ u.link.copies = s.link.copies := by
    unfold u LinkSt.lit
    cases x.ch <;> exact ⟨⟨rfl, .refl s⟩, rfl⟩
  have hv : u.Receives v := .updIn u bad fun _ _ => rfl
  split
  · exact ⟨hu.1.trans hv, hu.2⟩
  · exact ⟨(hu.1.trans hv).trans (.updIn v _ fun _ _ => rfl), hu.2⟩

theorem State.linkWindow_receives (s : State) (x : LinkRx) (opens closes : Nat) : s.Receives (s.linkWindow x opens closes).2 := by
  unfold State.linkWindow
  split
  · exact .updIn s _ fun _ _ => rfl
  · split
    · exact .updIn s _ fun _ _ => rfl
    · exact .refl s

section FiveSteps

variable {s : State} {x : LinkRx} {type : Nat} {win : Option (Nat × Nat)} {placed : Bool}

/-- A frame that passes the steps. -/
theorem State.linkFive_passes (hnode : s.link.node ≠ .off) (hs : linkSound s.file x.bytes = true) (ht : lkType x.bytes = type)
    (hw : ∀ q : Nat × Nat, win = some q → q.1 ≤ x.sAt.toNat ∧ x.endAt.toNat ≤ q.2) (hp : s.link.node.loose = true ∨ placed = true) :
    s.linkFive x type win placed = (true, s.linkArrive x) := by
  have hloose : (!placed && !(s.linkArrive x).link.node.loose) = false := by
    rw [(s.linkArrive_receives x).1.rest]
    rcases hp with h | h <;> simp [h]
  have hgo : ¬ ((!linkSound (s.linkArrive x).file x.bytes) = true ∨ lkType x.bytes ≠ type) := by
    rw [(s.linkArrive_receives x).1.rest]
    simp [hs, ht]
  unfold State.linkFive
  rw [if_neg hnode]
  extract_lets u w
  have hwin : w = (true, u) := by
    unfold w
    cases win with
    | none => rfl
    | some q =>
      obtain ⟨ho, hc⟩ := hw q rfl
      dsimp only [State.linkWindow]
      rw [if_neg (Nat.not_lt.2 ho), if_neg (Nat.not_lt.2 hc)]
  rw [if_neg hgo, hwin]
  simp only [u, Bool.not_true, Bool.false_eq_true, if_false, hloose]

/-- A frame that is not sound is counted, if at all. -/
theorem State.linkFive_unsound (hs : linkSound s.file x.bytes = false) :
    (s.linkFive x type win placed).1 = false ∧ s.Receives (s.linkFive x type win placed).2 := by
  unfold State.linkFive
  split
  · exact ⟨rfl, .refl s⟩
  · have hbad : (!linkSound (s.linkArrive x).file x.bytes) = true ∨ lkType x.bytes ≠ type := by
      rw [(s.linkArrive_receives x).1.rest]
      exact .inl (by rw [hs]; rfl)
    dsimp only
    rw [if_pos hbad]
    exact ⟨rfl, (s.linkArrive_receives x).1⟩

/-- A frame outside its window is counted. -/
theorem State.linkFive_outside {q : Nat × Nat} (hnode : s.link.node ≠ .off) (hs : linkSound s.file x.bytes = true) (ht : lkType x.bytes = type)
    (hw : ¬ (q.1 ≤ x.sAt.toNat ∧ x.endAt.toNat ≤ q.2)) :
    (s.linkFive x type (some q) placed).1 = false ∧ s.Receives (s.linkFive x type (some q) placed).2 := by
  have hout : ((s.linkArrive x).linkWindow x q.1 q.2).1 = false := by
    unfold State.linkWindow
    split
    · rfl
    · split
      · rfl
      · next ho hc => exact absurd ⟨Nat.not_lt.1 ho, Nat.not_lt.1 hc⟩ hw
  have hgo : ¬ ((!linkSound (s.linkArrive x).file x.bytes) = true ∨ lkType x.bytes ≠ type) := by
    rw [(s.linkArrive_receives x).1.rest]
    simp [hs, ht]
  unfold State.linkFive
  dsimp only
  rw [if_neg hnode, if_neg hgo, if_pos (by rw [hout]; rfl)]
  exact ⟨hout, (s.linkArrive_receives x).1.trans ((s.linkArrive x).linkWindow_receives ..)⟩

end FiveSteps

/-! ### The first copy of a frame (R306) -/

theorem State.copyIn_of_only {s : State} {c : LinkCopy} {t : Bytes} {l : Lane} (h : s.link.copies = [c]) (hc : c.sameAs t = true) :
    s.copyIn t l = c.lane.get l := by
  rw [State.copyIn, h, List.find?_cons_of_pos (p := fun c : LinkCopy => c.sameAs t) hc]

section FirstCopy

variable {s : State} (hc : s.link.copies = []) (x : LinkRx) (ok : LaneSet) (sess : Lane → SessSt) (took : LaneSet)

include hc

theorem State.copyIn_none (t : Bytes) (l : Lane) : s.copyIn t l = none := by
  rw [State.copyIn, hc]
  rfl

theorem State.enterCopy_first : s.enterCopy x ok sess took =
    { s.updIn ok fun _ L => L.addFld (Reg.PLC_RX (chIdx x.ch)) 0 32 1 with
      link := { s.link with copies :=
        [LinkCopy.enter ⟨lkType x.bytes, lkBc x.bytes, lkSlot x.bytes, lkSrc x.bytes, .all none⟩ x ok sess took] } } := by
  unfold State.enterCopy
  extract_lets t u differs v w cs cs'
  have hu : u.link.copies = [] := hc
  have hdiff (l : Lane) : differs.get l = false := by
    simp only [differs, LaneVec.get_ofFn, State.copyIn_none hu, Bool.and_false]
  have hv : v = u := by
    unfold v State.recordIn
    rw [u.updIn_none _ hdiff, u.updIn_none _ hdiff]
  have hw : w = u := by
    unfold w
    rw [hv, hu]
    rfl
  have hcs : cs' = [⟨lkType t, lkBc t, lkSlot t, lkSrc t, .all none⟩] := by
    unfold cs' cs
    rw [hw, hu]
    rfl
  have hself : LinkCopy.sameAs ⟨lkType t, lkBc t, lkSlot t, lkSrc t, .all none⟩ t = true := by simp [LinkCopy.sameAs]
  have hmap : (cs'.map fun c => if c.sameAs t then c.enter x ok sess took else c)
      = [LinkCopy.enter ⟨lkType t, lkBc t, lkSlot t, lkSrc t, .all none⟩ x ok sess took] := by
    rw [hcs, List.map_singleton, if_pos hself]
  change ({ w with link := { w.link with copies := cs'.map fun c => if c.sameAs t then c.enter x ok sess took else c } } : State) = _
  rw [hmap, hw]
  rfl

theorem State.enterCopy_receives : s.Receives (s.enterCopy x ok sess took) := by
  rw [State.enterCopy_first hc]
  exact ⟨rfl, .updIn s ok fun _ _ => rfl⟩

/-- The copy that a lane holds once the first copy has come. -/
theorem State.copyIn_enterCopy (l : Lane) : (s.enterCopy x ok sess took).copyIn x.bytes l
    = if ok.get l then some ⟨copyBytes x.bytes, x.ch == .chA, !(x.ch == .chA), sess l, took.get l⟩ else none := by
  rw [State.enterCopy_first hc]
  have hself : (LinkCopy.enter ⟨lkType x.bytes, lkBc x.bytes, lkSlot x.bytes, lkSrc x.bytes, .all none⟩ x ok sess took).sameAs
      x.bytes = true := by
    simp [LinkCopy.sameAs, LinkCopy.enter]
  rw [State.copyIn_of_only rfl hself, LinkCopy.enter]
  dsimp only
  rw [LaneVec.get_map, LaneVec.get_all]
  cases ok.get l <;> rfl

/-- The first copy of a frame is fresh where two lanes find it valid, and its payload is handed on where two of them take it. -/
theorem State.takeCopyOf_first : s.takeCopyOf x ok sess took = ⟨s.enterCopy x ok sess took, decide (2 ≤ ok.count), decide (2 ≤ ok.count),
    decide (2 ≤ (LaneVec.ofFn fun l => ok.get l && took.get l : LaneSet).count)⟩ := by
  have hnone : (LaneVec.ofFn fun _ : Lane => false : LaneSet).count = 0 := rfl
  have hused : s.usedBy x.bytes = 0 := by
    simp only [State.usedBy, State.copyIn_none hc, Option.isSome_none, hnone]
  have htook : s.tookBy x.bytes = 0 := by
    simp only [State.tookBy, State.copyIn_none hc, hnone]
  have hused' : (s.enterCopy x ok sess took).usedBy x.bytes = ok.count := by
    have he (l : Lane) : ((s.enterCopy x ok sess took).copyIn x.bytes l).isSome = ok.get l := by
      rw [State.copyIn_enterCopy hc]
      cases ok.get l <;> rfl
    simp only [State.usedBy, he]
    rfl
  have htook' : (s.enterCopy x ok sess took).tookBy x.bytes = (LaneVec.ofFn fun l => ok.get l && took.get l : LaneSet).count := by
    unfold State.tookBy
    congr 2
    funext l
    rw [State.copyIn_enterCopy hc]
    cases ok.get l <;> rfl
  unfold State.takeCopyOf
  dsimp only
  rw [hused, htook, hused', htook']
  simp

end FirstCopy

/-- A frame with lane codes that passes every check is fresh and heard. -/
theorem State.codedFrame_good {s : State} {x : LinkRx} {type : Nat} {win : Option (Nat × Nat)} {placed : Bool}
    (h : s.GoodFrame x type win placed) : ∃ t, s.Receives t ∧ s.codedFrame x type win placed = ⟨t, true, true, false⟩ := by
  obtain ⟨hnode, hs, ht, hw, hp, hcodes, hlanes, hc⟩ := h
  obtain ⟨hr, hcp⟩ := s.linkArrive_receives x
  have hc' : (s.linkArrive x).link.copies = [] := hcp.trans hc
  have htwo : 2 ≤ ((s.linkArrive x).linkLanes x).count := by rwa [hr.linkLanes]
  refine ⟨_, hr.trans (State.enterCopy_receives hc' x ((s.linkArrive x).linkLanes x) (fun _ => {}) (.all false)), ?_⟩
  unfold State.codedFrame
  rw [State.linkFive_passes hnode hs ht hw hp, hcodes]
  simp only [Bool.and_self, if_true]
  have hnone : (LaneVec.ofFn fun l => ((s.linkArrive x).linkLanes x).get l && (LaneVec.all false).get l : LaneSet).count = 0 := by
    simp [LaneVec.count, LaneVec.ofFn]
  rw [State.takeCopyOf_first hc', decide_eq_true htwo, hnone]
  rfl

end Sys2Proof.Machine
end

section
/-! The work of a node of the Platform Link (R317 to R324, R475): what the steps of cold start, integration and the basic cycle leave
of the module, and what they make of the node. -/

namespace Sys2Proof.Machine

/-! ### What no work on the link changes -/

/-- The node's own work changes the lanes' state, the link, the units' admissions, what waits to be sent and the module registers,
nothing else. -/
structure State.Works (s t : State) : Prop where
  rest : t = { s with lane := t.lane, link := t.link, adm := t.adm, txq := t.txq, mregs := t.mregs }

namespace State.Works

variable {s t u : State}

theorem refl (s : State) : s.Works s := ⟨rfl⟩

theorem trans (h : s.Works t) (k : t.Works u) : s.Works u := ⟨by rw [k.rest, h.rest]⟩

theorem foldl {α : Type} {g : State → α → State} (h : ∀ (s : State) (a : α), s.Works (g s a)) :
    ∀ (xs : List α) (s : State), s.Works (xs.foldl g s)
  | [], s => refl s
  | x :: xs, s => (h s x).trans (foldl h xs (g s x))

theorem ite {c : Prop} [Decidable c] {a b : State} (ha : s.Works a) (hb : s.Works b) : s.Works (if c then a else b) := by
  split
  · exact ha
  · exact hb

theorem of_receives (h : s.Receives t) : s.Works t := ⟨by rw [h.rest]⟩

theorem of_sends (h : s.Sends t) : s.Works t := ⟨by rw [h.rest]⟩

theorem steady (h : s.Works t) : s.Steady t := by
  rw [h.rest]
  exact ⟨rfl, rfl, rfl⟩

theorem file (h : s.Works t) : t.file = s.file := by rw [h.rest]

theorem role (h : s.Works t) : t.role = s.role := by rw [h.rest]

theorem mstate (h : s.Works t) : t.mstate = s.mstate := h.steady.mstate

theorem nodeId (h : s.Works t) : t.nodeId = s.nodeId := by
  rw [h.rest]
  rfl

theorem parts (h : s.Works t) : t.parts = s.parts := h.steady.parts

end State.Works

/-! ### What a reaction leaves of the link -/

section Reacts

variable {X : Lane → Prop} {s t : State} (h : s.Reacts X t)

include h

/-- A reaction may switch the node off, with the entry into SAFE, and changes nothing else of the link. -/
theorem State.Reacts.link : t.link = { s.link with node := t.link.node } := by
  have e : ({ t.link with node := .off } : LinkSt) = { s.link with node := .off } := congrArg State.link h.unmoved
  exact (congrArg (fun k : LinkSt => ({ k with node := t.link.node } : LinkSt)) e :)

theorem State.Reacts.adm : t.adm = s.adm := by
  have e := congrArg State.adm h.unmoved
  exact e

theorem State.Reacts.file : t.file = s.file := by
  have e := congrArg State.file h.unmoved
  exact e

theorem State.Reacts.role : t.role = s.role := by
  have e := congrArg State.role h.unmoved
  exact e

theorem State.Reacts.nodeId : t.nodeId = s.nodeId := by
  have hp : t.pref = s.pref := by
    have e := congrArg State.pref h.unmoved
    exact e
  rw [State.nodeId, h.role, h.file, hp, State.nodeId]

end Reacts

theorem State.notRaised_plt (s : State) (l : Lane) (bit data : Nat) : s.notRaised l (Blk.ofOff Base.plt) bit data = false := by
  have hpage : pageOf (Blk.base (Blk.ofOff Base.plt)) = some (.plt, 0) := by decide +kernel
  unfold State.notRaised
  rw [hpage]

theorem State.reportAll_plt (s : State) (data : Nat) {bit : Nat} (hb : bit < 32) (l : Lane) (hp : s.parts.get l = true) :
    (s.reportAll Base.plt bit data).ErrSet l (Blk.ofOff Base.plt) bit :=
  s.reportAll_errSet Base.plt data hb (fun s l => s.notRaised_plt l bit data) l hp

/-! ### The parts of the link's work -/

theorem State.setMaster_reacts (s : State) (id : Nat) : s.Reacts (fun _ => False) (s.setMaster id) :=
  .updAll _ s fun _ L => .setFld L _ _ _ (by decide)

theorem State.linkListen_errSet {s : State} {l : Lane} {k : Blk} {bit : Nat} (h : s.ErrSet l k bit) : s.linkListen.ErrSet l k bit :=
  (State.setMaster_reacts _ 0).errSet (s := { s with link := s.linkListen.link }) h

/-- A reference frame or COLD_START leaves with its time. -/
theorem State.sendReference_rest (s : State) (cold : Bool) :
    ∃ stime txq, s.sendReference cold = { s with link := { s.link with stime := stime }, txq := txq } := by
  unfold State.sendReference
  split
  · exact ⟨s.link.stime, s.txq, rfl⟩
  · exact ⟨_, _, rfl⟩

theorem State.sendColdStart_sends (s : State) : s.Works s.sendColdStart ∧ s.sendColdStart.link.node = .coldstart
    ∧ s.sendColdStart.link.clash = false ∧ s.sendColdStart.link.coldReady = false := by
  unfold State.sendColdStart
  extract_lets _ u
  obtain ⟨stime, txq, h⟩ := (u.updAll fun _ L => L.addFld Reg.PL_COLD 16 8 1).sendReference_rest true
  rw [h]
  exact ⟨⟨rfl⟩, rfl, rfl, rfl⟩

/-- The instant of a reference frame on its channel. -/
theorem State.noteRef_rest (s : State) (x : LinkRx) : ∃ a b, s.noteRef x = { s with link := { s.link with refA := a, refB := b } } := by
  unfold State.noteRef
  split
  · exact ⟨_, s.link.refB, rfl⟩
  · exact ⟨s.link.refA, _, rfl⟩

/-- Changes of the units' admissions change nothing else. -/
theorem State.foldl_setUnit_rest {α : Type} (f : α → Nat) (g : α → UnitAdm → UnitAdm) :
    ∀ (xs : List α) (s : State), xs.foldl (fun s e => s.setUnit (f e) (g e)) s
      = { s with adm := (xs.foldl (fun s e => s.setUnit (f e) (g e)) s).adm }
  | [], _ => rfl
  | x :: xs, s => foldl_setUnit_rest f g xs (s.setUnit (f x) (g x))

/-- The link as the switch at TARGET leaves it (R330). -/
def LinkSt.switched (k : LinkSt) : LinkSt :=
  { k with mode := k.pendMode, pending := false, target := 0, ttPos := 0, announceDue := false }

/-- A node that is not the master ends no admission when the mode switches. -/
theorem State.switchMode_of_follower {s : State} (h : s.link.node ≠ .master) :
    s.Works s.switchMode ∧ s.switchMode.link = s.link.switched := by
  unfold State.switchMode
  extract_lets k out u v w
  have hv : v = u := if_neg h
  have hw : w = { u with adm := w.adm } := by
    unfold w
    rw [hv]
    exact State.foldl_setUnit_rest ..
  rw [hw]
  exact ⟨⟨rfl⟩, rfl⟩

/-- A module that has no state of service yet enters the first one; the link stands. -/
theorem State.firstService_enters (s : State) (m : MState) : (s.firstService m).link = s.link ∧ (s.firstService m).now = s.now
    ∧ (s.firstService m).role = s.role ∧ (s.firstService m).ctl = s.ctl ∧ (s.firstService m).pending = s.pending
    ∧ (s.firstService m).mstate = m := by
  have hs := s.enter_shows m
  have hf := State.Forms.openSessions (s.enter m)
  unfold State.firstService State.mstate
  rw [hf.rest, hs.rest]
  exact ⟨rfl, rfl, rfl, rfl, rfl, rfl⟩

theorem State.linkReady_link (s : State) : s.linkReady.link = s.link ∧ s.linkReady.role = s.role ∧ s.linkReady.ctl = s.ctl
    ∧ s.linkReady.pending = s.pending := by
  unfold State.linkReady
  split
  · obtain ⟨hl, -, hr, hc, hp, -⟩ := s.firstService_enters .restartLocked
    exact ⟨hl, hr, hc, hp⟩
  · exact ⟨rfl, rfl, rfl, rfl⟩

theorem State.linkReady_waits {s : State} (h : s.mstate ≠ .sync) : s.linkReady = s := if_neg fun hc => h hc.1

theorem State.linkReady_enters {s : State} (hm : s.mstate = .sync) (hr : s.role = .central) (hp : s.file.paired = false) :
    s.linkReady.mstate = .restartLocked := by
  rw [State.linkReady, if_pos ⟨hm, hr, by rw [hp]; rfl⟩]
  obtain ⟨-, -, -, -, -, h⟩ := s.firstService_enters .restartLocked
  exact h

/-! ### The start of a basic cycle (R332, R341) -/

theorem State.settleCopies_none {s : State} (h : s.link.copies = []) : s.settleCopies = s := if_pos (by rw [h]; rfl)

theorem State.closeSlot_rest (s : State) : s.closeSlot = { s with adm := s.closeSlot.adm } := by
  unfold State.closeSlot
  extract_lets u
  split
  · rfl
  · rfl

/-- A channel that was lit, or of a node outside the link, is told by its registers alone. -/
theorem State.channelStat_quiet {s : State} {ch : PlCh} {o : SfpObs} {lit sync : Bool} (h : lit = true ∨ s.link.node.inside = false) :
    s.Receives (s.channelStat ch o lit sync) ∧ (s.channelStat ch o lit sync).link = s.link := by
  unfold State.channelStat
  extract_lets off was u
  have hquiet : ¬ ((!lit) = true ∧ (!was) = true ∧ u.link.node.inside = true) := by
    rintro ⟨hl, -, hi⟩
    rcases h with e | e
    · rw [e] at hl
      cases hl
    · exact Bool.false_ne_true (e.symm.trans hi)
  rw [if_neg hquiet]
  exact ⟨.updIn s _ fun _ _ => rfl, rfl⟩

/-- The state in which a node begins its basic cycle. -/
def State.atBasicCycle (s : State) (a b : SfpObs) : State := (s.settleCopies.closeSlot).linkCycle a b

/-- Both channels quiet: the slot before is over, and the bursts of the last basic cycle are told. -/
theorem State.atBasicCycle_rest {s : State} (a b : SfpObs) (hc : s.link.copies = [])
    (h : (s.link.litA = true ∧ s.link.litB = true) ∨ s.link.node.inside = false) :
    s.atBasicCycle a b = { s with
      lane := (s.atBasicCycle a b).lane, adm := s.closeSlot.adm
      link := { s.link with litA := false, litB := false, syncA := false, syncB := false } }
    ∧ s.LaneRegsOnly (s.atBasicCycle a b) := by
  have hslot := s.closeSlot_rest
  unfold State.atBasicCycle
  rw [State.settleCopies_none hc]
  generalize hu : s.closeSlot = u at hslot ⊢
  have hk : u.link = s.link := by rw [hslot]
  unfold State.linkCycle
  extract_lets k v
  obtain ⟨r1, l1⟩ := u.channelStat_quiet (ch := .chA) (o := a) (lit := k.litA) (sync := k.syncA) (by
    unfold k; rw [hk]; exact h.imp And.left id)
  obtain ⟨r2, l2⟩ := (u.channelStat .chA a k.litA k.syncA).channelStat_quiet (ch := .chB) (o := b) (lit := k.litB) (sync := k.syncB) (by
    rw [l1]; unfold k; rw [hk]; exact h.imp And.right id)
  have hv : u.Receives v := r1.trans r2
  have hl : v.link = s.link := (l2.trans l1).trans hk
  refine ⟨?_, fun l => ?_⟩
  · change ({ v with link := { v.link with litA := false, litB := false, syncA := false, syncB := false } } : State) = _
    rw [hl, hv.rest, hslot]
  · have e := hv.lane l
    rw [hslot] at e
    exact e

section AtBasicCycle

variable {s : State} (a b : SfpObs) (hc : s.link.copies = [])
  (h : (s.link.litA = true ∧ s.link.litB = true) ∨ s.link.node.inside = false)

include hc h

theorem State.atBasicCycle_works : s.Works (s.atBasicCycle a b) := ⟨by rw [(State.atBasicCycle_rest a b hc h).1]⟩

theorem State.atBasicCycle_link :
    (s.atBasicCycle a b).link = { s.link with litA := false, litB := false, syncA := false, syncB := false } := by
  rw [(State.atBasicCycle_rest a b hc h).1]

theorem State.atBasicCycle_txq : (s.atBasicCycle a b).txq = s.txq := by rw [(State.atBasicCycle_rest a b hc h).1]

end AtBasicCycle

end Sys2Proof.Machine
end

section
/-! Cold start and integration of the Platform Link (R319 to R324, R475), and the statement about them. -/

namespace Sys2Proof.Machine

/-! ### The start of a basic cycle, by the state of the node (R317, R319, R321, R322) -/

section ByNode

variable {s u : State} {a b : SfpObs} (hu : s.atBasicCycle a b = u)

include hu

theorem basicCycleStart_master (hn : u.link.node = .master) : exec (.basicCycleStart a b) s = .next
    (if u.link.next ≠ 0 ∧ u.link.changeLeft = 0 then
      (({ u with link := { u.link with node := .follow, next := 0, polled := 0 } }).setMaster u.otherNode).nextBasic
    else u.masterCycle) := by
  subst hu
  change execBasicCycleStart a b s = _
  unfold execBasicCycleStart
  extract_lets v k
  have hk : k.node = .master := hn
  rw [hk]
  exact (apply_ite Host.Outcome.next ..).symm

theorem basicCycleStart_follow (hn : u.link.node = .follow) : exec (.basicCycleStart a b) s = .next
    (if u.link.next = u.nodeId ∧ 2 ≤ u.link.changeLeft then
      (({ u with link := { u.link with node := .master, next := 0, changeLeft := 0 } }).setMaster u.nodeId).masterCycle
    else if u.refSeen then u else u.nextBasic) := by
  subst hu
  change execBasicCycleStart a b s = _
  unfold execBasicCycleStart
  extract_lets v k
  have hk : k.node = .follow := hn
  rw [hk]
  exact (apply_ite Host.Outcome.next ..).symm

theorem basicCycleStart_listen (hn : u.link.node = .listen) :
    exec (.basicCycleStart a b) s = .next (if u.link.coldReady && u.link.silent then u.sendColdStart else u) := by
  subst hu
  change execBasicCycleStart a b s = _
  unfold execBasicCycleStart
  extract_lets v k
  have hk : k.node = .listen := hn
  rw [hk]
  rfl

theorem basicCycleStart_backoff (hn : u.link.node = .backoff) :
    exec (.basicCycleStart a b) s = .next (if u.link.coldReady then u.sendColdStart else u) := by
  subst hu
  change execBasicCycleStart a b s = _
  unfold execBasicCycleStart
  extract_lets v k
  have hk : k.node = .backoff := hn
  rw [hk]
  rfl

theorem basicCycleStart_lineside (hn : u.link.node = .integrated ∨ u.link.node = .answering) : exec (.basicCycleStart a b) s = .next u := by
  subst hu
  change execBasicCycleStart a b s = _
  unfold execBasicCycleStart
  extract_lets v k
  rcases hn with hn | hn
  · have hk : k.node = .integrated := hn
    rw [hk]
    rfl
  · have hk : k.node = .answering := hn
    rw [hk]
    rfl

end ByNode

/-! ### Cold start (R319, R320, R475) -/

theorem listenExpiry_readies {s : State} (hn : s.link.node = .listen) (hr : s.role = .central) (hs : s.link.seen = none)
    (hh : s.link.heardCold = false) : exec .listenExpiry s = .next { s with link := { s.link with coldReady := true } } :=
  if_pos ⟨hn, hr, by rw [LinkSt.silent, hs, hh]; rfl⟩

theorem listenExpiry_waits {s : State} (h : s.link.node ≠ .listen ∨ s.link.seen ≠ none ∨ s.link.heardCold = true) :
    exec .listenExpiry s = .next s := by
  refine if_neg fun ⟨hn, _, hsil⟩ => ?_
  rw [LinkSt.silent, Bool.and_eq_true, Option.isNone_iff_eq_none, Bool.not_eq_true'] at hsil
  rcases h with h | h | h
  · exact h hn
  · exact h hsil.1
  · exact Bool.false_ne_true (hsil.2.symm.trans h)

theorem backoffExpiry_readies {s : State} (hn : s.link.node = .backoff) (hr : s.role = .central) :
    exec .backoffExpiry s = .next { s with link := { s.link with coldReady := true } } := if_pos ⟨hn, hr⟩

theorem backoffExpiry_waits {s : State} (hn : s.link.node ≠ .backoff) : exec .backoffExpiry s = .next s := if_neg fun h => hn h.1

section AtBasicCycle

variable {s : State} (a b : SfpObs) (hc : s.link.copies = [])

include hc

/-- A node that is to cold-start sends COLD_START at the start of its basic cycle. -/
theorem basicCycleStart_coldStarts (hr : s.link.coldReady = true)
    (hn : (s.link.node = .listen ∧ s.link.seen = none ∧ s.link.heardCold = false) ∨ s.link.node = .backoff) :
    ∃ t, exec (.basicCycleStart a b) s = .next t ∧ t.link.node = .coldstart ∧ t.link.clash = false ∧ t.link.coldReady = false
      ∧ s.Steady t := by
  have hin : s.link.node.inside = false := by
    rcases hn with ⟨hn, -, -⟩ | hn <;> rw [hn] <;> rfl
  have hlink := State.atBasicCycle_link a b hc (.inr hin)
  have hexec : exec (.basicCycleStart a b) s = .next (s.atBasicCycle a b).sendColdStart := by
    rcases hn with ⟨hn, hs, hh⟩ | hn
    · rw [basicCycleStart_listen rfl (by rw [hlink]; exact hn), hlink, if_pos]
      simp [LinkSt.silent, hr, hs, hh]
    · rw [basicCycleStart_backoff rfl (by rw [hlink]; exact hn), hlink, if_pos hr]
  obtain ⟨hw, hnode, hclash, hready⟩ := (s.atBasicCycle a b).sendColdStart_sends
  exact ⟨_, hexec, hnode, hclash, hready, ((State.atBasicCycle_works a b hc (.inr hin)).trans hw).steady⟩

theorem basicCycleStart_silent (hr : s.link.coldReady = false) (hn : s.link.node = .listen ∨ s.link.node = .backoff) :
    ∃ t, exec (.basicCycleStart a b) s = .next t ∧ t.link.node = s.link.node ∧ t.txq = s.txq ∧ s.Steady t := by
  have hin : s.link.node.inside = false := by
    rcases hn with hn | hn <;> rw [hn] <;> rfl
  have hlink := State.atBasicCycle_link a b hc (.inr hin)
  have hready : ¬ (s.atBasicCycle a b).link.coldReady = true := by
    rw [hlink]
    exact Bool.eq_false_iff.1 hr
  have hexec : exec (.basicCycleStart a b) s = .next (s.atBasicCycle a b) := by
    rcases hn with hn | hn
    · rw [basicCycleStart_listen rfl (by rw [hlink]; exact hn), if_neg fun h => hready (Bool.and_eq_true _ _ ▸ h).1]
    · rw [basicCycleStart_backoff rfl (by rw [hlink]; exact hn), if_neg hready]
  exact ⟨_, hexec, by rw [hlink], State.atBasicCycle_txq a b hc (.inr hin), (State.atBasicCycle_works a b hc (.inr hin)).steady⟩

end AtBasicCycle

section Contention

variable {s : State}

theorem contentionWindowEnd_waits (hn : s.link.node ≠ .coldstart) (bad : Bool) : exec (.contentionWindowEnd bad) s = .next s := if_pos hn

variable (hn : s.link.node = .coldstart)

include hn

/-- A collision: the node backs off, and listens again after the eighth in a row. -/
theorem contentionWindowEnd_collides {bad : Bool} (hb : bad = true ∨ s.link.clash = true) :
    ∃ t, exec (.contentionWindowEnd bad) s = .next t ∧ s.Steady t
      ∧ (s.link.collisions < 7 → t.link.node = .backoff ∧ t.link.collisions = s.link.collisions + 1)
      ∧ (7 ≤ s.link.collisions → t.link.node = .listen ∧ t.link.collisions = 0) := by
  have hbad : (bad || s.link.clash) = true := by rwa [Bool.or_eq_true]
  change ∃ t, execContentionWindowEnd bad s = .next t ∧ _
  unfold execContentionWindowEnd
  rw [if_neg (not_not.2 hn), if_pos hbad]
  extract_lets n u v
  by_cases h8 : 8 ≤ n
  · rw [if_pos h8]
    exact ⟨_, rfl, ⟨rfl, rfl, rfl⟩, fun h => absurd h8 (by unfold n; omega), fun _ => ⟨rfl, rfl⟩⟩
  · rw [if_neg h8]
    exact ⟨_, rfl, ⟨rfl, rfl, rfl⟩, fun _ => ⟨rfl, rfl⟩, fun h => absurd (show 8 ≤ n by unfold n; omega) h8⟩

/-- No collision: the node is the master, and a module that waits for the link leaves SYNC. -/
theorem contentionWindowEnd_masters (hc : s.link.clash = false) :
    ∃ t, exec (.contentionWindowEnd false) s = .next t ∧ t.link.node = .master
      ∧ t.link.mode = s.file.coldMode ∧ t.link.collisions = 0 ∧ t.ctl = s.ctl ∧ t.pending = s.pending
      ∧ (s.mstate = .sync → s.role = .central → s.file.paired = false → t.mstate = .restartLocked)
      ∧ (s.mstate ≠ .sync → t.drv = s.drv) := by
  have hbad : ¬ (false || s.link.clash) = true := by
    rw [hc]
    decide
  change ∃ t, execContentionWindowEnd false s = .next t ∧ _
  unfold execContentionWindowEnd
  rw [if_neg (not_not.2 hn), if_neg hbad]
  extract_lets _ u v
  obtain ⟨hlink, -, hctl, hpend⟩ := (u.setMaster u.nodeId).linkReady_link
  have hvl : v.link = u.link := hlink
  have hvc : v.ctl = s.ctl := hctl
  have hvp : v.pending = s.pending := hpend
  have hsync : s.mstate = .sync → s.role = .central → s.file.paired = false → v.mstate = .restartLocked := fun hm hr hp =>
    State.linkReady_enters (s := u.setMaster u.nodeId) hm hr hp
  have hdrv : s.mstate ≠ .sync → v.drv = s.drv := fun hm => by
    have e : v = u.setMaster u.nodeId := State.linkReady_waits hm
    rw [e]
    rfl
  refine ⟨_, rfl, ?_⟩
  split
  · exact ⟨congrArg LinkSt.node hvl, congrArg LinkSt.mode hvl, congrArg LinkSt.collisions hvl, hvc, hvp, hsync, hdrv⟩
  · exact ⟨congrArg LinkSt.node hvl, congrArg LinkSt.mode hvl, congrArg LinkSt.collisions hvl, hvc, hvp, hsync, hdrv⟩

end Contention

/-! ### A second master (R321) -/

/-- Outside a change of the master the clash is reported; the node of higher identity listens again. -/
theorem State.masterClash_reports {s : State} (x : LinkRx) (hnext : s.link.next = 0) :
    (∀ l : Lane, s.parts.get l = true → (s.masterClash x).ErrSet l (Blk.ofOff Base.plt) 3)
      ∧ (lkSrc x.bytes < s.nodeId → (s.masterClash x).link.node = .listen) := by
  unfold State.masterClash
  rw [if_neg (not_not.2 hnext)]
  extract_lets u
  have herr (l : Lane) (hp : s.parts.get l = true) : u.ErrSet l (Blk.ofOff Base.plt) 3 := s.reportAll_plt _ (by decide) l hp
  have hid : u.nodeId = s.nodeId := (State.Reacts.reportAll s (X := fun _ => True) (fun _ => trivial) ..).nodeId
  rw [hid]
  refine ⟨fun l hp => ?_, fun hlt => by rw [if_pos hlt]; rfl⟩
  split
  · exact State.linkListen_errSet (herr l hp)
  · exact herr l hp

/-! ### COLD_START of another node (R319, R320, R321) -/

section UseColdStart

variable {s : State} (x : LinkRx)

theorem State.useColdStart_listen (hn : s.link.node = .listen) :
    s.useColdStart x = { s with link := { s.link with heardCold := true } } := by
  rw [State.useColdStart, hn]

theorem State.useColdStart_backoff (hn : s.link.node = .backoff) :
    s.useColdStart x = { s with link := { s.link with node := .listen, heardCold := true, seen := none } } := by
  rw [State.useColdStart, hn]

theorem State.useColdStart_coldstart (hn : s.link.node = .coldstart) : s.useColdStart x = s.collide := by
  rw [State.useColdStart, hn]

theorem State.useColdStart_master (hn : s.link.node = .master) : s.useColdStart x = s.masterClash x := by
  rw [State.useColdStart, hn]

end UseColdStart

section ColdStart

variable {s : State} {x : LinkRx} (hr : s.role = .central) (hx : lkSrc x.bytes ≠ s.nodeId)

include hr hx

theorem coldStart_used (h : s.GoodFrame x 5 none
      (s.isMasterId (lkSrc x.bytes) && lkDst x.bytes == 0xFFFF && lkSlot x.bytes == 0 && lkBc x.bytes == 0)) :
    ∃ u, s.Receives u ∧ exec (.coldStart x) s = .next (u.useColdStart x) := by
  obtain ⟨u, hu, hq⟩ := State.codedFrame_good h
  refine ⟨u, hu, ?_⟩
  change execColdStart x s = _
  unfold execColdStart
  dsimp only
  rw [hq, if_neg (not_not.2 hr), if_neg hx]
  rfl

theorem coldStart_follows (h : s.GoodFrame x 5 none
      (s.isMasterId (lkSrc x.bytes) && lkDst x.bytes == 0xFFFF && lkSlot x.bytes == 0 && lkBc x.bytes == 0)) :
    ∃ t, exec (.coldStart x) s = .next t
      ∧ (s.link.node = .listen → t.link.node = .listen ∧ t.link.heardCold = true ∧ s.Steady t)
      ∧ (s.link.node = .backoff → t.link.node = .listen ∧ t.link.heardCold = true ∧ s.Steady t)
      ∧ (s.link.node = .coldstart → t.link.node = .coldstart ∧ t.link.clash = true ∧ s.Steady t)
      ∧ (s.link.node = .master → s.link.next = 0 → ∀ l : Lane, s.parts.get l = true → t.ErrSet l (Blk.ofOff Base.plt) 3) := by
  obtain ⟨u, hu, hexec⟩ := coldStart_used hr hx h
  have hnode : u.link.node = s.link.node := by rw [hu.rest]
  have hsteady := hu.steady
  refine ⟨_, hexec, fun hn => ?_, fun hn => ?_, fun hn => ?_, fun hn hnext l hp => ?_⟩
  · rw [State.useColdStart_listen x (hnode.trans hn)]
    exact ⟨hnode.trans hn, rfl, hsteady⟩
  · rw [State.useColdStart_backoff x (hnode.trans hn)]
    exact ⟨rfl, rfl, hsteady⟩
  · rw [State.useColdStart_coldstart x (hnode.trans hn)]
    exact ⟨hnode.trans hn, rfl, hsteady⟩
  · have hnext' : u.link.next = 0 := by rw [hu.rest]; exact hnext
    rw [State.useColdStart_master x (hnode.trans hn)]
    exact (State.masterClash_reports x hnext').1 l (by rwa [hsteady.parts])

end ColdStart

/-! ### A reference frame (R321 to R323, R330) -/

/-- What a node that is not the master takes from a reference frame. -/
theorem State.takeReference_tracks {s : State} (x : LinkRx) (h : s.link.node ≠ .master) :
    s.Works (s.takeReference x) ∧ (s.takeReference x).link.node = s.link.node ∧ (s.takeReference x).link.bc64 = (refOf x).bc64
      ∧ (s.takeReference x).link.mode = (refOf x).mode := by
  unfold State.takeReference
  extract_lets body r u fl named _ k
  have hu : s.Works u ∧ u.link.node = s.link.node := by
    unfold u
    split
    · obtain ⟨hw, hl⟩ := State.switchMode_of_follower h
      exact ⟨hw, by rw [hl]; rfl⟩
    · exact ⟨.refl s, rfl⟩
  exact ⟨hu.1.trans ⟨rfl⟩, hu.2, rfl, rfl⟩

theorem State.plinkDiscipline_central {s : State} (x : LinkRx) (hr : s.role = .central) : s.plinkDiscipline x = s :=
  if_pos (.inl (by rw [hr]; decide))

theorem refAgree_congr {s t : State} (h : t.file = s.file) (p q : RefSeen) : refAgree t p q = refAgree s p q := by
  unfold refAgree State.isMasterId State.bcNs
  rw [h]

section UseReference

variable {s : State} (x : LinkRx)

theorem State.useReference_coldstart (hn : s.link.node = .coldstart) : s.useReference x = s.collide := by
  rw [State.useReference, hn]

theorem State.useReference_master (hn : s.link.node = .master) : s.useReference x = s.masterClash x := by
  rw [State.useReference, hn]

variable (hr : s.role = .central)

include hr

/-- A node that follows tracks the master. -/
theorem State.useReference_follow (hn : s.link.node = .follow) :
    s.Works (s.useReference x) ∧ (s.useReference x).link.node = .follow ∧ (s.useReference x).link.bc64 = (refOf x).bc64
      ∧ (s.useReference x).link.mode = (refOf x).mode := by
  have huse : s.useReference x = ((s.predictRefs (s.ahead (lkBc x.bytes))).takeReference x).plinkDiscipline x := by
    rw [State.useReference, hn]
  have hne : (s.predictRefs (s.ahead (lkBc x.bytes))).link.node ≠ .master := by
    change s.link.node ≠ .master
    rw [hn]
    decide
  obtain ⟨hw, hnode, hbc, hmode⟩ := State.takeReference_tracks x hne
  rw [huse, State.plinkDiscipline_central x (hw.role.trans hr)]
  exact ⟨State.Works.trans ⟨rfl⟩ hw, hnode.trans hn, hbc, hmode⟩

/-- A node integrates: it follows the master, and a module that waits for the link leaves SYNC. -/
theorem State.integrate_follows (hn : s.link.node ≠ .master) :
    (s.integrate x).link.node = .follow ∧ (s.integrate x).link.bc64 = (refOf x).bc64 ∧ (s.integrate x).link.mode = (refOf x).mode
      ∧ (s.integrate x).role = .central
      ∧ (s.mstate = .sync → s.file.paired = false → (s.integrate x).mstate = .restartLocked) := by
  obtain ⟨hw, -, hbc, hmode⟩ := State.takeReference_tracks x hn
  have hint : s.integrate x = ({ s.takeReference x with link := { (s.takeReference x).link with node := .follow } } : State).linkReady := by
    unfold State.integrate
    extract_lets u
    have hu : u.role = .central := hw.role.trans hr
    rw [hu]
  rw [hint]
  obtain ⟨hlink, hrole, -, -⟩ :=
    ({ s.takeReference x with link := { (s.takeReference x).link with node := .follow } } : State).linkReady_link
  rw [hlink]
  exact ⟨rfl, hbc, hmode, hrole.trans (hw.role.trans hr), fun hm hp =>
    State.linkReady_enters (hw.mstate.trans hm) (hw.role.trans hr) ((congrArg StationFile.paired hw.file).trans hp)⟩

end UseReference

section Listening

variable {s : State} (x : LinkRx) (hr : s.role = .central) (hn : s.link.node = .listen)

include hr hn

/-- The first reference frame is kept. -/
theorem State.useReference_first (hs : s.link.seen = none) :
    s.useReference x = { s with link := { s.link with seen := some (refOf x) } } := by
  have hlist : s.listenReference x = { s with link := { s.link with seen := some (refOf x) } } := by
    unfold State.listenReference
    rw [if_neg fun h => absurd (hr.symm.trans h.1) (by decide), hs]
  rw [State.useReference, hn]
  dsimp only
  rw [hlist]
  exact State.plinkDiscipline_central x hr

/-- A second one integrates the node, or takes the place of the first. -/
theorem State.useReference_second {p : RefSeen} (hs : s.link.seen = some p) :
    ∃ u, s.Works u ∧ u.link.node = .listen ∧ s.useReference x
      = (if refAgree s p (refOf x) then u.integrate x else { u with link := { u.link with seen := some (refOf x) } }).plinkDiscipline x := by
  refine ⟨if p.bc64 ≤ (refOf x).bc64 then s.predictRefs ((refOf x).bc64 - p.bc64) else s, .ite ⟨rfl⟩ (.refl s), ?_, ?_⟩
  · split
    · exact hn
    · exact hn
  · rw [State.useReference, hn]
    dsimp only [State.listenReference]
    rw [if_neg fun h => absurd (hr.symm.trans h.1) (by decide), hs]
    dsimp only
    rw [refAgree_congr (s := s)]
    split <;> rfl

theorem State.useReference_differs {p : RefSeen} (hs : s.link.seen = some p) (h : refAgree s p (refOf x) = false) :
    s.Works (s.useReference x) ∧ (s.useReference x).link.node = .listen ∧ (s.useReference x).link.seen = some (refOf x) := by
  obtain ⟨u, hw, hnode, huse⟩ := State.useReference_second x hr hn hs
  rw [huse, h, if_neg Bool.false_ne_true,
    State.plinkDiscipline_central (s := { u with link := { u.link with seen := some (refOf x) } }) x (hw.role.trans hr)]
  exact ⟨hw.trans ⟨rfl⟩, hnode, rfl⟩

theorem State.useReference_integrates {p : RefSeen} (hs : s.link.seen = some p) (h : refAgree s p (refOf x) = true) :
    (s.useReference x).link.node = .follow ∧ (s.useReference x).link.bc64 = (refOf x).bc64
      ∧ (s.useReference x).link.mode = (refOf x).mode
      ∧ (s.mstate = .sync → s.file.paired = false → (s.useReference x).mstate = .restartLocked) := by
  obtain ⟨u, hw, hnode, huse⟩ := State.useReference_second x hr hn hs
  obtain ⟨hfollow, hbc, hmode, hrole, hsync⟩ :=
    State.integrate_follows x (hw.role.trans hr) (s := u) (by rw [hnode]; decide)
  rw [huse, h, if_pos rfl, State.plinkDiscipline_central x hrole]
  exact ⟨hfollow, hbc, hmode, fun hm hp => hsync (hw.mstate.trans hm) ((congrArg StationFile.paired hw.file).trans hp)⟩

end Listening

section Reference

variable {s : State} {x : LinkRx}

/-- A frame that is not sound changes counts alone. -/
theorem reference_unsound (hs : linkSound s.file x.bytes = false) :
    ∃ t, exec (.reference x) s = .next t ∧ s.Steady t ∧ t.link.node = s.link.node ∧ t.link.seen = s.link.seen := by
  obtain ⟨hno, hu⟩ := State.linkFive_unsound (type := 1) (win := none) (placed := s.refPlaced x) hs
  have hq : s.codedFrame x 1 none (s.refPlaced x) = ⟨(s.linkFive x 1 none (s.refPlaced x)).2, false, false, false⟩ := by
    unfold State.codedFrame
    dsimp only
    rw [hno, Bool.false_and, if_neg Bool.false_ne_true]
  have hexec : exec (.reference x) s = .next (s.linkFive x 1 none (s.refPlaced x)).2 := by
    change execReference x s = _
    unfold execReference
    rw [hq]
    exact ite_self _
  refine ⟨_, hexec, hu.steady, ?_⟩
  rw [hu.rest]
  exact ⟨rfl, rfl⟩

variable (hx : lkSrc x.bytes ≠ s.nodeId)

include hx

theorem reference_used (h : s.GoodFrame x 1 none (s.refPlaced x)) :
    ∃ u a b, s.Receives u ∧ exec (.reference x) s
      = .next { u.useReference x with link := { (u.useReference x).link with refA := a, refB := b } } := by
  obtain ⟨u, hu, hq⟩ := State.codedFrame_good h
  obtain ⟨a, b, hnote⟩ := (u.useReference x).noteRef_rest x
  refine ⟨u, a, b, hu, ?_⟩
  rw [← hnote]
  change execReference x s = _
  unfold execReference
  dsimp only
  rw [hq, if_neg fun h => hx h.2]
  rfl

theorem reference_follows (hr : s.role = .central) (h : s.GoodFrame x 1 none (s.refPlaced x)) :
    ∃ t, exec (.reference x) s = .next t
      ∧ (s.link.node = .listen → s.link.seen = none → t.link.node = .listen ∧ t.link.seen = some (refOf x) ∧ s.Steady t)
      ∧ (∀ r : RefSeen, s.link.node = .listen → s.link.seen = some r → refAgree s r (refOf x) = true →
        t.link.node = .follow ∧ t.link.bc64 = (refOf x).bc64 ∧ t.link.mode = (refOf x).mode
          ∧ (s.mstate = .sync → s.file.paired = false → t.mstate = .restartLocked))
      ∧ (∀ r : RefSeen, s.link.node = .listen → s.link.seen = some r → refAgree s r (refOf x) = false →
        t.link.node = .listen ∧ t.link.seen = some (refOf x) ∧ s.Steady t)
      ∧ (s.link.node = .coldstart → t.link.node = .coldstart ∧ t.link.clash = true ∧ s.Steady t)
      ∧ (s.link.node = .follow → t.link.node = .follow ∧ t.link.bc64 = (refOf x).bc64 ∧ t.link.mode = (refOf x).mode ∧ s.Steady t)
      ∧ (s.link.node = .master → s.link.next = 0 → lkSrc x.bytes < s.nodeId → t.link.node = .listen
        ∧ ∀ l : Lane, s.parts.get l = true → t.ErrSet l (Blk.ofOff Base.plt) 3) := by
  obtain ⟨u, a, b, hu, hexec⟩ := reference_used hx h
  have hw := State.Works.of_receives hu
  have hlink : u.link.node = s.link.node ∧ u.link.seen = s.link.seen ∧ u.link.next = s.link.next := by
    rw [hu.rest]
    exact ⟨rfl, rfl, rfl⟩
  obtain ⟨hnode, hseen, hnext⟩ := hlink
  have hru : u.role = .central := hw.role.trans hr
  refine ⟨_, hexec, fun hn hs => ?first, fun r hn hs hag => ?integrates, fun r hn hs hdiff => ?differs, fun hn => ?collides,
    fun hn => ?tracks, fun hn h0 hlt => ?clash⟩
  case first =>
    rw [State.useReference_first x hru (hnode.trans hn) (hseen.trans hs)]
    exact ⟨hnode.trans hn, rfl, hw.steady⟩
  case integrates =>
    rw [← refAgree_congr hw.file] at hag
    obtain ⟨hfollow, hbc, hmode, hsync⟩ := State.useReference_integrates x hru (hnode.trans hn) (hseen.trans hs) hag
    exact ⟨hfollow, hbc, hmode, fun hm hp => hsync (hw.mstate.trans hm) ((congrArg StationFile.paired hw.file).trans hp)⟩
  case differs =>
    rw [← refAgree_congr hw.file] at hdiff
    obtain ⟨hw', hlist, hkept⟩ := State.useReference_differs x hru (hnode.trans hn) (hseen.trans hs) hdiff
    exact ⟨hlist, hkept, (hw.trans hw').steady⟩
  case collides =>
    rw [State.useReference_coldstart x (hnode.trans hn)]
    exact ⟨hnode.trans hn, rfl, hw.steady⟩
  case tracks =>
    obtain ⟨hw', hfollow, hbc, hmode⟩ := State.useReference_follow x hru (hnode.trans hn)
    exact ⟨hfollow, hbc, hmode, (hw.trans hw').steady⟩
  case clash =>
    obtain ⟨herr, hlist⟩ := State.masterClash_reports x (hnext.trans h0)
    rw [State.useReference_master x (hnode.trans hn)]
    exact ⟨hlist (by rwa [hw.nodeId]), fun l hp => herr l (by rwa [hw.parts])⟩

end Reference

/-! ### The reference lost (R318, R324) -/

section RefLost

variable {s : State}

theorem refLost_listens (hr : s.role = .lineside) (hn : s.link.node = .integrated ∨ s.link.node = .answering) :
    ∃ t, exec .refLost s = .next t ∧ t.link.node = .listen ∧ t.link.seen = none
      ∧ ∀ l : Lane, s.parts.get l = true → t.ErrSet l (Blk.ofOff Base.plt) 4 := by
  change ∃ t, execRefLost s = .next t ∧ _
  unfold execRefLost
  rw [if_pos ⟨hr, hn⟩]
  extract_lets u _ v
  have herr (l : Lane) (hp : s.parts.get l = true) : v.ErrSet l (Blk.ofOff Base.plt) 4 := by
    have hu : u.ErrSet l (Blk.ofOff Base.plt) 4 := s.reportAll_plt _ (by decide) l hp
    unfold v
    split
    · have hk : ∀ w : State, w.Reacts (fun _ => False) (w.setStc 0 false) := fun w =>
        .updAll _ w fun _ L => .clearBits L _ (by decide)
      exact (hk _).errSet (s := ({ u with link := { u.link with lockRun := 0 } } : State).loseSource) hu
    · exact hu
  exact ⟨_, rfl, rfl, rfl, fun l hp => State.linkListen_errSet (herr l hp)⟩

theorem refLost_waits (h : s.role = .central ∨ s.link.node.inside = false) : exec .refLost s = .next s := by
  refine if_neg fun ⟨hr, hn⟩ => ?_
  rcases h with h | h
  · rw [h] at hr
    cases hr
  · rcases hn with hn | hn
    · rw [hn] at h
      cases h
    · rw [hn] at h
      cases h

end RefLost

/-- Settles O48: each command by the state of its node; what a received frame leaves of the module before it takes effect is said once
(`State.Receives`), as is what the node's own work leaves (`State.Works`). -/
theorem coldStartAndIntegration : Obligations.ColdStartAndIntegration := by
  intro s
  refine ⟨listenExpiry_readies, listenExpiry_waits, backoffExpiry_readies, backoffExpiry_waits, ?cycle, ?contention,
    contentionWindowEnd_waits, ?cold, ?ref, fun x => reference_unsound, refLost_listens, refLost_waits⟩
  case cycle => exact fun a b hc => ⟨basicCycleStart_coldStarts a b hc, basicCycleStart_silent a b hc⟩
  case contention => exact fun hn => ⟨fun bad => contentionWindowEnd_collides hn, contentionWindowEnd_masters hn⟩
  case cold => exact fun x hr hx => coldStart_follows hr hx
  case ref => exact fun x hr hx => reference_follows hx hr

end Sys2Proof.Machine
end

section
/-! The admissions of the units at the master of the Platform Link (R325 to R332): how they read after each change. -/

namespace Sys2Proof

/-- A key that reads other than its default is listed. -/
theorem SMap.mem_of_get_ne {V : Type} {d : Nat → V} {i : Nat} : ∀ {m : List (Nat × V)}, SMap.get d m i ≠ d i → (i, SMap.get d m i) ∈ m
  | [], h => absurd rfl h
  | (k, v) :: m, h => by
    unfold SMap.get at h ⊢
    split at h
    · next e =>
      subst e
      rw [if_pos rfl]
      exact List.mem_cons_self
    · next e =>
      rw [if_neg e]
      exact List.mem_cons_of_mem _ (SMap.mem_of_get_ne h)

namespace Machine

theorem mem_insertNat {i n : Nat} : ∀ {xs : List Nat}, i ∈ insertNat n xs ↔ i = n ∨ i ∈ xs
  | [] => List.mem_singleton.trans (by simp)
  | m :: ms => by
    have ih := mem_insertNat (i := i) (n := n) (xs := ms)
    unfold insertNat
    split
    · exact List.mem_cons
    · split
      · next e => simp [e]
      · rw [List.mem_cons, ih, List.mem_cons]
        exact or_left_comm

/-- The numbers put into a rising list one by one. -/
theorem mem_foldl_insertNat {α : Type} (f : α → Nat) {i : Nat} : ∀ (es : List α) (xs : List Nat),
    i ∈ es.foldl (fun xs e => insertNat (f e) xs) xs ↔ i ∈ xs ∨ ∃ e ∈ es, f e = i
  | [], xs => by simp
  | e :: es, xs => by
    rw [List.foldl_cons, mem_foldl_insertNat f es, mem_insertNat, List.exists_mem_cons_iff, or_comm (a := i = f e), or_assoc, eq_comm (a := i)]

/-! ### One unit -/

/-- The map of the units' admissions is in its canonical form. -/
def State.AdmWf (s : State) : Prop := SMap.wf (fun _ => ({} : UnitAdm)) s.adm = true

/-- A unit whose admission has ended. -/
def UnitAdm.ended (a : UnitAdm) : UnitAdm :=
  { a with admitted := false, pdA := 0xFFFF, pdB := 0xFFFF, acked := false, age := 255, valid := false }

section Units

variable {s : State} (h : s.AdmWf) (u : Nat)

theorem State.unitAdm_setUnit_of_ne (s : State) {u v : Nat} (f : UnitAdm → UnitAdm) (e : v ≠ u) : (s.setUnit u f).unitAdm v = s.unitAdm v :=
  SMap.get_put_of_ne _ _ _ _ _ e

include h

theorem State.unitAdm_setUnit (f : UnitAdm → UnitAdm) (v : Nat) :
    (s.setUnit u f).unitAdm v = if v = u then f (s.unitAdm v) else s.unitAdm v := by
  split
  · next e =>
    subst e
    exact SMap.get_put_self _ _ _ _ h
  · next e => exact s.unitAdm_setUnit_of_ne f e

theorem State.AdmWf.setUnit (f : UnitAdm → UnitAdm) : (s.setUnit u f).AdmWf := SMap.put_wf _ _ _ _ h

theorem State.unitAdm_endAdmission (v : Nat) :
    (s.endAdmission u).unitAdm v = if v = u then (s.unitAdm v).ended else s.unitAdm v := State.unitAdm_setUnit h u UnitAdm.ended v

theorem State.AdmWf.endAdmission : (s.endAdmission u).AdmWf := State.AdmWf.setUnit h u UnitAdm.ended

end Units

theorem State.endAdmission_works (s : State) (u : Nat) : s.Works (s.endAdmission u) ∧ (s.endAdmission u).link = s.link := ⟨⟨rfl⟩, rfl⟩

theorem State.AdmWf.congr {s t : State} (h : s.AdmWf) (e : t.adm = s.adm) : t.AdmWf := by rwa [State.AdmWf, e]

theorem State.unitAdm_congr {s t : State} (e : t.adm = s.adm) (u : Nat) : t.unitAdm u = s.unitAdm u := by
  rw [State.unitAdm, e, State.unitAdm]

/-- The end of a slot counts a poll without an answer, and changes nothing else of a unit. -/
theorem State.closeSlot_units {s : State} (h : s.AdmWf) : s.closeSlot.AdmWf
    ∧ ∀ u, ∃ missed answered, s.closeSlot.unitAdm u = { s.unitAdm u with missed := missed, answered := answered } := by
  unfold State.closeSlot
  extract_lets v
  split
  · refine ⟨State.AdmWf.setUnit h v _, fun u => ?_⟩
    rw [State.unitAdm_setUnit h]
    split
    · exact ⟨_, _, rfl⟩
    · exact ⟨_, _, rfl⟩
  · exact ⟨h, fun u => ⟨_, _, rfl⟩⟩

/-! ### The switch of the mode (R330) -/

/-- The admissions of some units end, each reported. -/
def State.dismiss (s : State) (us : List Nat) : State := us.foldl (fun s u => (s.endAdmission u).reportAll Base.plt 1 u) s

theorem State.dismiss_units {s : State} (h : s.AdmWf) (us : List Nat) : (s.dismiss us).AdmWf
    ∧ (∀ v, (s.dismiss us).unitAdm v = if v ∈ us then (s.unitAdm v).ended else s.unitAdm v)
    ∧ (s.dismiss us).link = { s.link with node := (s.dismiss us).link.node } := by
  induction us generalizing s with
  | nil => exact ⟨h, fun v => by rw [if_neg List.not_mem_nil]; rfl, rfl⟩
  | cons u us ih =>
    have hr := State.Reacts.reportAll (s.endAdmission u) (X := fun _ => True) (fun _ => trivial) Base.plt 1 u
    obtain ⟨hw, hunits, hlink⟩ := ih ((State.AdmWf.endAdmission h u).congr hr.adm)
    refine ⟨hw, fun v => ?_, hlink.trans ?_⟩
    · refine (hunits v).trans ?_
      rw [State.unitAdm_congr hr.adm, State.unitAdm_endAdmission h]
      by_cases e : v = u <;> by_cases m : v ∈ us <;> simp [e, m, UnitAdm.ended]
    · rw [hr.link]
      rfl

/-- The acknowledgements of a change are forgotten. -/
theorem State.forgetAcks_units {α : Type} (f : α → Nat) : ∀ (es : List α) {s : State}, s.AdmWf → ∀ v,
    (es.foldl (fun s e => s.setUnit (f e) fun a => { a with acked := false }) s).unitAdm v
      = if ∃ e ∈ es, f e = v then { s.unitAdm v with acked := false } else s.unitAdm v
  | [], s, _, v => by simp
  | e :: es, s, h, v => by
    rw [List.foldl_cons, State.forgetAcks_units f es (State.AdmWf.setUnit h (f e) _), State.unitAdm_setUnit h]
    by_cases hv : f e = v
    · simp [hv]
    · simp [hv, Ne.symm hv]

/-- The units left out by a switch: none that was admitted and has acknowledged, every other that was admitted. -/
theorem State.mem_leftOut {s : State} (t : Option Timetable) {u : Nat} :
    (u ∈ s.leftOut t → ((s.unitAdm u).admitted && (s.unitAdm u).acked) = false)
      ∧ ((s.unitAdm u).admitted = true → (s.unitAdm u).acked = false → u ∈ s.leftOut t) := by
  unfold State.leftOut
  extract_lets all
  refine ⟨fun h => (Bool.not_eq_true' _) ▸ (List.mem_filter.1 h).2,
    fun had hack => List.mem_filter.2 ⟨?_, by rw [hack, Bool.and_false]; rfl⟩⟩
  have hne : s.unitAdm u ≠ {} := fun e => by
    rw [e] at had
    cases had
  exact (mem_foldl_insertNat _ _ _).2 (.inr ⟨_, List.mem_filter.2 ⟨SMap.mem_of_get_ne hne, had⟩, rfl⟩)

/-- The switch at TARGET: the new mode at the start of its cycle, no acknowledgement stands, the units that have acknowledged stay
admitted, and at the master the others are not. -/
theorem State.switchMode_switches {s : State} (h : s.AdmWf) :
    s.switchMode.link = { s.link.switched with node := s.switchMode.link.node } ∧ ∀ u, (s.switchMode.unitAdm u).acked = false
      ∧ ((s.unitAdm u).admitted = true → (s.unitAdm u).acked = true → (s.switchMode.unitAdm u).admitted = true)
      ∧ (s.link.node = .master → (s.unitAdm u).acked = false → (s.switchMode.unitAdm u).admitted = false) := by
  unfold State.switchMode
  extract_lets k out v w x
  have hvw : v.AdmWf := h
  have hw : w.AdmWf ∧ w.link = { s.link.switched with node := w.link.node } ∧ ∀ u, w.unitAdm u
      = if k.node = .master ∧ u ∈ out then (s.unitAdm u).ended else s.unitAdm u := by
    unfold w
    by_cases hm : k.node = .master
    · rw [if_pos hm]
      obtain ⟨hwf, hunits, hlink⟩ := State.dismiss_units hvw out
      exact ⟨hwf, hlink, fun u => by
        simp only [hm, true_and]
        exact hunits u⟩
    · rw [if_neg hm]
      exact ⟨hvw, rfl, fun u => by rw [if_neg fun hc => hm hc.1]; rfl⟩
  obtain ⟨hwf, hlink, hunits⟩ := hw
  have hx : x = { w with adm := x.adm } := State.foldl_setUnit_rest ..
  have hacks (u : Nat) : x.unitAdm u = { w.unitAdm u with acked := false } := by
    refine (State.forgetAcks_units (fun e : Nat × UnitAdm => e.1) w.adm hwf u).trans ?_
    split
    · rfl
    · next hno =>
      have he : w.unitAdm u = {} := by
        by_contra hne
        exact hno ⟨_, SMap.mem_of_get_ne hne, rfl⟩
      rw [he]
  refine ⟨?_, fun u => ?_⟩
  · change x.link = { s.link.switched with node := x.link.node }
    rw [hx]
    exact hlink
  · change (x.unitAdm u).acked = false ∧ (_ → _ → (x.unitAdm u).admitted = true) ∧ (_ → _ → (x.unitAdm u).admitted = false)
    rw [hacks, hunits]
    refine ⟨rfl, fun had hack => ?_, fun hm hack => ?_⟩
    · rw [if_neg fun hc => ?_]
      · exact had
      · have hout := (State.mem_leftOut _).1 hc.2
        rw [had, hack] at hout
        cases hout
    · split
      · rfl
      · next hno => exact Bool.eq_false_iff.2 fun had => hno ⟨hm, (State.mem_leftOut _).2 had hack⟩

end Machine

end Sys2Proof
end

section
/-! The master's schedule on the Platform Link (R317, R321, R322, R325 to R332), and the statement about it. -/

namespace Sys2Proof.Machine

/-! ### The next basic cycle (R317, R328, R330) -/

theorem State.table_congr {s t : State} (hf : t.file = s.file) (hm : t.link.mode = s.link.mode) : t.table = s.table := by
  rw [State.table, hf, hm, State.table]

theorem State.ttLen_congr {s t : State} (hf : t.file = s.file) (hm : t.link.mode = s.link.mode) : t.ttLen = s.ttLen := by
  rw [State.ttLen, State.table_congr hf hm, State.ttLen]

/-- The link in the basic cycle after the present one, of a Timetable cycle of `n`; the references are predicted. -/
def LinkSt.stepped (k : LinkSt) (n refA refB : Nat) : LinkSt :=
  { k with bc64 := (k.bc64 + 1) % 2 ^ 64, ttPos := (k.ttPos + 1) % n, slot := 0, refA := refA, refB := refB }

theorem State.nextBasic_eq (s : State) : ∃ a b, s.nextBasic
    = if s.link.pending ∧ (s.link.bc64 + 1) % 2 ^ 32 = s.link.target then
        ({ s with link := s.link.stepped s.ttLen a b } : State).switchMode
      else { s with link := s.link.stepped s.ttLen a b } := ⟨_, _, rfl⟩

/-- Outside TARGET the basic cycle counts on. -/
theorem State.nextBasic_counts {s : State} (h : s.link.pending = false) :
    ∃ a b, s.nextBasic = { s with link := s.link.stepped s.ttLen a b } := by
  obtain ⟨a, b, e⟩ := s.nextBasic_eq
  exact ⟨a, b, e.trans (if_neg fun hc => Bool.false_ne_true (h.symm.trans hc.1))⟩

/-- At TARGET the mode changes. -/
theorem State.nextBasic_switches {s : State} (hw : s.AdmWf) (hp : s.link.pending = true) (ht : (s.link.bc64 + 1) % 2 ^ 32 = s.link.target) :
    ∃ a b, s.nextBasic.link = { (s.link.stepped s.ttLen a b).switched with node := s.nextBasic.link.node } := by
  obtain ⟨a, b, e⟩ := s.nextBasic_eq
  rw [if_pos ⟨hp, ht⟩] at e
  refine ⟨a, b, ?_⟩
  rw [e]
  exact (State.switchMode_switches (s := { s with link := s.link.stepped s.ttLen a b }) hw).1

/-- A node that is not the master counts on as such, whether the mode changes or not. -/
theorem State.nextBasic_of_follower {s : State} (h : s.link.node ≠ .master) : s.Works s.nextBasic ∧ s.nextBasic.link.node = s.link.node
    ∧ s.nextBasic.link.next = s.link.next ∧ s.nextBasic.link.bc64 = (s.link.bc64 + 1) % 2 ^ 64 := by
  obtain ⟨a, b, e⟩ := s.nextBasic_eq
  rw [e]
  split
  · obtain ⟨hw, hl⟩ := State.switchMode_of_follower (s := { s with link := s.link.stepped s.ttLen a b }) h
    rw [hl]
    exact ⟨State.Works.trans ⟨rfl⟩ hw, rfl, rfl, rfl⟩
  · exact ⟨⟨rfl⟩, rfl, rfl, rfl⟩

/-! ### The master's basic cycle (R317, R321, R328) -/

/-- An announcement that is due at the start of a Timetable cycle of `n`. -/
def LinkSt.announce (k : LinkSt) (n : Nat) : LinkSt :=
  if k.announceDue ∧ k.ttPos = 0 ∧ !k.pending then
    { k with announceDue := false, pending := true, target := announceTarget (k.bc64 % 2 ^ 32) n }
  else k

/-- An announcement touches its own fields alone. -/
theorem LinkSt.announce_rest (k : LinkSt) (n : Nat) : k.announce n = { k with
    announceDue := (k.announce n).announceDue, pending := (k.announce n).pending, target := (k.announce n).target } := by
  unfold LinkSt.announce
  split
  · rfl
  · rfl

theorem LinkSt.announce_idle {k : LinkSt} (n : Nat) (h : k.announceDue = false) : k.announce n = k :=
  if_neg fun hc => Bool.false_ne_true (h.symm.trans hc.1)

/-- The basic cycle in which the master sends: the first after a cold start, or the next. -/
def State.nextMastered (s : State) : State :=
  if s.link.coldDue then { s with link := { s.link with coldDue := false, bc64 := 0, ttPos := 0 } } else s.nextBasic

/-- The master in its basic cycle, before its reference frames leave. -/
def State.mastering (s : State) : State :=
  { s.nextMastered with link := { s.nextMastered.link.announce s.nextMastered.ttLen with slot := 0, polled := 0, invited := false } }

theorem State.masterCycle_eq (s : State) : ∃ stime txq left, s.masterCycle = { s.mastering with
    txq := txq, link := { s.mastering.link with stime := stime, takeover := false, changeLeft := left } } := by
  obtain ⟨stime, txq, h⟩ := s.mastering.sendReference_rest false
  have hm : s.masterCycle = { s.mastering.sendReference false with
      link := { (s.mastering.sendReference false).link with
        takeover := false, changeLeft := (s.mastering.sendReference false).link.changeLeft - 1 } } := rfl
  rw [hm, h]
  exact ⟨_, _, _, rfl⟩

/-- No change of the mode is announced: the master counts on, or begins with number 0 after a cold start. -/
theorem State.masterCycle_works {s : State} (h : s.link.coldDue = true ∨ s.link.pending = false) :
    s.Works s.masterCycle ∧ s.masterCycle.link.node = s.link.node ∧ s.masterCycle.link.next = s.link.next := by
  have hnext : s.Works s.nextMastered ∧ s.nextMastered.link.node = s.link.node ∧ s.nextMastered.link.next = s.link.next := by
    unfold State.nextMastered
    split
    · exact ⟨⟨rfl⟩, rfl, rfl⟩
    · next hc =>
      obtain ⟨a, b, e⟩ := State.nextBasic_counts (h.resolve_left hc)
      rw [e]
      exact ⟨⟨rfl⟩, rfl, rfl⟩
  obtain ⟨stime, txq, left, e⟩ := s.masterCycle_eq
  have hann := s.nextMastered.link.announce_rest s.nextMastered.ttLen
  rw [e]
  refine ⟨hnext.1.trans ⟨rfl⟩, ?_, ?_⟩
  · change (s.nextMastered.link.announce s.nextMastered.ttLen).node = _
    rw [hann]
    exact hnext.2.1
  · change (s.nextMastered.link.announce s.nextMastered.ttLen).next = _
    rw [hann]
    exact hnext.2.2

/-- The master's next basic cycle, and an announcement that is due at the start of its Timetable cycle. -/
theorem State.masterCycle_counts {s : State} (hcold : s.link.coldDue = false) (hp : s.link.pending = false) :
    s.masterCycle.link.bc64 = (s.link.bc64 + 1) % 2 ^ 64 ∧ s.masterCycle.link.ttPos = (s.link.ttPos + 1) % s.ttLen
      ∧ s.masterCycle.link.slot = 0 ∧ s.masterCycle.link.litA = s.link.litA ∧ s.masterCycle.link.litB = s.link.litB
      ∧ ((s.link.announceDue = true ∧ (s.link.ttPos + 1) % s.ttLen = 0) →
        s.masterCycle.link.pending = true ∧ s.masterCycle.link.announceDue = false
          ∧ s.masterCycle.link.target = announceTarget ((s.link.bc64 + 1) % 2 ^ 64 % 2 ^ 32) s.ttLen) := by
  obtain ⟨a, b, hnext⟩ := State.nextBasic_counts hp
  have hm : s.nextMastered = { s with link := s.link.stepped s.ttLen a b } :=
    (if_neg (Bool.eq_false_iff.1 hcold)).trans hnext
  have hlen : s.nextMastered.ttLen = s.ttLen := by
    rw [hm]
    rfl
  have hlink : s.nextMastered.link = s.link.stepped s.ttLen a b := by rw [hm]
  obtain ⟨stime, txq, left, e⟩ := s.masterCycle_eq
  have hk : s.mastering.link = { (s.link.stepped s.ttLen a b).announce s.ttLen with slot := 0, polled := 0, invited := false } := by
    unfold State.mastering
    rw [hlen, hlink]
  have hann := (s.link.stepped s.ttLen a b).announce_rest s.ttLen
  rw [e]
  dsimp only
  rw [hk]
  refine ⟨?_, ?_, rfl, ?_, ?_, fun ⟨hdue, hpos⟩ => ?_⟩
  · rw [hann]; rfl
  · rw [hann]; rfl
  · rw [hann]; rfl
  · rw [hann]; rfl
  · have hyes : (s.link.stepped s.ttLen a b).announce s.ttLen = _ := if_pos ⟨hdue, hpos, by
      change (!s.link.pending) = true
      rw [hp]
      rfl⟩
    rw [hyes]
    exact ⟨rfl, rfl, rfl⟩

theorem State.masterCycle_coldStarts {s : State} (hcold : s.link.coldDue = true) :
    s.masterCycle.link.bc64 = 0 ∧ s.masterCycle.link.ttPos = 0 ∧ s.masterCycle.link.coldDue = false := by
  have hm : s.nextMastered = { s with link := { s.link with coldDue := false, bc64 := 0, ttPos := 0 } } := if_pos hcold
  obtain ⟨stime, txq, left, e⟩ := s.masterCycle_eq
  have hann := s.nextMastered.link.announce_rest s.nextMastered.ttLen
  rw [e]
  unfold State.mastering
  rw [hann, hm]
  exact ⟨rfl, rfl, rfl⟩

theorem State.masterCycle_switches {s : State} (hw : s.AdmWf) (hcold : s.link.coldDue = false) (hp : s.link.pending = true)
    (ht : (s.link.bc64 + 1) % 2 ^ 32 = s.link.target) :
    s.masterCycle.link.mode = s.link.pendMode ∧ s.masterCycle.link.pending = false ∧ s.masterCycle.link.ttPos = 0 := by
  obtain ⟨a, b, hlink⟩ := State.nextBasic_switches hw hp ht
  have hm : s.nextMastered = s.nextBasic := if_neg (Bool.eq_false_iff.1 hcold)
  have hidle : s.nextMastered.link.announce s.nextMastered.ttLen = s.nextBasic.link := by
    rw [hm]
    exact LinkSt.announce_idle _ (by rw [hlink]; rfl)
  obtain ⟨stime, txq, left, e⟩ := s.masterCycle_eq
  rw [e]
  unfold State.mastering
  rw [hidle, hlink]
  exact ⟨rfl, rfl, rfl⟩

/-! ### The start of a basic cycle, by the state of the node (R317, R321, R322) -/

section CycleStart

variable {s : State} (a b : SfpObs) (hc : s.link.copies = []) (hA : s.link.litA = true) (hB : s.link.litB = true)

include hc hA hB

theorem basicCycleStart_masters (hn : s.link.node = .master) (hkeep : s.link.next = 0 ∨ s.link.changeLeft ≠ 0)
    (hcold : s.link.coldDue = false) (hp : s.link.pending = false) :
    ∃ t, exec (.basicCycleStart a b) s = .next t ∧ s.Steady t
      ∧ t.link.node = .master ∧ t.link.bc64 = (s.link.bc64 + 1) % 2 ^ 64 ∧ t.link.ttPos = (s.link.ttPos + 1) % s.ttLen
      ∧ t.link.slot = 0 ∧ t.link.litA = false ∧ t.link.litB = false
      ∧ ((s.link.announceDue = true ∧ (s.link.ttPos + 1) % s.ttLen = 0) →
        t.link.pending = true ∧ t.link.announceDue = false
          ∧ t.link.target = announceTarget ((s.link.bc64 + 1) % 2 ^ 64 % 2 ^ 32) s.ttLen) := by
  have hw := State.atBasicCycle_works a b hc (.inl ⟨hA, hB⟩)
  have hlink := State.atBasicCycle_link a b hc (.inl ⟨hA, hB⟩)
  generalize hu : s.atBasicCycle a b = u at hw hlink
  have hlen : u.ttLen = s.ttLen := State.ttLen_congr hw.file (by rw [hlink])
  have hexec : exec (.basicCycleStart a b) s = .next u.masterCycle := by
    rw [basicCycleStart_master hu (by rw [hlink]; exact hn), hlink, if_neg fun h => hkeep.elim h.1 fun hl => hl h.2]
  obtain ⟨hw', hnode, -⟩ := State.masterCycle_works (s := u) (.inr (by rw [hlink]; exact hp))
  obtain ⟨hbc, hpos, hslot, hla, hlb, hann⟩ :=
    State.masterCycle_counts (s := u) (by rw [hlink]; exact hcold) (by rw [hlink]; exact hp)
  rw [hlen, hlink] at hpos hann
  rw [hlink] at hnode hbc hla hlb
  exact ⟨_, hexec, (hw.trans hw').steady, hnode.trans hn, hbc, hpos, hslot, hla, hlb, hann⟩

theorem basicCycleStart_coldMasters (hn : s.link.node = .master) (hnext : s.link.next = 0) (hcold : s.link.coldDue = true) :
    ∃ t, exec (.basicCycleStart a b) s = .next t ∧ s.Steady t
      ∧ t.link.node = .master ∧ t.link.bc64 = 0 ∧ t.link.ttPos = 0 ∧ t.link.coldDue = false := by
  have hw := State.atBasicCycle_works a b hc (.inl ⟨hA, hB⟩)
  have hlink := State.atBasicCycle_link a b hc (.inl ⟨hA, hB⟩)
  generalize hu : s.atBasicCycle a b = u at hw hlink
  have hexec : exec (.basicCycleStart a b) s = .next u.masterCycle := by
    rw [basicCycleStart_master hu (by rw [hlink]; exact hn), hlink, if_neg fun h => h.1 hnext]
  have hcold' : u.link.coldDue = true := by rw [hlink]; exact hcold
  obtain ⟨hw', hnode, -⟩ := State.masterCycle_works (.inl hcold')
  rw [hlink] at hnode
  exact ⟨_, hexec, (hw.trans hw').steady, hnode.trans hn, State.masterCycle_coldStarts hcold'⟩

theorem basicCycleStart_switches (hwf : s.AdmWf) (hn : s.link.node = .master) (hnext : s.link.next = 0) (hcold : s.link.coldDue = false)
    (hp : s.link.pending = true) (ht : (s.link.bc64 + 1) % 2 ^ 32 = s.link.target) :
    ∃ t, exec (.basicCycleStart a b) s = .next t ∧ t.link.mode = s.link.pendMode ∧ t.link.pending = false ∧ t.link.ttPos = 0 := by
  have hlink := State.atBasicCycle_link a b hc (.inl ⟨hA, hB⟩)
  have hadm : (s.atBasicCycle a b).adm = s.closeSlot.adm := by rw [(State.atBasicCycle_rest a b hc (.inl ⟨hA, hB⟩)).1]
  have hwf' : (s.atBasicCycle a b).AdmWf := (State.closeSlot_units hwf).1.congr hadm
  generalize hu : s.atBasicCycle a b = u at hwf' hlink
  have hexec : exec (.basicCycleStart a b) s = .next u.masterCycle := by
    rw [basicCycleStart_master hu (by rw [hlink]; exact hn), hlink, if_neg fun h => h.1 hnext]
  obtain ⟨hmode, hpend, hpos⟩ := State.masterCycle_switches hwf' (by rw [hlink]; exact hcold) (by rw [hlink]; exact hp)
    (by rw [hlink]; exact ht)
  rw [hlink] at hmode
  exact ⟨_, hexec, hmode, hpend, hpos⟩

/-- A master that has named the other in two frames gives way. -/
theorem basicCycleStart_givesWay (hn : s.link.node = .master) (hnext : s.link.next ≠ 0) (hleft : s.link.changeLeft = 0) :
    ∃ t, exec (.basicCycleStart a b) s = .next t
      ∧ t.link.node = .follow ∧ t.link.next = 0 ∧ t.link.bc64 = (s.link.bc64 + 1) % 2 ^ 64 ∧ s.Steady t := by
  have hw := State.atBasicCycle_works a b hc (.inl ⟨hA, hB⟩)
  have hlink := State.atBasicCycle_link a b hc (.inl ⟨hA, hB⟩)
  generalize hu : s.atBasicCycle a b = u at hw hlink
  have hexec := basicCycleStart_master (a := a) (b := b) hu (by rw [hlink]; exact hn)
  rw [if_pos (by rw [hlink]; exact ⟨hnext, hleft⟩)] at hexec
  obtain ⟨hw', hnode, hnext', hbc⟩ := State.nextBasic_of_follower
    (s := ({ u with link := { u.link with node := .follow, next := 0, polled := 0 } } : State).setMaster u.otherNode)
    (show NodeState.follow ≠ .master by decide)
  have hbc' : u.link.bc64 = s.link.bc64 := by rw [hlink]
  exact ⟨_, hexec, hnode, hnext', by rw [← hbc']; exact hbc, ((hw.trans ⟨rfl⟩).trans hw').steady⟩

/-- The node named in two frames sends from then on. -/
theorem basicCycleStart_takesOver (hn : s.link.node = .follow) (hnext : s.link.next = s.nodeId) (hleft : 2 ≤ s.link.changeLeft)
    (hp : s.link.pending = false) :
    ∃ t, exec (.basicCycleStart a b) s = .next t ∧ t.link.node = .master ∧ t.link.next = 0 ∧ s.Steady t := by
  have hw := State.atBasicCycle_works a b hc (.inl ⟨hA, hB⟩)
  have hlink := State.atBasicCycle_link a b hc (.inl ⟨hA, hB⟩)
  generalize hu : s.atBasicCycle a b = u at hw hlink
  have hexec := basicCycleStart_follow (a := a) (b := b) hu (by rw [hlink]; exact hn)
  rw [if_pos (by rw [hlink, hw.nodeId]; exact ⟨hnext, hleft⟩)] at hexec
  obtain ⟨hw', hnode, hnext'⟩ := State.masterCycle_works
    (s := ({ u with link := { u.link with node := .master, next := 0, changeLeft := 0 } } : State).setMaster u.nodeId)
    (.inr (show u.link.pending = false by rw [hlink]; exact hp))
  exact ⟨_, hexec, hnode, hnext', ((hw.trans ⟨rfl⟩).trans hw').steady⟩

theorem State.refSeen_atBasicCycle : (s.atBasicCycle a b).refSeen = s.refSeen := by
  obtain ⟨hrest, hregs⟩ := State.atBasicCycle_rest a b hc (.inl ⟨hA, hB⟩)
  have hclock (l : Lane) : ((s.atBasicCycle a b).lane.get l).clock = (s.lane.get l).clock := by rw [hregs l]
  have hlead : (s.atBasicCycle a b).leadLane = s.leadLane := by
    rw [hrest]
    rfl
  have hseen : (s.atBasicCycle a b).link.seen = s.link.seen := by rw [hrest]
  have hns : (s.atBasicCycle a b).bcNs = s.bcNs := by
    rw [hrest]
    rfl
  rw [State.refSeen, hseen, hns, hlead, hclock, State.refSeen]

/-- A module in FOLLOW counts a basic cycle whose reference frame has not come. -/
theorem basicCycleStart_tracks (hn : s.link.node = .follow) (hnext : s.link.next ≠ s.nodeId) :
    ∃ t, exec (.basicCycleStart a b) s = .next t ∧ t.link.node = .follow
      ∧ s.Steady t ∧ t.link.bc64 = (if s.refSeen then s.link.bc64 else (s.link.bc64 + 1) % 2 ^ 64) := by
  have hw := State.atBasicCycle_works a b hc (.inl ⟨hA, hB⟩)
  have hlink := State.atBasicCycle_link a b hc (.inl ⟨hA, hB⟩)
  have hseen := State.refSeen_atBasicCycle a b hc hA hB
  generalize hu : s.atBasicCycle a b = u at hw hlink hseen
  have hnode : u.link.node = .follow := by rw [hlink]; exact hn
  have hexec := basicCycleStart_follow (a := a) (b := b) hu hnode
  rw [if_neg (by rw [hlink, hw.nodeId]; exact fun h => hnext h.1), hseen] at hexec
  have hbc' : u.link.bc64 = s.link.bc64 := by rw [hlink]
  refine ⟨_, hexec, ?_⟩
  rw [← hbc']
  split
  · exact ⟨hnode, hw.steady, rfl⟩
  · obtain ⟨hw', hnode', -, hbc⟩ := State.nextBasic_of_follower (s := u) (by rw [hnode]; decide)
    exact ⟨hnode'.trans hnode, (hw.trans hw').steady, hbc⟩

theorem basicCycleStart_unit (hn : s.link.node = .integrated ∨ s.link.node = .answering) :
    ∃ t, exec (.basicCycleStart a b) s = .next t ∧ t.link.node = s.link.node ∧ t.link.bc64 = s.link.bc64 ∧ s.Steady t := by
  have hw := State.atBasicCycle_works a b hc (.inl ⟨hA, hB⟩)
  have hlink := State.atBasicCycle_link a b hc (.inl ⟨hA, hB⟩)
  exact ⟨_, basicCycleStart_lineside rfl (by rw [hlink]; exact hn), by rw [hlink], by rw [hlink], hw.steady⟩

end CycleStart

end Sys2Proof.Machine
end

section
/-! Slots, mode changes and ages at the master of the Platform Link (R325 to R332), and the statement about its schedule. -/

namespace Sys2Proof.Machine

/-! ### Frames that leave on the link -/

theorem lkType_linkFrame (type vflags src dst slot bc len : Nat) (body : Bytes) (h : type < 256) :
    lkType (linkFrame (linkHead type vflags src dst slot bc len) body) = type := by
  change (BitVec.ofNat 8 type).toNat = type
  rw [BitVec.toNat_ofNat]
  exact Nat.mod_eq_of_lt h

theorem lkInvite_linkFrame (type vflags src dst slot bc len : Nat) (body : Bytes) :
    lkInvite (linkFrame (linkHead type vflags src dst slot bc len) body) = (byteOf vflags).toNat.testBit 4 := rfl

/-- The sessions of every lane stand. -/
def State.SameSess (s t : State) : Prop := ∀ l, (t.lane.get l).sess = (s.lane.get l).sess

theorem State.SameSess.refl (s : State) : s.SameSess s := fun _ => rfl

theorem State.SameSess.trans {s t u : State} (h : s.SameSess t) (k : t.SameSess u) : s.SameSess u := fun l => (k l).trans (h l)

theorem State.SameSess.updIn (s : State) (ls : LaneSet) {f : Lane → LaneSt → LaneSt} (h : ∀ (l : Lane) (L : LaneSt), (f l L).sess = L.sess) :
    s.SameSess (s.updIn ls f) := fun l => by
  rw [State.updIn_lane]
  split
  · exact h l _
  · rfl

theorem State.SameSess.echo (s : State) (m : Lane) (base n data : Nat) : s.SameSess (s.echo m base n data) := fun l => by
  unfold State.echo
  by_cases e : l = m
  · subst e
    rw [State.upd_lane_self]
    unfold LaneSt.recordOnce
    split
    · rfl
    · exact LaneSt.record_sess ..
  · rw [State.upd_lane_of_ne _ _ e]

theorem State.SameSess.event (s : State) (base n data : Nat) : s.SameSess (s.event base n data) := by
  unfold State.event State.recordIn
  exact updIn s _ fun _ _ => LaneSt.record_sess ..

theorem State.SameSess.count (s : State) (off lo w n : Nat) : s.SameSess (s.count off lo w n) := updIn s _ fun _ _ => rfl

/-- A frame withheld is told by the counts and the books. -/
theorem State.SameSess.countTxLate (s : State) (pair : Nat) : s.SameSess (s.countTxLate pair) := by
  unfold State.countTxLate
  extract_lets whole
  split
  · have hcount := State.SameSess.count s Reg.TX_ERR_CNT 16 16 1
    exact hcount.trans (event _ _ _ _)
  · clear * -
    generalize Lane.list = ls
    induction ls generalizing s with
    | nil => exact .refl s
    | cons m ls ih =>
      refine State.SameSess.trans ?_ (ih _)
      dsimp only
      split
      · exact State.SameSess.echo s m Base.vote 7 0
      · exact .refl s

/-- A poll leaves or is withheld; the sessions stand. -/
theorem State.sendPoll_sends (s : State) (u slot seq : Nat) (ch : PlCh) :
    s.Sends (s.sendPoll u slot seq ch) ∧ s.SameSess (s.sendPoll u slot seq ch) := by
  unfold State.sendPoll
  split
  · exact ⟨.withheld 1 s, .countTxLate s s.txPair⟩
  · exact ⟨.putFrame .., fun _ => rfl⟩

/-! ### A slot of the master (R298, R325, R332) -/

/-- The master in a slot with an entry, the slot before closed. -/
def State.inEntry (s : State) (n : Nat) (e : TtEntry) : State :=
  { s with link := { s.link with
    slot := n, slotAt := (s.lane.get s.leadLane).clock, polled := 0, invited := false, slotLen := e.length * 10 } }

/-- The poll of an admitted unit: its data taken by every lane, the two frames sent. -/
def State.pollUnit (s : State) (u n : Nat) : State :=
  let seq := (((s.lane.get s.leadLane).session (unitSess u)).seqTx + 1) % 2 ^ 32
  let t := s.updAll fun _ L => L.setSession (unitSess u) fun S => { S with seqTx := seq, sent := S.sent + 1 }
  let t := t.setUnit u fun a => { a with answered := false }
  let t := (t.sendPoll u n seq .chA).sendPoll u n seq .chB
  { t with link := { t.link with
    polled := u, pollEnd := (s.lane.get s.leadLane).clock + burstNs (100 + (if t.file.linkCat = 3 then 8 else 0)) } }

/-- The two frames of an invitation. -/
def State.inviteUnit (s : State) (u n : Nat) : State :=
  let f := linkFrame (linkHead 2 0x11 s.nodeId u n (s.link.bc64 % 2 ^ 32) 0) []
  let t := (s.sendLink .chA f).sendLink .chB f
  { t with link := { t.link with
    polled := u, invited := true, lastInv := u, pollEnd := (s.lane.get s.leadLane).clock + burstNs 20 } }

/-- What the master sends in a slot: to an admitted unit its poll, in an INVITE slot an invitation. -/
def State.serveEntry (s : State) (n : Nat) (e : TtEntry) : Host.Outcome State Fault Refusal :=
  if e.kind = 2 then
    if (s.unitAdm e.unit).admitted ∧ s.mstate.polls then .next (s.pollUnit e.unit n) else .next s
  else if e.kind = 3 then
    match s.nextInvite with
    | some u => .next (s.inviteUnit u n)
    | none => .next s
  else .next s

theorem State.nextInvite_congr {s t : State} (htable : t.table = s.table) (hlast : t.link.lastInv = s.link.lastInv)
    (hunits : ∀ u, ∃ missed answered, t.unitAdm u = { s.unitAdm u with missed := missed, answered := answered }) :
    t.nextInvite = s.nextInvite := by
  have hadmitted (u : Nat) : (t.unitAdm u).admitted = (s.unitAdm u).admitted := by
    obtain ⟨_, _, e⟩ := hunits u
    rw [e]
  have hpdA (u : Nat) : (t.unitAdm u).pdA = (s.unitAdm u).pdA := by
    obtain ⟨_, _, e⟩ := hunits u
    rw [e]
  have hpdB (u : Nat) : (t.unitAdm u).pdB = (s.unitAdm u).pdB := by
    obtain ⟨_, _, e⟩ := hunits u
    rw [e]
  unfold State.nextInvite
  simp only [htable, hlast, hadmitted, hpdA, hpdB]

/-- The slot before closed, the module is in the entry of this slot and nothing else of it has changed but the unit polled. -/
theorem State.inEntry_works (s : State) (n : Nat) (e : TtEntry) :
    s.closeSlot.inEntry n e = { s with adm := s.closeSlot.adm, link := (s.inEntry n e).link } := by
  have hrest := s.closeSlot_rest
  generalize s.closeSlot = u at hrest ⊢
  rw [hrest]
  rfl

theorem State.pollUnit_works (s : State) (u n : Nat) : s.Works (s.pollUnit u n) ∧ (s.pollUnit u n).link.slot = s.link.slot
    ∧ (s.pollUnit u n).link.polled = u ∧ (s.pollUnit u n).link.invited = s.link.invited := by
  unfold State.pollUnit
  extract_lets seq v w x
  have hx : w.Sends x := (State.sendPoll_sends ..).1.trans (State.sendPoll_sends ..).1
  have hw : s.Works w := ⟨rfl⟩
  have hlink : x.link = s.link := by
    rw [hx.rest]
    rfl
  exact ⟨(hw.trans (.of_sends hx)).trans ⟨rfl⟩, (congrArg LinkSt.slot hlink :), rfl, (congrArg LinkSt.invited hlink :)⟩

theorem State.pollUnit_unanswered {s : State} (hwf : s.AdmWf) (u n : Nat) : ((s.pollUnit u n).unitAdm u).answered = false := by
  unfold State.pollUnit
  extract_lets seq v w x
  have hx : w.Sends x := (State.sendPoll_sends ..).1.trans (State.sendPoll_sends ..).1
  have hadm : x.adm = w.adm := by rw [hx.rest]
  change (x.unitAdm u).answered = false
  rw [State.unitAdm_congr hadm, State.unitAdm_setUnit (s := v) hwf, if_pos rfl]

theorem State.pollUnit_seqTx (s : State) (u n : Nat) (l : Lane) : (((s.pollUnit u n).lane.get l).session (unitSess u)).seqTx
    = (((s.lane.get s.leadLane).session (unitSess u)).seqTx + 1) % 2 ^ 32 := by
  unfold State.pollUnit
  extract_lets seq v w x
  have hx : w.SameSess x := (State.sendPoll_sends ..).2.trans (State.sendPoll_sends ..).2
  change ((x.lane.get l).session (unitSess u)).seqTx = seq
  have hsess : (x.lane.get l).session (unitSess u) = (w.lane.get l).session (unitSess u) := by
    rw [LaneSt.session, hx l, LaneSt.session]
  rw [hsess]
  change ((v.lane.get l).session (unitSess u)).seqTx = seq
  unfold v
  rw [State.updAll_lane, LaneSt.session, LaneSt.setSession, getD, putD, SMap.get_put_of_ne_default]
  intro e
  exact absurd (congrArg SessSt.sent e) (Nat.succ_ne_zero _)

section Slot

variable {s : State} (n : BitVec 10)

theorem slotStart_follows (hn : s.link.node = .follow) :
    exec (.slotStart n) s = .next { s with link := { s.link with slot := n.toNat } } := if_pos hn

theorem slotStart_waits (hf : s.link.node ≠ .follow) (hm : s.link.node ≠ .master) : exec (.slotStart n) s = .next s := by
  change execSlotStart n s = _
  unfold execSlotStart
  dsimp only
  rw [if_neg hf, if_pos hm]

variable (hc : s.link.copies = []) {tt : Timetable} {e : TtEntry} (hn : s.link.node = .master) (ht : s.table = some tt)
  (he : tt.entryAt n.toNat s.link.ttPos = some e)

include hc hn ht he

/-- The slot before is closed and the node is in the entry of this one. -/
theorem slotStart_opens : exec (.slotStart n) s = (s.closeSlot.inEntry n.toNat e).serveEntry n.toNat e := by
  have hrest := s.closeSlot_rest
  have htable : s.closeSlot.table = some tt := by
    rw [← ht]
    exact State.table_congr (by rw [hrest]) (by rw [hrest])
  change execSlotStart n s = _
  unfold execSlotStart
  rw [State.settleCopies_none hc, if_neg (by rw [hn]; decide), if_neg (not_not.2 hn)]
  extract_lets u at_ found k v
  have hfound : found = some e := by
    unfold found u
    rw [htable, hrest]
    exact he
  have hv : v = u.inEntry n.toNat e := by
    unfold v
    rw [hfound]
    rfl
  rw [hfound, hv]
  rfl

theorem slotStart_polls (hwf : s.AdmWf) (hk : e.kind = 2) (had : (s.unitAdm e.unit).admitted = true) (hp : s.mstate.polls = true) :
    ∃ t, exec (.slotStart n) s = .next t ∧ s.Steady t
      ∧ t.link.slot = n.toNat ∧ t.link.polled = e.unit ∧ t.link.invited = false
      ∧ (t.unitAdm e.unit).answered = false
      ∧ ∀ l : Lane, ((t.lane.get l).session (unitSess e.unit)).seqTx
          = (((s.lane.get s.leadLane).session (unitSess e.unit)).seqTx + 1) % 2 ^ 32 := by
  obtain ⟨hclosed, hunits⟩ := State.closeSlot_units hwf
  have hrest := s.inEntry_works n.toNat e
  have hadm : (s.closeSlot.inEntry n.toNat e).AdmWf := hclosed
  have hunit : ((s.closeSlot.inEntry n.toNat e).unitAdm e.unit).admitted = true := by
    obtain ⟨_, _, hu⟩ := hunits e.unit
    exact (congrArg UnitAdm.admitted hu).trans had
  rw [slotStart_opens n hc hn ht he, State.serveEntry, if_pos hk]
  generalize s.closeSlot.inEntry n.toNat e = v at hrest hadm hunit ⊢
  have hv : s.Works v := ⟨by rw [hrest]⟩
  have hlink : v.link = (s.inEntry n.toNat e).link := by rw [hrest]
  have hlane : v.lane = s.lane ∧ v.leadLane = s.leadLane := by
    rw [hrest]
    exact ⟨rfl, rfl⟩
  rw [if_pos ⟨hunit, by rw [hv.mstate]; exact hp⟩]
  obtain ⟨hworks, hslot, hpolled, hinvited⟩ := v.pollUnit_works e.unit n.toNat
  refine ⟨_, rfl, (hv.trans hworks).steady, ?_, hpolled, ?_, State.pollUnit_unanswered hadm _ _, fun l => ?_⟩
  · rw [hslot, hlink]
    rfl
  · rw [hinvited, hlink]
    rfl
  · rw [State.pollUnit_seqTx, hlane.1, hlane.2]

theorem slotStart_invites (hwf : s.AdmWf) {u : Nat} (hk : e.kind = 3) (hu : s.nextInvite = some u) :
    ∃ t, exec (.slotStart n) s = .next t ∧ s.Steady t
      ∧ t.link.slot = n.toNat ∧ t.link.polled = u ∧ t.link.invited = true ∧ t.link.lastInv = u
      ∧ ∃ f : Bytes, t.txq = s.txq ++ [⟨.plA, f, s.txPair, none⟩, ⟨.plB, f, s.txPair, none⟩] ∧ lkType f = 2 ∧ lkInvite f = true := by
  obtain ⟨-, hunits⟩ := State.closeSlot_units hwf
  have hrest := s.inEntry_works n.toNat e
  have hnext : (s.closeSlot.inEntry n.toNat e).nextInvite = some u := by
    rw [← hu]
    refine State.nextInvite_congr (State.table_congr ?_ ?_) ?_ hunits
    · rw [hrest]
    · rw [hrest]
      rfl
    · rw [hrest]
      rfl
  rw [slotStart_opens n hc hn ht he, State.serveEntry, if_neg (by rw [hk]; decide), if_pos hk, hnext, hrest]
  refine ⟨_, rfl, ⟨rfl, rfl, rfl⟩, rfl, rfl, rfl, rfl, _, List.append_assoc .., ?_, ?_⟩
  · exact lkType_linkFrame _ _ _ _ _ _ _ _ (by decide)
  · exact lkInvite_linkFrame ..

end Slot

/-! ### A change of the mode, and the ages of the units (R327, R330, R332) -/

theorem plModeReq_requests {s : State} (p : Port) (d : Word) (ha : s.AgreesWb p Reg.PL_MODE_REQ) (hb : s.modeReqBar (fieldOf d 0 3) = 0) :
    ∃ t, exec (.plModeReq p d) s = .next t ∧ s.Steady t ∧ t.link.announceDue = true ∧ t.link.pendMode = fieldOf d 0 3
      ∧ t.link.pending = s.link.pending := by
  have hgo : s.writePlMode p d = (s.keepJournal Reg.PL_MODE_REQ d).requestMode (fieldOf d 0 3) := State.agreedWrite_goes ha hb
  refine ⟨s.writePlMode p d, rfl, ?_⟩
  rw [hgo, s.keepJournal_rest]
  exact ⟨⟨rfl, rfl, rfl⟩, rfl, rfl, rfl⟩

section ModeSwitch

variable {s : State}

theorem modeSwitch_waits (h : s.link.pending = false ∨ s.link.node.inside = false) : exec .modeSwitch s = .next s := by
  change execModeSwitch s = _
  exact if_pos (by simpa using h)

variable (hp : s.link.pending = true) (hin : s.link.node.inside = true)

include hp hin

theorem modeSwitch_awaitsTarget (h : s.link.bc64 % 2 ^ 32 ≠ s.link.target) (h1 : (s.link.bc64 + 1) % 2 ^ 32 ≠ s.link.target) :
    exec .modeSwitch s = .next s := by
  change execModeSwitch s = _
  unfold execModeSwitch
  rw [if_neg (by simp [hp, hin]), if_neg h, if_neg h1]

theorem modeSwitch_switches (hwf : s.AdmWf) (h : s.link.bc64 % 2 ^ 32 = s.link.target ∨ (s.link.bc64 + 1) % 2 ^ 32 = s.link.target) :
    ∃ t, exec .modeSwitch s = .next t ∧ t.link.mode = s.link.pendMode ∧ t.link.pending = false
      ∧ t.link.ttPos = (if s.link.bc64 % 2 ^ 32 = s.link.target then 0 else t.ttLen - 1)
      ∧ ∀ u : Nat, (t.unitAdm u).acked = false
        ∧ ((s.unitAdm u).admitted = true → (s.unitAdm u).acked = true → (t.unitAdm u).admitted = true)
        ∧ (s.link.node = .master → (s.unitAdm u).acked = false → (t.unitAdm u).admitted = false) := by
  obtain ⟨hlink, hunits⟩ := State.switchMode_switches hwf
  change ∃ t, execModeSwitch s = .next t ∧ _
  unfold execModeSwitch
  rw [if_neg (by simp [hp, hin])]
  generalize s.switchMode = v at hlink hunits ⊢
  by_cases hnow : s.link.bc64 % 2 ^ 32 = s.link.target
  · rw [if_pos hnow]
    exact ⟨v, rfl, by rw [hlink]; rfl, by rw [hlink]; rfl, by rw [if_pos hnow, hlink]; rfl, hunits⟩
  · rw [if_neg hnow, if_pos (h.resolve_left hnow)]
    exact ⟨_, rfl, by rw [hlink]; rfl, by rw [hlink]; rfl, (if_neg hnow).symm, hunits⟩

end ModeSwitch

theorem State.tallyLost_errSet {s : State} (u : Nat) {l : Lane} {k : Blk} {bit : Nat} (h : s.ErrSet l k bit) :
    (s.tallyLost u).ErrSet l k bit := by
  have hadd : s.Reacts (fun _ => False) (s.updIn s.parts fun _ L => L.payAdd (79 + u) 0xAC 4 1) :=
    .updIn _ s _ fun _ _ => .of_regs rfl rfl rfl rfl rfl id
  unfold State.tallyLost
  split
  · exact hadd.errSet h
  · exact h

theorem unitLost_reports (s : State) (u : BitVec 11) : ∃ t, exec (.unitLost u) s = .next t
    ∧ ∀ l : Lane, s.parts.get l = true → t.ErrSet l (Blk.ofOff Base.plt) 0 :=
  ⟨_, rfl, fun l hl => State.tallyLost_errSet _
    ((State.Reacts.irq (fun _ => False) _ Base.plt 1).errSet (s.reportAll_plt u.toNat (by decide) l hl))⟩

theorem admissionEnd_ends {s : State} (hwf : s.AdmWf) (u : BitVec 11) :
    ∃ t, exec (.admissionEnd u) s = .next t ∧ s.Steady t ∧ (t.unitAdm u.toNat).admitted = false
      ∧ (t.unitAdm u.toNat).pdA = 0xFFFF ∧ (t.unitAdm u.toNat).pdB = 0xFFFF ∧ (t.unitAdm u.toNat).valid = false
      ∧ ∀ v : Nat, v ≠ u.toNat → t.unitAdm v = s.unitAdm v := by
  have hunits := State.unitAdm_endAdmission hwf u.toNat
  refine ⟨_, rfl, (s.endAdmission_works u.toNat).1.steady, ?_, ?_, ?_, ?_, fun v hv => (hunits v).trans (if_neg hv)⟩ <;>
    (rw [hunits, if_pos rfl]; rfl)

/-- Settles O49: each clause is what the link's work of that instruction makes of the master, of a unit or of a mode change. -/
theorem masterSchedule : Obligations.MasterSchedule := by
  intro s hc hwf
  refine ⟨fun a b hA hB => ⟨basicCycleStart_masters a b hc hA hB, basicCycleStart_coldMasters a b hc hA hB,
      basicCycleStart_switches a b hc hA hB hwf, basicCycleStart_givesWay a b hc hA hB, basicCycleStart_takesOver a b hc hA hB,
      basicCycleStart_tracks a b hc hA hB, basicCycleStart_unit a b hc hA hB⟩,
    fun n => ⟨slotStart_follows n, slotStart_waits n, fun _ _ hn ht he => ⟨slotStart_polls n hc hn ht he hwf,
      fun _ => slotStart_invites n hc hn ht he hwf⟩⟩,
    fun p d => plModeReq_requests p d,
    fun hp hin => ⟨modeSwitch_switches hp hin hwf, modeSwitch_awaitsTarget hp hin⟩, modeSwitch_waits,
    fun u => ⟨unitLost_reports s u, admissionEnd_ends hwf u⟩⟩

end Sys2Proof.Machine
end

section
/-! What a frame with a Tablet telegram makes of the sessions of the link, and the answers at the master (R305, R314, R326, R329, R331). -/

namespace Sys2Proof.Machine

/-! ### A telegram of the link in its session (R305 step 6, R358) -/

theorem LaneSt.session_setSession {L : LaneSt} (h : SMap.wf (fun _ => ({} : SessSt)) L.sess = true) (k : Nat) (f : SessSt → SessSt) :
    (L.setSession k f).session k = f (L.session k) := SMap.get_put_self _ _ _ _ h

/-- A telegram whose payload is handed on has passed the checks. -/
theorem SessSt.judge_of_receive {S : SessSt} {c : TbCtx} {clock : Nat} {b : Bytes} (h : (S.receive c clock b).2 = true) :
    S.judge c clock b = .accepted := by
  unfold SessSt.receive at h
  unfold SessSt.judge
  extract_lets now full at h
  extract_lets full'
  by_cases hopen : S.st = .opening
  · rw [if_pos hopen] at h ⊢
    by_cases hfull : S.heard = true ∧ full = .accepted
    · exact if_pos hfull
    · rw [if_neg hfull] at h
      split at h
      · cases h
      · cases h
  · rw [if_neg hopen] at h ⊢
    by_cases hrec : S.st.receives = true
    · rw [if_pos hrec] at h ⊢
      generalize hv : full = v at h
      cases v with
      | accepted => exact hv
      | _ => cases h
    · rw [if_neg hrec] at h
      split at h
      · cases h
      · cases h

theorem State.Receives.linkCtx {s t : State} (h : s.Receives t) (l : Lane) (c : UnitCfg) (master : Bool) (src : Nat) :
    t.linkCtx (t.lane.get l) c master src = s.linkCtx (s.lane.get l) c master src := by
  rw [h.lane l, h.rest]
  rfl

/-- What a lane's session makes of the telegram of a frame. -/
def State.linkVerdict (s : State) (x : LinkRx) (k : Nat) (ctx : LaneSt → TbCtx) (l : Lane) : SessSt × Bool :=
  ((s.lane.get l).session k).receive (ctx (s.lane.get l)) (s.lane.get l).clock (lkBody x.bytes)

section FirstTelegram

variable {s : State} (hc : s.link.copies = []) (x : LinkRx) (k : Nat) (ctx : LaneSt → TbCtx)

include hc

theorem State.linkTook_first (l : Lane) : (s.linkTook x k ctx).get l = ((s.linkLanes x).get l && (s.linkVerdict x k ctx l).2) := by
  rw [State.linkTook, LaneVec.get_ofFn, State.copyIn_none hc, Option.isNone_none, Bool.and_true]
  rfl

theorem State.linkValid_first (l : Lane) (hl : (s.linkLanes x).get l = true) (h : (s.linkVerdict x k ctx l).2 = true) :
    (s.linkValid x k ctx).get l = true := by
  have hjudge : s.linkJudge x k ctx l = .accepted := by
    unfold State.linkJudge
    rw [State.copyIn_none hc]
    exact SessSt.judge_of_receive h
  rw [State.linkValid, LaneVec.get_ofFn, hl, hjudge]
  rfl

theorem State.linkSessions_first (l : Lane) : (s.linkSessions x k ctx).lane.get l
    = if (s.linkLanes x).get l then (s.lane.get l).setSession k fun S =>
        (S.receive (ctx (s.lane.get l)) (s.lane.get l).clock (lkBody x.bytes)).1 else s.lane.get l := by
  rw [State.linkSessions, State.updIn_lane]
  simp only [State.copyIn_none hc, Option.isNone_none, if_true]

theorem State.linkSessions_session {l : Lane} (hwf : SMap.wf (fun _ => ({} : SessSt)) (s.lane.get l).sess = true)
    (hl : (s.linkLanes x).get l = true) : ((s.linkSessions x k ctx).lane.get l).session k = (s.linkVerdict x k ctx l).1 := by
  rw [State.linkSessions_first hc, if_pos hl, LaneSt.session_setSession hwf]
  rfl

end FirstTelegram

/-! ### A response (R314, R331) -/

/-- What the master makes of a response that has passed the first five steps. -/
def State.takeResponse (s : State) (x : LinkRx) (u : Nat) (c : UnitCfg) : State :=
  let ctx (L : LaneSt) : TbCtx := s.linkCtx L c true u
  let ok := s.linkValid x (unitSess u) ctx
  let took := s.linkTook x (unitSess u) ctx
  let sess (l : Lane) : SessSt := (s.lane.get l).session (unitSess u)
  let s' := s.linkSessions x (unitSess u) ctx
  let s' := s'.updIn took fun _ L =>
    let r := unitRxOf (lkBc x.bytes) (tgPayload (lkBody x.bytes))
    (L.setUnitRx u fun _ => r).putRx [(u, r.inputs.setWidth 512)]
  let s' := s'.enterCopy x ok sess
  if 0 < took.count then s'.setUnit u fun a => { a with answered := true } else s'

theorem response_eq {s : State} {x : LinkRx} {c : UnitCfg} (hr : s.role = .central) (hcfg : s.unitCfg s.link.polled = some c) :
    exec (.response x) s = .next (
      let q := s.linkFive x 3 (s.answerWindow x.ch) (s.inSlot x.bytes && !s.link.invited)
      if q.1 then q.2.takeResponse x s.link.polled c else q.2) := by
  change execResponse x s = _
  unfold execResponse
  rw [if_neg (not_not.2 hr)]
  dsimp only
  rw [hcfg]
  generalize s.linkFive x 3 (s.answerWindow x.ch) (s.inSlot x.bytes && !s.link.invited) = q
  obtain ⟨passed, v⟩ := q
  cases passed
  · rfl
  · rfl

theorem LaneVec.count_pos {ls : LaneSet} {l : Lane} (h : ls.get l = true) : 0 < ls.count := by
  obtain ⟨a, b, c⟩ := ls
  cases l <;> (revert a b c; decide)

theorem LaneVec.count_two {ls : LaneSet} {l m : Lane} (hne : l ≠ m) (hl : ls.get l = true) (hm : ls.get m = true) : 2 ≤ ls.count := by
  obtain ⟨a, b, c⟩ := ls
  cases l <;> cases m <;> (revert hne a b c; decide)

/-- Data that have come are not the default of a unit without data. -/
theorem LaneSt.unitRx_setUnitRx_of_heard (L : LaneSt) (u : Nat) {r : UnitRx} (h : r.heard = true) :
    (L.setUnitRx u fun _ => r).unitRx u = r := by
  refine SMap.get_put_of_ne_default _ r u (fun e => ?_) _
  rw [e] at h
  cases h

section Response

variable {s : State} (hc : s.link.copies = []) (x : LinkRx) (u : Nat) (c : UnitCfg)

include hc

theorem State.takeResponse_takes (hadm : s.AdmWf) (hsess : s.SessWf) : s.Steady (s.takeResponse x u c)
    ∧ ∀ l : Lane, (s.linkLanes x).get l = true →
    let verdict := s.linkVerdict x (unitSess u) (fun L => s.linkCtx L c true u) l
    let M := (s.takeResponse x u c).lane.get l
    M.session (unitSess u) = verdict.1
      ∧ (verdict.2 = true → M.unitRx u = unitRxOf (lkBc x.bytes) (tgPayload (lkBody x.bytes))
        ∧ ((s.takeResponse x u c).unitAdm u).answered = true)
      ∧ (verdict.2 = false → M.unitRx u = (s.lane.get l).unitRx u) := by
  unfold State.takeResponse
  extract_lets ctx ok took sess v r w y
  have hw : s.Steady w := ⟨rfl, rfl, rfl⟩
  have hcw : w.link.copies = [] := hc
  have hy : w.Receives y := State.enterCopy_receives hcw x ok sess (.all false)
  have hyadm : y.AdmWf := hadm.congr (by rw [hy.rest]; rfl)
  generalize hz : (if 0 < took.count then y.setUnit u fun a => { a with answered := true } else y) = z
  have hmarked : z.lane = y.lane ∧ y.Steady z ∧ ∀ l : Lane, took.get l = true → (z.unitAdm u).answered = true := by
    subst hz
    split
    · exact ⟨rfl, ⟨rfl, rfl, rfl⟩, fun _ _ => by rw [State.unitAdm_setUnit hyadm, if_pos rfl]⟩
    · next hnone => exact ⟨rfl, ⟨rfl, rfl, rfl⟩, fun _ htook => absurd (LaneVec.count_pos htook) hnone⟩
  obtain ⟨hzlane, hzsteady, hanswered⟩ := hmarked
  have hlane (l : Lane) : (z.lane.get l).session (unitSess u) = (w.lane.get l).session (unitSess u)
      ∧ (z.lane.get l).unitRx u = (w.lane.get l).unitRx u := by
    rw [hzlane, hy.lane l]
    exact ⟨rfl, rfl⟩
  refine ⟨(hw.trans hy.steady).trans hzsteady, fun l hl => ?_⟩
  obtain ⟨hsession, hunit⟩ := hlane l
  have htook : took.get l = (s.linkVerdict x (unitSess u) ctx l).2 := by
    rw [State.linkTook_first hc, hl, Bool.true_and]
  have hv : (v.lane.get l).session (unitSess u) = (s.linkVerdict x (unitSess u) ctx l).1 := State.linkSessions_session hc x _ ctx (hsess l) hl
  have hvunits : (v.lane.get l).unitRx u = (s.lane.get l).unitRx u := by
    unfold v
    rw [State.linkSessions_first hc, if_pos hl]
    rfl
  have hwl : w.lane.get l = if took.get l then ((v.lane.get l).setUnitRx u fun _ => r).putRx [(u, r.inputs.setWidth 512)] else v.lane.get l :=
    State.updIn_lane ..
  refine ⟨?_, fun h => ⟨?_, hanswered l (htook.trans h)⟩, fun h => ?_⟩
  · rw [hsession, hwl, ← hv]
    split
    · rfl
    · rfl
  · rw [hunit, hwl, htook, if_pos h]
    exact LaneSt.unitRx_setUnitRx_of_heard (v.lane.get l) u rfl
  · rw [hunit, hwl, htook, if_neg (by rw [h]; decide), hvunits]

end Response

/-- A frame of the current slot comes to a master, from the unit that was polled. -/
theorem State.inSlot_master {s : State} {b : Bytes} (h : s.inSlot b = true) : s.link.node = .master ∧ lkSrc b = s.link.polled := by
  unfold State.inSlot at h
  simp only [Bool.and_eq_true, beq_iff_eq] at h
  obtain ⟨⟨⟨⟨⟨hnode, -⟩, hsrc⟩, -⟩, -⟩, -⟩ := h
  exact ⟨hnode, hsrc⟩

theorem State.inSlot_on {s : State} {b : Bytes} (h : s.inSlot b = true) : s.link.node ≠ .off := by
  rw [(State.inSlot_master h).1]
  decide

section ResponseSteps

variable {s : State} {x : LinkRx} {q : Nat × Nat} {c : UnitCfg} (hs : linkSound s.file x.bytes = true) (hr : s.role = .central)
  (hslot : s.inSlot x.bytes = true) (hwin : s.answerWindow x.ch = some q) (ht : lkType x.bytes = 3) (hcfg : s.unitCfg s.link.polled = some c)

include hs hr hslot hwin ht hcfg

theorem response_takes (hinv : s.link.invited = false) (hc : s.link.copies = []) (hadm : s.AdmWf) (hsess : s.SessWf)
    (hin : q.1 ≤ x.sAt.toNat ∧ x.endAt.toNat ≤ q.2) :
    ∃ t, exec (.response x) s = .next t ∧ s.Steady t ∧ ∀ l : Lane, (s.linkLanes x).get l = true →
      let verdict := s.linkVerdict x (unitSess s.link.polled) (fun L => s.linkCtx L c true s.link.polled) l
      (t.lane.get l).session (unitSess s.link.polled) = verdict.1
        ∧ (verdict.2 = true → (t.lane.get l).unitRx s.link.polled = unitRxOf (lkBc x.bytes) (tgPayload (lkBody x.bytes))
          ∧ (t.unitAdm s.link.polled).answered = true)
        ∧ (verdict.2 = false → (t.lane.get l).unitRx s.link.polled = (s.lane.get l).unitRx s.link.polled) := by
  obtain ⟨hrec, hcp⟩ := s.linkArrive_receives x
  have hpass := State.linkFive_passes (State.inSlot_on hslot) hs ht (win := s.answerWindow x.ch)
    (placed := s.inSlot x.bytes && !s.link.invited) (fun p hp => by
      cases hwin.symm.trans hp
      exact hin) (.inr (by rw [hslot, hinv]; rfl))
  rw [response_eq hr hcfg, hpass]
  obtain ⟨hsteady, hlanes⟩ := State.takeResponse_takes (hcp.trans hc) x s.link.polled c (hadm.congr (by rw [hrec.rest])) (fun l => by
    rw [hrec.lane l]
    exact hsess l)
  refine ⟨_, rfl, hrec.steady.trans hsteady, fun l hl => ?_⟩
  have hverdict : (s.linkArrive x).linkVerdict x (unitSess s.link.polled) (fun L => (s.linkArrive x).linkCtx L c true s.link.polled) l
      = s.linkVerdict x (unitSess s.link.polled) (fun L => s.linkCtx L c true s.link.polled) l := by
    rw [State.linkVerdict, hrec.linkCtx, hrec.session, hrec.lane l]
    rfl
  have hunit : ((s.linkArrive x).lane.get l).unitRx s.link.polled = (s.lane.get l).unitRx s.link.polled := by
    rw [hrec.lane l]
    rfl
  obtain ⟨hsession, htook, hnot⟩ := hlanes l (by rw [hrec.linkLanes]; exact hl)
  rw [hverdict] at hsession htook hnot
  rw [hunit] at hnot
  exact ⟨hsession, htook, hnot⟩

theorem response_outside (hin : ¬ (q.1 ≤ x.sAt.toNat ∧ x.endAt.toNat ≤ q.2)) :
    ∃ t, exec (.response x) s = .next t ∧ s.Steady t ∧ t.adm = s.adm
      ∧ ∀ l : Lane, (t.lane.get l).sess = (s.lane.get l).sess ∧ (t.lane.get l).units = (s.lane.get l).units := by
  obtain ⟨hfalse, hrec⟩ := State.linkFive_outside (placed := s.inSlot x.bytes && !s.link.invited) (State.inSlot_on hslot) hs ht hin
  rw [response_eq hr hcfg, hwin]
  dsimp only
  rw [hfalse]
  refine ⟨_, rfl, hrec.steady, ?_, fun l => ?_⟩
  · rw [if_neg Bool.false_ne_true, hrec.rest]
  · rw [if_neg Bool.false_ne_true, hrec.lane l]
    exact ⟨rfl, rfl⟩

end ResponseSteps

end Sys2Proof.Machine
end

section
/-! Acknowledgements of a mode and requests to join at the master (R326, R329, R339). -/

namespace Sys2Proof.Machine

section MasterAnswers

variable {s : State} {x : LinkRx} {q : Nat × Nat} (hr : s.role = .central) (hslot : s.inSlot x.bytes = true)
  (hwin : s.answerWindow x.ch = some q)

include hr hslot hwin

theorem modeAck_acks (hadm : s.AdmWf) (hgood : s.GoodFrame x 4 (some q) true) (hp : s.link.pending = true)
    (hmode : byteAt (lkBody x.bytes) 2 = s.link.pendMode) (htarget : beAt (lkBody x.bytes) 4 4 = s.link.target)
    (hunit : beAt (lkBody x.bytes) 0 2 = s.link.polled) :
    ∃ t, exec (.modeAck x) s = .next t ∧ s.Steady t ∧ (t.unitAdm s.link.polled).acked = true := by
  obtain ⟨v, hrec, he⟩ := State.codedFrame_good hgood
  have hsrc := (State.inSlot_master hslot).2
  have hadmV : v.AdmWf := hadm.congr (by rw [hrec.rest])
  have hv : v.Steady (v.setUnit (lkSrc x.bytes) fun a => { a with acked := true }) := ⟨rfl, rfl, rfl⟩
  refine ⟨v.setUnit (lkSrc x.bytes) fun a => { a with acked := true }, ?_, hrec.steady.trans hv, ?_⟩
  · change execModeAck x s = _
    unfold execModeAck
    dsimp only
    rw [hwin, hslot, he]
    exact congrArg _ (if_pos ⟨rfl, hr, hp, hmode, htarget, hunit.trans hsrc.symm⟩)
  · rw [State.unitAdm_setUnit hadmV, if_pos hsrc.symm]

end MasterAnswers

/-! ### A request to join (R326, R339, R380) -/

theorem State.Receives.joinBar {s t : State} (h : s.Receives t) (u pd : Nat) (b : Bytes) : t.joinBar u pd b = s.joinBar u pd b := by
  rw [h.rest]
  rfl

theorem UnitAdm.pd_setPd (a : UnitAdm) (ch : PlCh) (pd : Nat) : (a.setPd ch pd).pd ch = pd := by
  cases ch
  · rfl
  · rfl

theorem UnitAdm.setPd_admitted (a : UnitAdm) (ch : PlCh) (pd : Nat) : (a.setPd ch pd).admitted = a.admitted := by
  cases ch
  · rfl
  · rfl

/-- The propagation delay that a join request measures. -/
def State.joinPd (s : State) (x : LinkRx) (c : UnitCfg) : Nat := (x.sAt.toNat - (s.link.pollEnd + c.tau * 1000 + 1024)) / 10

/-- A unit admitted, its delay measured on a channel. -/
def UnitAdm.joined (a : UnitAdm) (ch : PlCh) (pd : Nat) : UnitAdm :=
  { a.setPd ch pd with admitted := true, reason := 0, joins := satAdd 16 a.joins 1, answered := true, age := 255 }

/-- A unit is admitted: its sessions open and its data begin again. -/
def State.admitUnit (s : State) (u : Nat) (ch : PlCh) (pd : Nat) : State :=
  (s.setUnit u fun a => a.joined ch pd).updAll fun _ L =>
    (L.setSession (unitSess u) fun S => { S.reopen .opening with heard := true }).setUnitRx u fun _ => {}

section TakeJoin

variable {s : State} {x : LinkRx} {c : UnitCfg} (hcfg : s.unitCfg (lkSrc x.bytes) = some c)

include hcfg

/-- The request does not end an admission: the unit is not admitted, or it was invited. -/
theorem State.takeJoin_eq (first : Bool) (h : (s.unitAdm (lkSrc x.bytes)).admitted = false ∨ s.link.invited = true) :
    s.takeJoin x first = 
      let u := lkSrc x.bytes
      let bar := s.joinBar u (s.joinPd x c) (lkBody x.bytes)
      if bar ≠ 0 then (s.setUnit u fun a => { a with reason := bar }).reportAll Base.plt 2 (u + bar * 65536)
      else if (s.unitAdm u).admitted then s.setUnit u fun a => { a.setPd x.ch (s.joinPd x c) with answered := true }
      else s.admitUnit u x.ch (s.joinPd x c) := by
  have hstay : ¬ (first = true ∧ (!s.link.invited) = true ∧ (s.unitAdm (lkSrc x.bytes)).admitted = true) := by
    rintro ⟨-, hno, had⟩
    rcases h with h | h
    · rw [h] at had
      cases had
    · rw [h] at hno
      cases hno
  unfold State.takeJoin
  dsimp only
  rw [if_neg hstay, hcfg]
  rfl

theorem State.takeJoin_refuses (hadm : s.AdmWf) (first : Bool) (h : (s.unitAdm (lkSrc x.bytes)).admitted = false)
    (hbar : s.joinBar (lkSrc x.bytes) (s.joinPd x c) (lkBody x.bytes) ≠ 0) :
    ((s.takeJoin x first).unitAdm (lkSrc x.bytes)).admitted = false
      ∧ ((s.takeJoin x first).unitAdm (lkSrc x.bytes)).reason = s.joinBar (lkSrc x.bytes) (s.joinPd x c) (lkBody x.bytes)
      ∧ ∀ l : Lane, s.parts.get l = true → (s.takeJoin x first).ErrSet l (Blk.ofOff Base.plt) 2 := by
  rw [State.takeJoin_eq hcfg first (.inl h)]
  extract_lets u bar
  rw [if_pos hbar]
  have hunit : (((s.setUnit u fun a => { a with reason := bar }).reportAll Base.plt 2 (u + bar * 65536)).unitAdm u)
      = { s.unitAdm u with reason := bar } := by
    rw [State.unitAdm_congr (State.Reacts.reportAll (X := fun _ => True) _ (fun _ => trivial) ..).adm, State.unitAdm_setUnit hadm, if_pos rfl]
  rw [hunit]
  exact ⟨h, rfl, fun l hl => State.reportAll_plt _ _ (by decide) l hl⟩

theorem State.takeJoin_admits (hadm : s.AdmWf) (hsess : s.SessWf) (first : Bool) (h : (s.unitAdm (lkSrc x.bytes)).admitted = false)
    (hbar : s.joinBar (lkSrc x.bytes) (s.joinPd x c) (lkBody x.bytes) = 0) :
    s.Steady (s.takeJoin x first) ∧ ((s.takeJoin x first).unitAdm (lkSrc x.bytes)).admitted = true
      ∧ ((s.takeJoin x first).unitAdm (lkSrc x.bytes)).pd x.ch = s.joinPd x c
      ∧ ∀ l : Lane, (((s.takeJoin x first).lane.get l).session (unitSess (lkSrc x.bytes))).st = .opening := by
  rw [State.takeJoin_eq hcfg first (.inl h)]
  extract_lets u bar
  rw [if_neg (not_not.2 hbar), if_neg (by rw [h]; decide)]
  have hunit : (s.admitUnit u x.ch (s.joinPd x c)).unitAdm u = (s.unitAdm u).joined x.ch (s.joinPd x c) :=
    (State.unitAdm_setUnit hadm u (fun a => a.joined x.ch (s.joinPd x c)) u).trans (if_pos rfl)
  refine ⟨⟨rfl, rfl, rfl⟩, by rw [hunit]; rfl, ?_, fun l => ?_⟩
  · rw [hunit]
    exact (s.unitAdm u).pd_setPd x.ch _
  · unfold State.admitUnit
    rw [State.updAll_lane]
    exact congrArg SessSt.st (LaneSt.session_setSession (hsess l) (unitSess u) fun S => { S.reopen .opening with heard := true })

/-- The channel of an admitted unit that was invited is measured. -/
theorem State.takeJoin_measures (hadm : s.AdmWf) (first : Bool) (h : (s.unitAdm (lkSrc x.bytes)).admitted = true)
    (hinv : s.link.invited = true) (hbar : s.joinBar (lkSrc x.bytes) (s.joinPd x c) (lkBody x.bytes) = 0) :
    s.Steady (s.takeJoin x first) ∧ ((s.takeJoin x first).unitAdm (lkSrc x.bytes)).admitted = true
      ∧ ((s.takeJoin x first).unitAdm (lkSrc x.bytes)).pd x.ch = s.joinPd x c := by
  rw [State.takeJoin_eq hcfg first (.inr hinv)]
  extract_lets u bar
  rw [if_neg (not_not.2 hbar), if_pos h, State.unitAdm_setUnit hadm, if_pos rfl]
  exact ⟨⟨rfl, rfl, rfl⟩, ((s.unitAdm u).setPd_admitted x.ch _).trans h, (s.unitAdm u).pd_setPd x.ch _⟩

end TakeJoin

section JoinRequest

variable {s : State} {x : LinkRx} {q : Nat × Nat} {c : UnitCfg} (hr : s.role = .central) (hslot : s.inSlot x.bytes = true)
  (hwin : s.answerWindow x.ch = some q) (hgood : s.GoodFrame x 6 (some q) true) (hcfg : s.unitCfg s.link.polled = some c)

include hr hslot hwin hgood

theorem joinRequest_takes : ∃ v, s.Receives v ∧ exec (.joinRequest x) s = .next (v.takeJoin x true) := by
  obtain ⟨v, hrec, he⟩ := State.codedFrame_good hgood
  refine ⟨v, hrec, ?_⟩
  change execJoinRequest x s = _
  unfold execJoinRequest
  rw [hwin, hslot, he]
  exact congrArg _ (if_pos ⟨rfl, hr⟩)

include hcfg

theorem joinRequest_joins (hadm : s.AdmWf) (hsess : s.SessWf) (h : (s.unitAdm s.link.polled).admitted = false) :
    ∃ t, exec (.joinRequest x) s = .next t
      ∧ (s.joinBar s.link.polled (s.joinPd x c) (lkBody x.bytes) = 0 → s.Steady t ∧ (t.unitAdm s.link.polled).admitted = true
        ∧ (t.unitAdm s.link.polled).pd x.ch = s.joinPd x c ∧ ∀ l : Lane, ((t.lane.get l).session (unitSess s.link.polled)).st = .opening)
      ∧ (s.joinBar s.link.polled (s.joinPd x c) (lkBody x.bytes) ≠ 0 → (t.unitAdm s.link.polled).admitted = false
        ∧ (t.unitAdm s.link.polled).reason = s.joinBar s.link.polled (s.joinPd x c) (lkBody x.bytes)
        ∧ ∀ l : Lane, s.parts.get l = true → t.ErrSet l (Blk.ofOff Base.plt) 2) := by
  obtain ⟨v, hrec, he⟩ := joinRequest_takes hr hslot hwin hgood
  have hsrc := (State.inSlot_master hslot).2
  rw [← hsrc] at h hcfg ⊢
  have hcfgV : v.unitCfg (lkSrc x.bytes) = some c := by rw [hrec.rest]; exact hcfg
  have hadmV : v.AdmWf := hadm.congr (by rw [hrec.rest])
  have hV : (v.unitAdm (lkSrc x.bytes)).admitted = false := by rw [hrec.rest]; exact h
  have hpd : v.joinPd x c = s.joinPd x c := by rw [hrec.rest]; rfl
  have hsessV : v.SessWf := fun l => by rw [hrec.lane l]; exact hsess l
  refine ⟨_, he, fun hbar => ?_, fun hbar => ?_⟩
  · rw [← hrec.joinBar, ← hpd] at hbar
    obtain ⟨hst, hrest⟩ := State.takeJoin_admits hcfgV hadmV hsessV true hV hbar
    rw [hpd] at hrest
    exact ⟨hrec.steady.trans hst, hrest⟩
  · rw [← hrec.joinBar, ← hpd] at hbar ⊢
    obtain ⟨had, hreason, herr⟩ := State.takeJoin_refuses hcfgV hadmV true hV hbar
    exact ⟨had, hreason, fun l hl => herr l (by rw [hrec.steady.parts]; exact hl)⟩

theorem joinRequest_measures (hadm : s.AdmWf) (h : (s.unitAdm s.link.polled).admitted = true) (hinv : s.link.invited = true)
    (hbar : s.joinBar s.link.polled (s.joinPd x c) (lkBody x.bytes) = 0) :
    ∃ t, exec (.joinRequest x) s = .next t ∧ s.Steady t ∧ (t.unitAdm s.link.polled).admitted = true
      ∧ (t.unitAdm s.link.polled).pd x.ch = s.joinPd x c := by
  obtain ⟨v, hrec, he⟩ := joinRequest_takes hr hslot hwin hgood
  have hsrc := (State.inSlot_master hslot).2
  rw [← hsrc] at h hcfg hbar ⊢
  have hcfgV : v.unitCfg (lkSrc x.bytes) = some c := by rw [hrec.rest]; exact hcfg
  have hadmV : v.AdmWf := hadm.congr (by rw [hrec.rest])
  have hV : (v.unitAdm (lkSrc x.bytes)).admitted = true := by rw [hrec.rest]; exact h
  have hpd : v.joinPd x c = s.joinPd x c := by rw [hrec.rest]; rfl
  rw [← hrec.joinBar, ← hpd] at hbar
  obtain ⟨hst, had, hmeasured⟩ := State.takeJoin_measures hcfgV hadmV true hV (by rw [hrec.rest]; exact hinv) hbar
  exact ⟨_, he, hrec.steady.trans hst, had, hmeasured.trans hpd⟩

end JoinRequest

end Sys2Proof.Machine
end

section
/-! Polls and invitations at the lineside unit, its command timeout (R297, R313, R335), and the statement about the answers of the
Platform Link. -/

namespace Sys2Proof.Machine

/-! ### What a unit sends (R312, R313, R316) -/

/-- The unit's answer changes of the link its edges' marks alone. -/
theorem State.answerPoll_rest (s : State) (x : LinkRx) : s.Works (s.answerPoll x)
    ∧ (s.answerPoll x).link = { s.link with edges := (s.answerPoll x).link.edges } := by
  have hwithheld := State.Sends.withheld 1 s
  unfold State.answerPoll
  extract_lets t pd tg ack burst head v
  split
  · exact ⟨.refl s, rfl⟩
  · split
    · exact ⟨.of_sends hwithheld, by rw [hwithheld.rest]⟩
    · split
      · exact ⟨⟨rfl⟩, rfl⟩
      · exact ⟨⟨rfl⟩, rfl⟩

/-- A unit asks to join: it is no longer admitted, and its request leaves where it comes in time. -/
theorem State.sendJoin_first (s : State) (x : LinkRx) : s.Works (s.sendJoin x true)
    ∧ (s.sendJoin x true).link = { s.link with admitted := false }
    ∧ (s.tooLate x (burstNs 52) = false → ∃ f : TxFrame, (s.sendJoin x true).txq = s.txq ++ [f]
      ∧ f.ch = plTx x.ch ∧ lkType f.bytes = 6) := by
  unfold State.sendJoin
  rw [if_pos rfl]
  extract_lets t k u head body
  have hlate : u.tooLate x (burstNs 52) = s.tooLate x (burstNs 52) := rfl
  split
  · next h =>
    refine ⟨⟨rfl⟩, rfl, fun hno => ?_⟩
    rw [hlate, hno] at h
    cases h
  · exact ⟨⟨rfl⟩, rfl, fun _ => ⟨_, rfl, rfl, lkType_linkFrame _ _ _ _ _ _ _ _ (by decide)⟩⟩

/-! ### A poll takes effect (R297, R299, R335, R475) -/

theorem State.notePd_rest (s : State) (x : LinkRx) : ∃ a b, s.notePd x = { s with link := { s.link with pdA := a, pdB := b } } := by
  unfold State.notePd
  cases x.ch
  · exact ⟨_, _, rfl⟩
  · exact ⟨_, _, rfl⟩

/-- A poll used ends the command timeout, and enters the first state of service. -/
theorem State.usePoll_heard (s : State) (t : Bytes) : ∃ carried, (s.usePoll t).link
    = { s.link with timedOut := false, pollAt := some (s.now, lkBc t), admitted := true, carried := carried }
      ∧ (s.mstate = .sync → s.file.paired = false → (s.usePoll t).mstate = .run) := by
  unfold State.usePoll
  extract_lets h k u v seq out k' w k''
  have hv : v.link = u.link ∧ (s.mstate = .sync → s.file.paired = false → v.mstate = .run) := by
    unfold v
    split
    · obtain ⟨hlink, -, -, -, -, hm⟩ := u.firstService_enters (if u.file.paired then .duty else .run)
      exact ⟨hlink, fun _ hp => hm.trans (if_neg fun hpaired => Bool.false_ne_true (hp.symm.trans hpaired))⟩
    · next hno => exact ⟨rfl, fun hm _ => absurd (.inl hm) hno⟩
  obtain ⟨hlink, hrun⟩ := hv
  split
  · exact ⟨_, congrArg (fun k : LinkSt => ({ k with carried := w.link.carried } : LinkSt)) hlink, hrun⟩
  · exact ⟨_, hlink, hrun⟩

/-- What a poll that two lanes' sessions hand on leaves of the link and of the module's state. -/
structure State.PollTakes (s t : State) (b : Bytes) : Prop where
  timedOut : t.link.timedOut = false
  pollAt : t.link.pollAt = some (s.now, lkBc b)
  cmdAck : t.link.cmdAck = lkBc b
  cmds : t.link.cmds = if (byteAt (tgPayload (lkBody b)) 0x20).testBit 0 then BitVec.ofNat 256 (ofLe (slice (tgPayload (lkBody b)) 0 32)) else 0
  run : s.mstate = .sync → s.file.paired = false → t.mstate = .run

theorem State.takePoll_usePoll_takes (s : State) (b : Bytes) : s.PollTakes ((s.takePoll b).usePoll b) b := by
  obtain ⟨carried, hlink, hrun⟩ := (s.takePoll b).usePoll_heard b
  exact ⟨by rw [hlink], by rw [hlink]; rfl, by rw [hlink]; rfl, by rw [hlink]; rfl, hrun⟩

section SessionPoll

variable {s : State} (hc : s.link.copies = []) (x : LinkRx) (sends : Bool) {l m : Lane} (hne : l ≠ m)
  (htwo : ∀ y : Lane, y = l ∨ y = m → (s.linkLanes x).get y = true ∧ (s.linkVerdict x ownSess (s.pollCtx x.bytes) y).2 = true)

include hc hne htwo

theorem State.sessionPoll_takes : s.PollTakes (s.sessionPoll x sends) x.bytes := by
  obtain ⟨hlanel, hl⟩ := htwo l (.inl rfl)
  obtain ⟨hlanem, hm⟩ := htwo m (.inr rfl)
  have hokl := State.linkValid_first hc x ownSess (s.pollCtx x.bytes) l hlanel hl
  have hokm := State.linkValid_first hc x ownSess (s.pollCtx x.bytes) m hlanem hm
  have htook (y : Lane) := State.linkTook_first hc x ownSess (s.pollCtx x.bytes) y
  unfold State.sessionPoll
  extract_lets t ok took sess q u v w
  have hcopies : (s.linkSessions x ownSess (s.pollCtx t)).link.copies = [] := hc
  have hq : q = ⟨(s.linkSessions x ownSess (s.pollCtx t)).enterCopy x ok sess took, true, true, true⟩ := by
    have hok : 2 ≤ ok.count := LaneVec.count_two hne hokl hokm
    have hboth : 2 ≤ (LaneVec.ofFn fun y => ok.get y && took.get y : LaneSet).count := LaneVec.count_two hne
      (by rw [LaneVec.get_ofFn, htook, hlanel, hl]; exact (Bool.and_true _).trans hokl)
      (by rw [LaneVec.get_ofFn, htook, hlanem, hm]; exact (Bool.and_true _).trans hokm)
    exact (State.takeCopyOf_first hcopies x ok sess took).trans (by rw [decide_eq_true hok, decide_eq_true hboth])
  have hw : w = ((q.s.notePd x).takePoll t).usePoll t := by
    unfold w v u
    rw [hq]
    rfl
  have hu : (q.s.notePd x).now = s.now ∧ (q.s.notePd x).file = s.file ∧ (q.s.notePd x).mstate = s.mstate := by
    obtain ⟨a, b, hpd⟩ := q.s.notePd_rest x
    have hqs : (s.linkSessions x ownSess (s.pollCtx t)).Receives q.s := by
      rw [hq]
      exact State.enterCopy_receives hcopies x ok sess took
    rw [hpd, hqs.rest]
    exact ⟨rfl, rfl, rfl⟩
  obtain ⟨hnow, hfile, hmstate⟩ := hu
  have htakes := (q.s.notePd x).takePoll_usePoll_takes t
  rw [← hw] at htakes
  obtain ⟨h1, h2, h3, h4, h5⟩ := htakes
  rw [hnow] at h2
  rw [hfile, hmstate] at h5
  split
  · obtain ⟨hworks, hlink⟩ := w.answerPoll_rest x
    exact ⟨by rw [hlink]; exact h1, by rw [hlink]; exact h2, by rw [hlink]; exact h3, by rw [hlink]; exact h4,
      fun hm hp => hworks.mstate.trans (h5 hm hp)⟩
  · exact ⟨h1, h2, h3, h4, h5⟩

end SessionPoll

/-! ### A frame at the unit (R305, R313) -/

section Lineside

variable {s : State} {x : LinkRx} (hr : s.role = .lineside) (hs : linkSound s.file x.bytes = true)
  (ht : lkType x.bytes = 2) (hplaced : s.pollPlaced x = true)

include hr hs ht hplaced

theorem poll_passes (hon : s.link.node ≠ .off) : s.linkFive x 2 none (s.role == .lineside && s.pollPlaced x) = (true, s.linkArrive x) :=
  State.linkFive_passes hon hs ht (fun _ h => nomatch h) (.inr (by rw [hr, hplaced]; rfl))

/-- The unit's session checks the poll: the unit answers none, or it holds a session. -/
theorem poll_checks (hinv : lkInvite x.bytes = false) (hnode : s.link.node = .integrated
      ∨ s.link.node = .answering ∧ ((s.lane.get s.leadLane).session ownSess).st.receives = true) (hc : s.link.copies = []) :
    exec (.poll x) s = .next ((s.linkArrive x).sessionPoll x ((s.linkArrive x).link.node == .answering)) := by
  obtain ⟨hrec, hcp⟩ := s.linkArrive_receives x
  have hon : s.link.node ≠ .off := by
    rcases hnode with h | ⟨h, -⟩ <;> (rw [h]; decide)
  have hbare : ((s.linkArrive x).file.paired && ((s.linkArrive x).link.node == .answering) && !(s.linkArrive x).heldSession x.bytes) = false := by
    have hnodeV : (s.linkArrive x).link.node = s.link.node := by rw [hrec.rest]
    rcases hnode with h | ⟨h, hheld⟩
    · rw [hnodeV, h, Bool.and_assoc]
      exact Bool.and_false _
    · have hlead : (s.linkArrive x).leadLane = s.leadLane := by rw [hrec.rest]; rfl
      have : (s.linkArrive x).heldSession x.bytes = true := by
        rw [State.heldSession, State.copyIn_none (hcp.trans hc), hlead, hrec.session]
        exact hheld
      rw [this]
      exact Bool.and_false _
  change execPoll x s = _
  unfold execPoll
  rw [poll_passes hr hs ht hplaced hon]
  dsimp only
  rw [if_neg (fun h => h.elim Bool.false_ne_true fun h => h hr), if_neg (by rw [hinv]; decide)]
  unfold State.receivePoll
  dsimp only
  rw [if_neg (by rw [hbare]; decide)]

theorem poll_takes (hinv : lkInvite x.bytes = false) (hnode : s.link.node = .integrated
      ∨ s.link.node = .answering ∧ ((s.lane.get s.leadLane).session ownSess).st.receives = true) (hc : s.link.copies = [])
    {l m : Lane} (hne : l ≠ m) (htwo : ∀ y : Lane, y = l ∨ y = m → (s.linkLanes x).get y = true
      ∧ (s.linkVerdict x ownSess (fun L => s.linkCtx L s.ownUnit false (lkSrc x.bytes)) y).2 = true) :
    ∃ t, exec (.poll x) s = .next t ∧ s.PollTakes t x.bytes := by
  obtain ⟨hrec, hcp⟩ := s.linkArrive_receives x
  have htakes := State.sessionPoll_takes (hcp.trans hc) x ((s.linkArrive x).link.node == .answering) hne fun y hy => by
    obtain ⟨hlane, hverdict⟩ := htwo y hy
    have hown : (s.linkArrive x).ownUnit = s.ownUnit := by rw [hrec.rest]; rfl
    refine ⟨by rw [hrec.linkLanes]; exact hlane, ?_⟩
    rw [State.linkVerdict, State.pollCtx, hown, hrec.linkCtx, hrec.session, hrec.lane y]
    exact hverdict
  refine ⟨_, poll_checks hr hs ht hplaced hinv hnode hc, htakes.timedOut, htakes.pollAt.trans ?_, htakes.cmdAck, htakes.cmds, fun hm hp => ?_⟩
  · rw [hrec.rest]
  · exact htakes.run (hrec.steady.mstate.trans hm) (by rw [hrec.rest]; exact hp)

theorem poll_invites (hinv : lkInvite x.bytes = true) (hnode : s.link.node = .answering) (hlanes : 2 ≤ (s.linkLanes x).count)
    (hc : s.link.copies = []) :
    ∃ t, exec (.poll x) s = .next t ∧ s.Steady t ∧ t.link.timedOut = false ∧ t.link.pollAt = some (s.now, lkBc x.bytes)
      ∧ t.link.admitted = false ∧ t.link.cmds = s.link.cmds
      ∧ (s.tooLate x (burstNs 52) = false → ∃ f : TxFrame, t.txq = s.txq ++ [f] ∧ f.ch = plTx x.ch ∧ lkType f.bytes = 6) := by
  obtain ⟨hrec, hcp⟩ := s.linkArrive_receives x
  have hcV : (s.linkArrive x).link.copies = [] := hcp.trans hc
  have htwo : 2 ≤ ((s.linkArrive x).linkLanes x).count := by rw [hrec.linkLanes]; exact hlanes
  have htake := State.takeCopyOf_first hcV x ((s.linkArrive x).linkLanes x) (fun _ => {}) (.all false)
  have hentered := hrec.trans (State.enterCopy_receives hcV x ((s.linkArrive x).linkLanes x) (fun _ => {}) (.all false))
  rw [decide_eq_true htwo] at htake
  generalize (s.linkArrive x).enterCopy x ((s.linkArrive x).linkLanes x) (fun _ => {}) (.all false) = v at htake hentered
  obtain ⟨hworks, hlink, htxq⟩ := (v.pollHeard x.bytes).sendJoin_first x
  have hheard : s.Works (v.pollHeard x.bytes) := (State.Works.of_receives hentered).trans ⟨rfl⟩
  refine ⟨(v.pollHeard x.bytes).sendJoin x true, ?_, (hheard.trans hworks).steady, by rw [hlink]; rfl, ?_, by rw [hlink], ?_, fun hlate => ?_⟩
  · change execPoll x s = _
    unfold execPoll
    rw [poll_passes hr hs ht hplaced (by rw [hnode]; decide)]
    dsimp only
    rw [if_neg (fun h => h.elim Bool.false_ne_true fun h => h hr), if_pos hinv, htake]
    dsimp only
    rw [if_pos rfl, if_pos]
    have : (v.pollHeard x.bytes).link.node = s.link.node := by rw [hentered.rest]; rfl
    rw [this, hnode]
    rfl
  · rw [hlink, hentered.rest]
    rfl
  · rw [hlink, hentered.rest]
    rfl
  · obtain ⟨f, htx, hf⟩ := htxq (by rw [← hlate, hentered.rest]; rfl)
    exact ⟨f, htx.trans (by rw [hentered.rest]; rfl), hf⟩

end Lineside

/-! ### The command timeout (R18, R335) -/

theorem cmdTimeout_clears {s : State} (hr : s.role = .lineside) (ht : s.link.timedOut = false) (hp : s.pollExpired = true) :
    ∃ t, exec .cmdTimeout s = .next t ∧ t.link.cmds = 0
      ∧ t.link.cmdsFrozen = 0 ∧ t.link.timedOut = true ∧ ∀ l : Lane, s.parts.get l = true → t.ErrSet l (Blk.ofOff Base.plt) 5 := by
  have hlink := (State.Reacts.reportAll (X := fun _ => True) { s with link := { s.link with timedOut := true, cmds := 0, cmdsFrozen := 0 } }
    (fun _ => trivial) Base.plt 5 0).link
  refine ⟨_, if_pos ⟨hr, by rw [ht]; rfl, hp⟩, by rw [hlink], by rw [hlink], by rw [hlink], fun l hl => ?_⟩
  exact State.reportAll_plt _ _ (by decide) l hl

theorem cmdTimeout_waits {s : State} (h : s.role = .central ∨ s.link.timedOut = true ∨ s.pollExpired = false) :
    exec .cmdTimeout s = .next s := by
  refine if_neg ?_
  rintro ⟨hr, ht, hp⟩
  rcases h with h | h | h
  · cases hr.symm.trans h
  · rw [h] at ht
    cases ht
  · cases hp.symm.trans h

/-- Settles O50: each clause is what the frame makes of the unit at the master, or of the lineside unit that it polls. -/
theorem linkAnswersAndPolls : Obligations.LinkAnswersAndPolls := by
  intro s x hs hc hadm hsess
  refine ⟨fun u q hr hu hslot hwin => ?_, fun hr ht hplaced => ⟨fun hinv hnode htwo => ?_, fun hinv hnode hlanes =>
    poll_invites hr hs ht hplaced hinv hnode hlanes hc⟩, cmdTimeout_clears, cmdTimeout_waits⟩
  · subst hu
    refine ⟨fun c ht hinv hcfg => ⟨fun hin => ?_, fun hout => ?_⟩, modeAck_acks hr hslot hwin hadm, fun c hgood hcfg =>
      ⟨joinRequest_joins hr hslot hwin hgood hcfg hadm hsess, joinRequest_measures hr hslot hwin hgood hcfg hadm⟩⟩
    · exact response_takes hs hr hslot hwin ht hcfg hinv hc hadm hsess (by simpa using hin)
    · exact response_outside hs hr hslot hwin ht hcfg (by simpa using hout)
  · obtain ⟨l, m, hne, hboth⟩ := htwo
    obtain ⟨t, he, htakes⟩ := poll_takes hr hs ht hplaced hinv hnode hc hne hboth
    exact ⟨t, he, htakes.timedOut, htakes.pollAt, htakes.cmdAck, htakes.cmds, htakes.run⟩

end Sys2Proof.Machine
end
